-- ==== Sys2Proof/Syntax.lean ====
section
/-! DEFINITION. The instructions and steps of the JR-9: one constructor per row of spec/opcode_table.json.
Rows with an instruction word carry the fields of the word (03 R74 to R86); the other rows are the machine's
remaining steps (spec/95_what_each_step_holds.md) and carry what names the step: a core (c), a slot (t), a
partition (p), a die (d), a field (f), a bench (b) or the data that comes from outside. -/

namespace Sys2Proof

/-- One constructor per row of spec/opcode_table.json. A 4-bit field is a register field (R75). -/
inductive Instr where
  /-- ADD (R110). -/
  | add (d : BitVec 4) (a : BitVec 4) (b : BitVec 4)
  /-- ADDW (R110). -/
  | addw (d : BitVec 4) (a : BitVec 4) (b : BitVec 4)
  /-- SUB (R110). -/
  | sub (d : BitVec 4) (a : BitVec 4) (b : BitVec 4)
  /-- SUBW (R110). -/
  | subw (d : BitVec 4) (a : BitVec 4) (b : BitVec 4)
  /-- MUL (R110). -/
  | mul (d : BitVec 4) (a : BitVec 4) (b : BitVec 4)
  /-- MULW (R110). -/
  | mulw (d : BitVec 4) (a : BitVec 4) (b : BitVec 4)
  /-- MULH (R110). -/
  | mulh (d : BitVec 4) (a : BitVec 4) (b : BitVec 4)
  /-- MULHU (R110). -/
  | mulhu (d : BitVec 4) (a : BitVec 4) (b : BitVec 4)
  /-- DIV (R111). -/
  | div (d : BitVec 4) (a : BitVec 4) (b : BitVec 4)
  /-- DIVU (R111). -/
  | divu (d : BitVec 4) (a : BitVec 4) (b : BitVec 4)
  /-- REM (R111). -/
  | rem (d : BitVec 4) (a : BitVec 4) (b : BitVec 4)
  /-- REMU (R111). -/
  | remu (d : BitVec 4) (a : BitVec 4) (b : BitVec 4)
  /-- AND (R110). -/
  | andr (d : BitVec 4) (a : BitVec 4) (b : BitVec 4)
  /-- OR (R110). -/
  | orr (d : BitVec 4) (a : BitVec 4) (b : BitVec 4)
  /-- XOR (R110). -/
  | xorr (d : BitVec 4) (a : BitVec 4) (b : BitVec 4)
  /-- ANDN (R110). -/
  | andn (d : BitVec 4) (a : BitVec 4) (b : BitVec 4)
  /-- ORN (R110). -/
  | orn (d : BitVec 4) (a : BitVec 4) (b : BitVec 4)
  /-- SHL (R112). -/
  | shl (d : BitVec 4) (a : BitVec 4) (b : BitVec 4)
  /-- SHR (R112). -/
  | shr (d : BitVec 4) (a : BitVec 4) (b : BitVec 4)
  /-- SAR (R112). -/
  | sar (d : BitVec 4) (a : BitVec 4) (b : BitVec 4)
  /-- ROL (R112). -/
  | rol (d : BitVec 4) (a : BitVec 4) (b : BitVec 4)
  /-- SHLW (R112). -/
  | shlw (d : BitVec 4) (a : BitVec 4) (b : BitVec 4)
  /-- SHRW (R112). -/
  | shrw (d : BitVec 4) (a : BitVec 4) (b : BitVec 4)
  /-- SARW (R112). -/
  | sarw (d : BitVec 4) (a : BitVec 4) (b : BitVec 4)
  /-- MIN (R110). -/
  | minS (d : BitVec 4) (a : BitVec 4) (b : BitVec 4)
  /-- MAX (R110). -/
  | maxS (d : BitVec 4) (a : BitVec 4) (b : BitVec 4)
  /-- MINU (R110). -/
  | minu (d : BitVec 4) (a : BitVec 4) (b : BitVec 4)
  /-- MAXU (R110). -/
  | maxu (d : BitVec 4) (a : BitVec 4) (b : BitVec 4)
  /-- ABS (R113). -/
  | abs (d : BitVec 4) (a : BitVec 4)
  /-- CLZ (R113). -/
  | clz (d : BitVec 4) (a : BitVec 4)
  /-- CTZ (R113). -/
  | ctz (d : BitVec 4) (a : BitVec 4)
  /-- POPC (R113). -/
  | popc (d : BitVec 4) (a : BitVec 4)
  /-- BREV (R113). -/
  | brev (d : BitVec 4) (a : BitVec 4)
  /-- BSWAP (R113). -/
  | bswap (d : BitVec 4) (a : BitVec 4)
  /-- SEXT (R114). -/
  | sext (d : BitVec 4) (a : BitVec 4) (w : BitVec 6)
  /-- ZEXT (R114). -/
  | zext (d : BitVec 4) (a : BitVec 4) (w : BitVec 6)
  /-- EXTR (R115). -/
  | extr (d : BitVec 4) (a : BitVec 4) (b : BitVec 4)
  /-- INSR (R115). -/
  | insr (d : BitVec 4) (a : BitVec 4) (b : BitVec 4)
  /-- SLT (R110). -/
  | slt (d : BitVec 4) (a : BitVec 4) (b : BitVec 4)
  /-- SLTU (R110). -/
  | sltu (d : BitVec 4) (a : BitVec 4) (b : BitVec 4)
  /-- SEQ (R110). -/
  | seq (d : BitVec 4) (a : BitVec 4) (b : BitVec 4)
  /-- SNE (R110). -/
  | sne (d : BitVec 4) (a : BitVec 4) (b : BitVec 4)
  /-- LEA (R116). -/
  | lea (d : BitVec 4) (a : BitVec 4) (b : BitVec 4) (s : BitVec 2)
  /-- ADDI (R118). -/
  | addi (d : BitVec 4) (a : BitVec 4) (i : BitVec 18)
  /-- ADDWI (R118). -/
  | addwi (d : BitVec 4) (a : BitVec 4) (i : BitVec 18)
  /-- ANDI (R118). -/
  | andi (d : BitVec 4) (a : BitVec 4) (i : BitVec 18)
  /-- ORI (R118). -/
  | ori (d : BitVec 4) (a : BitVec 4) (i : BitVec 18)
  /-- XORI (R118). -/
  | xori (d : BitVec 4) (a : BitVec 4) (i : BitVec 18)
  /-- SHLI (R118). -/
  | shli (d : BitVec 4) (a : BitVec 4) (s : BitVec 6)
  /-- SHRI (R118). -/
  | shri (d : BitVec 4) (a : BitVec 4) (s : BitVec 6)
  /-- SARI (R118). -/
  | sari (d : BitVec 4) (a : BitVec 4) (s : BitVec 6)
  /-- SLTI (R118). -/
  | slti (d : BitVec 4) (a : BitVec 4) (i : BitVec 18)
  /-- SLTUI (R118). -/
  | sltui (d : BitVec 4) (a : BitVec 4) (i : BitVec 18)
  /-- LI (R118). -/
  | li (d : BitVec 4) (i : BitVec 18)
  /-- LIH (R118). -/
  | lih (d : BitVec 4) (a : BitVec 4) (i : BitVec 18)
  /-- LEAI (R118). -/
  | leai (d : BitVec 4) (i : BitVec 18)
  /-- SKEQ_REG (R120). -/
  | skeqReg (a : BitVec 4) (b : BitVec 4) (n : BitVec 2)
  /-- SKEQ_IMM (R120). -/
  | skeqImm (a : BitVec 4) (i : BitVec 15) (n : BitVec 2)
  /-- SKNE_REG (R120). -/
  | skneReg (a : BitVec 4) (b : BitVec 4) (n : BitVec 2)
  /-- SKNE_IMM (R120). -/
  | skneImm (a : BitVec 4) (i : BitVec 15) (n : BitVec 2)
  /-- SKLT_REG (R120). -/
  | skltReg (a : BitVec 4) (b : BitVec 4) (n : BitVec 2)
  /-- SKLT_IMM (R120). -/
  | skltImm (a : BitVec 4) (i : BitVec 15) (n : BitVec 2)
  /-- SKGE_REG (R120). -/
  | skgeReg (a : BitVec 4) (b : BitVec 4) (n : BitVec 2)
  /-- SKGE_IMM (R120). -/
  | skgeImm (a : BitVec 4) (i : BitVec 15) (n : BitVec 2)
  /-- SKLTU_REG (R120). -/
  | skltuReg (a : BitVec 4) (b : BitVec 4) (n : BitVec 2)
  /-- SKLTU_IMM (R120). -/
  | skltuImm (a : BitVec 4) (i : BitVec 15) (n : BitVec 2)
  /-- SKGEU_REG (R120). -/
  | skgeuReg (a : BitVec 4) (b : BitVec 4) (n : BitVec 2)
  /-- SKGEU_IMM (R120). -/
  | skgeuImm (a : BitVec 4) (i : BitVec 15) (n : BitVec 2)
  /-- SKBS_REG (R120). -/
  | skbsReg (a : BitVec 4) (b : BitVec 4) (n : BitVec 2)
  /-- SKBS_IMM (R120). -/
  | skbsImm (a : BitVec 4) (k : BitVec 6) (n : BitVec 2)
  /-- SKBC_REG (R120). -/
  | skbcReg (a : BitVec 4) (b : BitVec 4) (n : BitVec 2)
  /-- SKBC_IMM (R120). -/
  | skbcImm (a : BitVec 4) (k : BitVec 6) (n : BitVec 2)
  /-- SKFEQ (R121). -/
  | skfeq (a : BitVec 4) (b : BitVec 4) (n : BitVec 2)
  /-- SKFLT (R121). -/
  | skflt (a : BitVec 4) (b : BitVec 4) (n : BitVec 2)
  /-- SKFLE (R121). -/
  | skfle (a : BitVec 4) (b : BitVec 4) (n : BitVec 2)
  /-- SKFUN (R121). -/
  | skfun (a : BitVec 4) (b : BitVec 4) (n : BitVec 2)
  /-- FADD (R124). -/
  | fadd (d : BitVec 4) (a : BitVec 4) (b : BitVec 4)
  /-- FSUB (R124). -/
  | fsub (d : BitVec 4) (a : BitVec 4) (b : BitVec 4)
  /-- FMUL (R124). -/
  | fmul (d : BitVec 4) (a : BitVec 4) (b : BitVec 4)
  /-- FMA (R125). -/
  | fma (d : BitVec 4) (a : BitVec 4) (b : BitVec 4) (c : BitVec 4)
  /-- FMS (R125). -/
  | fms (d : BitVec 4) (a : BitVec 4) (b : BitVec 4) (c : BitVec 4)
  /-- FNMA (R125). -/
  | fnma (d : BitVec 4) (a : BitVec 4) (b : BitVec 4) (c : BitVec 4)
  /-- FDIV (R126). -/
  | fdiv (d : BitVec 4) (a : BitVec 4) (b : BitVec 4)
  /-- FSQRT (R126). -/
  | fsqrt (d : BitVec 4) (a : BitVec 4)
  /-- FMIN (R127). -/
  | fmin (d : BitVec 4) (a : BitVec 4) (b : BitVec 4)
  /-- FMAX (R127). -/
  | fmax (d : BitVec 4) (a : BitVec 4) (b : BitVec 4)
  /-- FABS (R127). -/
  | fabs (d : BitVec 4) (a : BitVec 4)
  /-- FNEG (R127). -/
  | fneg (d : BitVec 4) (a : BitVec 4)
  /-- FSGN (R127). -/
  | fsgn (d : BitVec 4) (a : BitVec 4) (b : BitVec 4)
  /-- FCLASS (R128). -/
  | fclass (d : BitVec 4) (a : BitVec 4)
  /-- FCVTFI (R129). -/
  | fcvtfi (d : BitVec 4) (a : BitVec 4) (f : BitVec 6)
  /-- FCVTIF (R129). -/
  | fcvtif (d : BitVec 4) (a : BitVec 4) (f : BitVec 6)
  /-- FCVTH (R130). -/
  | fcvth (d : BitVec 4) (a : BitVec 4) (x : BitVec 1) (f : BitVec 5)
  /-- BR (R133). -/
  | br (o : BitVec 26)
  /-- CALL (R135). -/
  | call (o : BitVec 26)
  /-- BZ (R133). -/
  | bz (a : BitVec 4) (o : BitVec 18)
  /-- BNZ (R133). -/
  | bnz (a : BitVec 4) (o : BitVec 18)
  /-- LOOP (R137). -/
  | loopSet (s : BitVec 1) (a : BitVec 4) (o : BitVec 17)
  /-- BRR (R134). -/
  | brr (a : BitVec 4)
  /-- CALLR (R135). -/
  | callr (a : BitVec 4)
  /-- RET (R136). -/
  | ret (a : BitVec 4)
  /-- EXIT (R140). -/
  | exitThread
  /-- NOP (R141). -/
  | nop
  /-- LOOPR (R138). -/
  | loopr (s : BitVec 1) (a : BitVec 4) (b : BitVec 4)
  /-- LDB (R148). -/
  | ldb (d : BitVec 4) (a : BitVec 4) (i : BitVec 18)
  /-- LDBU (R148). -/
  | ldbu (d : BitVec 4) (a : BitVec 4) (i : BitVec 18)
  /-- LDH (R148). -/
  | ldh (d : BitVec 4) (a : BitVec 4) (i : BitVec 18)
  /-- LDHU (R148). -/
  | ldhu (d : BitVec 4) (a : BitVec 4) (i : BitVec 18)
  /-- LDW (R148). -/
  | ldw (d : BitVec 4) (a : BitVec 4) (i : BitVec 18)
  /-- LDWU (R148). -/
  | ldwu (d : BitVec 4) (a : BitVec 4) (i : BitVec 18)
  /-- LDD (R148). -/
  | ldd (d : BitVec 4) (a : BitVec 4) (i : BitVec 18)
  /-- STB (R148). -/
  | stb (s : BitVec 4) (a : BitVec 4) (i : BitVec 18)
  /-- STH (R148). -/
  | sth (s : BitVec 4) (a : BitVec 4) (i : BitVec 18)
  /-- STW (R148). -/
  | stw (s : BitVec 4) (a : BitVec 4) (i : BitVec 18)
  /-- STD (R148). -/
  | std (s : BitVec 4) (a : BitVec 4) (i : BitVec 18)
  /-- LDX (R149). -/
  | ldx (d : BitVec 4) (a : BitVec 4) (b : BitVec 4) (x : BitVec 1) (u : BitVec 1) (w : BitVec 2)
  /-- STX (R149). -/
  | stx (d : BitVec 4) (a : BitVec 4) (b : BitVec 4) (x : BitVec 1) (w : BitVec 2)
  /-- LDA (R150). -/
  | lda (d : BitVec 4) (a : BitVec 4) (s : BitVec 3) (u : BitVec 1) (w : BitVec 2)
  /-- STREL (R151). -/
  | strel (d : BitVec 4) (a : BitVec 4) (s : BitVec 3) (w : BitVec 2)
  /-- AADD (R156). -/
  | aadd (d : BitVec 4) (a : BitVec 4) (b : BitVec 4) (z : BitVec 1)
  /-- AAND (R156). -/
  | aand (d : BitVec 4) (a : BitVec 4) (b : BitVec 4) (z : BitVec 1)
  /-- AOR (R156). -/
  | aor (d : BitVec 4) (a : BitVec 4) (b : BitVec 4) (z : BitVec 1)
  /-- AXOR (R156). -/
  | axor (d : BitVec 4) (a : BitVec 4) (b : BitVec 4) (z : BitVec 1)
  /-- AMIN (R156). -/
  | amin (d : BitVec 4) (a : BitVec 4) (b : BitVec 4) (z : BitVec 1)
  /-- AMAX (R156). -/
  | amax (d : BitVec 4) (a : BitVec 4) (b : BitVec 4) (z : BitVec 1)
  /-- AMINU (R156). -/
  | aminu (d : BitVec 4) (a : BitVec 4) (b : BitVec 4) (z : BitVec 1)
  /-- AMAXU (R156). -/
  | amaxu (d : BitVec 4) (a : BitVec 4) (b : BitVec 4) (z : BitVec 1)
  /-- ASWP (R156). -/
  | aswp (d : BitVec 4) (a : BitVec 4) (b : BitVec 4) (z : BitVec 1)
  /-- ACAS (R156). -/
  | acas (d : BitVec 4) (a : BitVec 4) (b : BitVec 4) (z : BitVec 1)
  /-- AFADD (R157). -/
  | afadd (d : BitVec 4) (a : BitVec 4) (b : BitVec 4)
  /-- AFMIN (R157). -/
  | afmin (d : BitVec 4) (a : BitVec 4) (b : BitVec 4)
  /-- AFMAX (R157). -/
  | afmax (d : BitVec 4) (a : BitVec 4) (b : BitVec 4)
  /-- LDFE (R159). -/
  | ldfe (d : BitVec 4) (a : BitVec 4) (b : BitVec 4)
  /-- LDFF (R159). -/
  | ldff (d : BitVec 4) (a : BitVec 4) (b : BitVec 4)
  /-- STEF (R159). -/
  | stef (d : BitVec 4) (a : BitVec 4) (b : BitVec 4)
  /-- STFF (R159). -/
  | stff (d : BitVec 4) (a : BitVec 4)
  /-- FEPROBE (R159). -/
  | feprobe (d : BitVec 4) (a : BitVec 4)
  /-- FESET (R159). -/
  | feset (a : BitVec 4) (f : BitVec 1)
  /-- PSEND (R163). -/
  | psend (a : BitVec 4) (k : BitVec 2)
  /-- PRECV (R163). -/
  | precv (d : BitVec 4) (k : BitVec 2)
  /-- PPEEK (R163). -/
  | ppeek (d : BitVec 4) (k : BitVec 2)
  /-- PSENDQ (R163). -/
  | psendq (a : BitVec 4) (b : BitVec 4) (k : BitVec 2)
  /-- PRECVQ (R163). -/
  | precvq (d : BitVec 4) (b : BitVec 4) (k : BitVec 2)
  /-- PEND (R152). -/
  | pend
  /-- FENCE (R153). -/
  | fence (s : BitVec 3) (n : BitVec 2)
  /-- BAR (R165). -/
  | bar (s : BitVec 3) (n : BitVec 2)
  /-- WAIT (R166). -/
  | wait (d : BitVec 4)
  /-- EVT (R167). -/
  | evt (a : BitVec 4) (b : BitVec 4) (e : BitVec 3)
  /-- WAITGE (R168). -/
  | waitge (d : BitVec 4) (a : BitVec 4) (b : BitVec 4)
  /-- SLEEP (R166). -/
  | sleep (d : BitVec 4) (a : BitVec 4)
  /-- CKPT (R172). -/
  | ckpt (d : BitVec 4)
  /-- BRK (R173). -/
  | brk (c : BitVec 6)
  /-- TRAP (R173). -/
  | trapCode (c : BitVec 6)
  /-- TSTART (R169). -/
  | tstart (d : BitVec 4) (a : BitVec 4) (b : BitVec 4)
  /-- TREAP (R170). -/
  | treap (d : BitVec 4) (a : BitVec 4) (b : BitVec 4)
  /-- TKILL (R171). -/
  | tkill (d : BitVec 4) (a : BitVec 4)
  /-- MFA (R175). -/
  | mfa (d : BitVec 4) (c : BitVec 6)
  /-- MTA (R175). -/
  | mta (a : BitVec 4) (c : BitVec 6)
  /-- MFS (R174). -/
  | mfs (d : BitVec 4) (n : BitVec 8)
  /-- MTS (R174). -/
  | mts (a : BitVec 4) (n : BitVec 8)
  /-- HINT (R31). -/
  | hint (p : BitVec 26)
  /-- HMOD_ROUND (R78). -/
  | hmodRound (m : BitVec 3)
  /-- HMOD_SR (R78). -/
  | hmodSr
  /-- HMOD_SCOPE (R78). -/
  | hmodScope (s : BitVec 3)
  /-- HMOD_LANES (R78). -/
  | hmodLanes (f : BitVec 5)
  /-- VADD (R183). -/
  | vadd (d : BitVec 4) (a : BitVec 4) (b : BitVec 4)
  /-- VSUB (R183). -/
  | vsub (d : BitVec 4) (a : BitVec 4) (b : BitVec 4)
  /-- VADDS (R183). -/
  | vadds (d : BitVec 4) (a : BitVec 4) (b : BitVec 4)
  /-- VSUBS (R183). -/
  | vsubs (d : BitVec 4) (a : BitVec 4) (b : BitVec 4)
  /-- VMUL (R183). -/
  | vmul (d : BitVec 4) (a : BitVec 4) (b : BitVec 4)
  /-- VMULH (R183). -/
  | vmulh (d : BitVec 4) (a : BitVec 4) (b : BitVec 4)
  /-- VMAC (R185). -/
  | vmac (d : BitVec 4) (a : BitVec 4) (b : BitVec 4)
  /-- VDOT (R187). -/
  | vdot (d : BitVec 4) (a : BitVec 4) (b : BitVec 4)
  /-- VSUM (R187). -/
  | vsum (d : BitVec 4) (a : BitVec 4) (b : BitVec 4)
  /-- VMAXR (R188). -/
  | vmaxr (d : BitVec 4) (a : BitVec 4)
  /-- VMIN (R183). -/
  | vmin (d : BitVec 4) (a : BitVec 4) (b : BitVec 4)
  /-- VMAX (R183). -/
  | vmax (d : BitVec 4) (a : BitVec 4) (b : BitVec 4)
  /-- VABS (R183). -/
  | vabs (d : BitVec 4) (a : BitVec 4)
  /-- VNEG (R183). -/
  | vneg (d : BitVec 4) (a : BitVec 4)
  /-- VAVG (R183). -/
  | vavg (d : BitVec 4) (a : BitVec 4) (b : BitVec 4)
  /-- VSHL (R186). -/
  | vshl (d : BitVec 4) (a : BitVec 4) (b : BitVec 4)
  /-- VSHR (R186). -/
  | vshr (d : BitVec 4) (a : BitVec 4) (b : BitVec 4)
  /-- VSAR (R186). -/
  | vsar (d : BitVec 4) (a : BitVec 4) (b : BitVec 4)
  /-- VCMP (R189). -/
  | vcmp (d : BitVec 4) (a : BitVec 4) (b : BitVec 4) (c : BitVec 3)
  /-- VSEL (R190). -/
  | vsel (d : BitVec 4) (a : BitVec 4) (b : BitVec 4)
  /-- VSPLAT (R190). -/
  | vsplat (d : BitVec 4) (a : BitVec 4)
  /-- VSHUF (R190). -/
  | vshuf (d : BitVec 4) (a : BitVec 4) (b : BitVec 4)
  /-- VPACK (R191). -/
  | vpack (d : BitVec 4) (a : BitVec 4) (b : BitVec 4)
  /-- VUNPKL (R191). -/
  | vunpkl (d : BitVec 4) (a : BitVec 4)
  /-- VUNPKH (R191). -/
  | vunpkh (d : BitVec 4) (a : BitVec 4)
  /-- VCVT (R192). -/
  | vcvt (d : BitVec 4) (a : BitVec 4) (b : BitVec 4) (f : BitVec 6)
  /-- VNZS (R193). -/
  | vnzs (d : BitVec 4) (a : BitVec 4)
  /-- VCOMPR (R194). -/
  | vcompr (d : BitVec 4) (a : BitVec 4) (b : BitVec 4)
  /-- VRELU (R195). -/
  | vrelu (d : BitVec 4) (a : BitVec 4)
  /-- VCLAMP (R195). -/
  | vclamp (d : BitVec 4) (a : BitVec 4) (b : BitVec 4)
  /-- VEXP2 (R196). -/
  | vexp2 (d : BitVec 4) (a : BitVec 4)
  /-- VLOG2 (R196). -/
  | vlog2 (d : BitVec 4) (a : BitVec 4)
  /-- VRCP (R196). -/
  | vrcp (d : BitVec 4) (a : BitVec 4)
  /-- VRSQ (R196). -/
  | vrsq (d : BitVec 4) (a : BitVec 4)
  /-- TLD (R204). -/
  | tld (a : BitVec 4) (t : BitVec 4)
  /-- TST (R204). -/
  | tst (a : BitVec 4) (t : BitVec 4)
  /-- TSETF (R204). -/
  | tsetf (a : BitVec 4) (b : BitVec 4) (t : BitVec 4)
  /-- GEO (R206). -/
  | geo (a : BitVec 4)
  /-- MZERO (R207). -/
  | mzero
  /-- MTILE (R208). -/
  | mtile (u : BitVec 4) (a : BitVec 4) (b : BitVec 4) (t : BitVec 4) (q : BitVec 2)
  /-- MST (R210). -/
  | mst (a : BitVec 4) (b : BitVec 4) (t : BitVec 4)
  /-- MLATCH (R207). -/
  | mlatch (a : BitVec 4) (j : BitVec 2)
  /-- GANG (R214). -/
  | gang (d : BitVec 4) (a : BitVec 4) (b : BitVec 4)
  /-- FEED (R216). -/
  | feed (a : BitVec 4) (b : BitVec 4) (q : BitVec 2)
  /-- FEEDS (R217). -/
  | feeds (c : BitVec 4) (a : BitVec 4) (b : BitVec 4) (t : BitVec 4) (q : BitVec 2)
  /-- DRAIN (R218). -/
  | drainWord (d : BitVec 4) (b : BitVec 4) (q : BitVec 2)
  /-- THAW (R224). -/
  | thawBench (d : BitVec 4) (a : BitVec 4)
  /-- GSTAT (R225). -/
  | gstat (d : BitVec 4) (a : BitVec 4)
  /-- COPY (R235). -/
  | copyElems (d : BitVec 4) (a : BitVec 4) (b : BitVec 4) (t : BitVec 4) (q : BitVec 2)
  /-- COPY2 (R236). -/
  | copy2 (d : BitVec 4) (a : BitVec 4) (b : BitVec 4) (t : BitVec 4) (q : BitVec 2)
  /-- COPYRING (R237). -/
  | copyring (d : BitVec 4) (a : BitVec 4) (b : BitVec 4) (t : BitVec 4)
  /-- RINGADV (R238). -/
  | ringadv (d : BitVec 4)
  /-- GATHER (R240). -/
  | gather (c : BitVec 4) (a : BitVec 4) (b : BitVec 4) (t : BitVec 4) (q : BitVec 2)
  /-- SCATTER (R241). -/
  | scatter (c : BitVec 4) (a : BitVec 4) (b : BitVec 4) (t : BitVec 4) (q : BitVec 2)
  /-- SCATADD (R242). -/
  | scatadd (c : BitVec 4) (a : BitVec 4) (b : BitVec 4) (t : BitVec 4) (q : BitVec 2)
  /-- QJOIN (R243). -/
  | qjoin (a : BitVec 4) (b : BitVec 4)
  /-- CSTAT (R234). -/
  | cstat (d : BitVec 4) (a : BitVec 4)
  /-- PGSTART (R248). -/
  | pgstart (a : BitVec 4) (b : BitVec 4) (t : BitVec 4) (g : BitVec 1)
  /-- PGNEXT (R249). -/
  | pgnext (d : BitVec 4) (a : BitVec 4) (g : BitVec 1)
  /-- PGSAVE (R251). -/
  | pgsave (a : BitVec 4) (g : BitVec 1)
  /-- PGLOAD (R251). -/
  | pgload (a : BitVec 4) (g : BitVec 1)
  /-- PGINV (R252). -/
  | pginv (d : BitVec 4) (a : BitVec 4) (t : BitVec 4)
  /-- DQPUSH (R253). -/
  | dqpush (d : BitVec 4) (a : BitVec 4) (b : BitVec 4)
  /-- DQPOP (R253). -/
  | dqpop (d : BitVec 4)
  /-- DQSPLIT (R253). -/
  | dqsplit (d : BitVec 4)
  /-- DQSTEAL (R254). -/
  | dqsteal (d : BitVec 4) (a : BitVec 4)
  /-- DQCOUNT (R253). -/
  | dqcount (d : BitVec 4)
  /-- TREC (R256). -/
  | trec (c : BitVec 4) (a : BitVec 4) (b : BitVec 4)
  /-- TEND (R261). -/
  | tend (d : BitVec 4)
  /-- TGUARD (R260). -/
  | tguard (a : BitVec 4) (b : BitVec 4)
  /-- TPLAY (R262). -/
  | tplay (d : BitVec 4) (a : BitVec 4) (b : BitVec 4)
  /-- POWER_ON_RESET (R359). -/
  | powerOnReset
  /-- SPILL (R27). -/
  | spill (c : Nat) (t : Nat)
  /-- FILL (R27). -/
  | fill (c : Nat) (t : Nat)
  /-- SCOREBOARD_RETIREMENT (R270). -/
  | scoreboardRetirement (c : Nat)
  /-- TAPE_APPEND (R256). -/
  | tapeAppend (c : Nat)
  /-- REMOTE_REPLY (R142). -/
  | remoteReply (c : Nat) (t : Nat)
  /-- SECTOR_FETCH (R283). -/
  | sectorFetch (c : Nat) (f : Nat)
  /-- READ_SET_INSTALL (R283). -/
  | readSetInstall (c : Nat) (f : Nat)
  /-- SECTOR_DRAIN (R286). -/
  | sectorDrain (c : Nat) (e : Nat)
  /-- DRAIN_ACKNOWLEDGEMENT (R286). -/
  | drainAcknowledgement (c : Nat) (e : Nat)
  /-- LDA_AT_HOME (R150). -/
  | ldaAtHome (c : Nat) (t : Nat)
  /-- STREL_AT_HOME (R151). -/
  | strelAtHome (c : Nat) (t : Nat)
  /-- ATOMIC_AT_HOME (R156). -/
  | atomicAtHome (c : Nat) (t : Nat)
  /-- FE_AT_HOME (R160). -/
  | feAtHome (c : Nat) (t : Nat)
  /-- FE_WITHDRAWAL (R161). -/
  | feWithdrawal (c : Nat) (n : Nat)
  /-- FE_LIMIT_EXPIRY (R159). -/
  | feLimitExpiry (c : Nat) (t : Nat)
  /-- WAITGE_AT_HOME (R168). -/
  | waitgeAtHome (c : Nat) (t : Nat)
  /-- COUNTER_LIMIT_EXPIRY (R168). -/
  | counterLimitExpiry (c : Nat) (t : Nat)
  /-- SLEEP_TIMEOUT (R166). -/
  | sleepTimeout (c : Nat) (t : Nat)
  /-- EVENT_ARRIVAL (R167). -/
  | eventArrival (c : Nat) (t : Nat)
  /-- PORT_ENTRY_ARRIVAL (R164). -/
  | portEntryArrival (c : Nat) (d : Nat)
  /-- ORDER_TOKEN_GRANT (R153). -/
  | orderTokenGrant (c : Nat) (t : Nat)
  /-- BARRIER_EPISODE_COMPLETE (R165). -/
  | barrierEpisodeComplete (b : Nat)
  /-- CKPT_COLLECTIVE (R404). -/
  | ckptCollective (f : Nat)
  /-- GANGER_EXIT_COMPLETE (R22). -/
  | gangerExitComplete (c : Nat)
  /-- ICACHE_LINE_FILL (R271). -/
  | icacheLineFill (c : Nat) (t : Nat)
  /-- TRANSLATION_WALK (R273). -/
  | translationWalk (c : Nat) (t : Nat)
  /-- INVALIDATION (R275). -/
  | invalidation (p : Nat) (c : Nat)
  /-- TRANSLATION_CHANGE_COMPLETE (R275). -/
  | translationChangeComplete (p : Nat)
  /-- SEQUENCER_ACCEPT (R228). -/
  | sequencerAccept (c : Nat)
  /-- K_STEP (R208). -/
  | kStep (c : Nat)
  /-- ENGINE_COMMAND_COMPLETE (R230). -/
  | engineCommandComplete (c : Nat) (q : Nat)
  /-- ENGINE_FAULT (R232). -/
  | engineFault (c : Nat) (q : Nat)
  /-- QJOIN_FENCE_COMPLETE (R243). -/
  | qjoinFenceComplete (c : Nat)
  /-- RING_CHUNK_START (R237). -/
  | ringChunkStart (c : Nat)
  /-- RING_CHUNK_COMPLETE (R312). -/
  | ringChunkComplete (c : Nat)
  /-- FEEDS_WORD_DELIVERY (R217). -/
  | feedsWordDelivery (c : Nat)
  /-- GATHER_LEAD (R314). -/
  | gatherLead (c : Nat)
  /-- GATHER_WINDOW_CLOSE (R314). -/
  | gatherWindowClose (c : Nat)
  /-- STEAL_REQUEST (R254). -/
  | stealRequest (c : Nat) (t : Nat)
  /-- RAMP_CREDIT_REFILL (R301). -/
  | rampCreditRefill (d : Nat)
  /-- LEAVE_GRANT (R301). -/
  | leaveGrant (d : Nat)
  /-- LEAVE_RETURN (R302). -/
  | leaveReturn (d : Nat)
  /-- CLAIM (R215). -/
  | claim (c : Nat) (t : Nat)
  /-- FREEZE (R214). -/
  | freeze (b : Nat)
  /-- LATCH_PULSE (R219). -/
  | latchPulse (c : Nat)
  /-- WS_DATA_PULSE (R219). -/
  | wsDataPulse (c : Nat)
  /-- RS_DATA_PULSE (R220). -/
  | rsDataPulse (c : Nat)
  /-- SCALE_PULSE (R220). -/
  | scalePulse (c : Nat)
  /-- ZERO_POINT_PULSE (R220). -/
  | zeroPointPulse (c : Nat)
  /-- END_PULSE (R220). -/
  | endPulse (c : Nat)
  /-- THAW_RETURN (R221). -/
  | thawReturn (b : Nat)
  /-- DOORBELL_WRITE (R332). -/
  | doorbellWrite (p : Nat) (q : Nat)
  /-- DISPATCH (R336). -/
  | dispatch (p : Nat)
  /-- GANGER_START (R341). -/
  | gangerStart (f : Nat)
  /-- REPLAY_FALLBACK (R350). -/
  | replayFallback (f : Nat)
  /-- CORE_PART_END (R337). -/
  | corePartEnd (c : Nat)
  /-- RETIREMENT (R338). -/
  | retirement (f : Nat)
  /-- DRY_TIMER_EXPIRY (R346). -/
  | dryTimerExpiry (c : Nat)
  /-- CORE_RECAST (R347). -/
  | coreRecast (c : Nat) (r : Nat)
  /-- MIGRATION_SWITCH (R352). -/
  | migrationSwitch (c : Nat)
  /-- MIGRATION_RESUME (R352). -/
  | migrationResume (c : Nat)
  /-- INBOUND_WRITE (R360). -/
  | inboundWrite (port : Nat) (fn : Nat) (bar : Nat) (off : Nat) (bytes : List (BitVec 8))
  /-- PART_SEND (R361). -/
  | partSend (n : Nat)
  /-- PART_ACKNOWLEDGEMENT (R361). -/
  | partAcknowledgement (n : Nat)
  /-- INBOUND_READ (R362). -/
  | inboundRead (port : Nat) (fn : Nat) (bar : Nat) (off : Nat) (len : Nat)
  /-- INBOUND_READ_PERFORM (R362). -/
  | inboundReadPerform (n : Nat)
  /-- PEER_INBOUND (R374). -/
  | peerInbound (p : Nat) (pkg : Nat) (rpart : Nat) (x : Nat) (off : Nat) (len : Nat) (bytes : List (BitVec 8))
  /-- PEER_REPLY_TIMEOUT (R374). -/
  | peerReplyTimeout (c : Nat)
  /-- HAUL_PORT_FAILURE (R371). -/
  | haulPortFailure (i : Nat)
  /-- TELEMETRY_INTERVAL (R384). -/
  | telemetryInterval (p : Nat)
  /-- CHECKPOINT_INTERVAL (R354). -/
  | checkpointInterval (p : Nat)
  /-- TRAP_SERVICE (R391). -/
  | trapService (d : Nat) (n : Nat)
  /-- KILL_MESSAGE (R398). -/
  | killMessage (c : Nat) (x : Nat)
  /-- KILL_SWEEP_END (R399). -/
  | killSweepEnd (c : Nat) (x : Nat)
  /-- KILL_CONFIRMATION (R399). -/
  | killConfirmation (f : Nat)
  /-- ROLLBACK_RESTORE (R408). -/
  | rollbackRestore (f : Nat)
  /-- CHANNEL_RETIREMENT (R413). -/
  | channelRetirement (e : Nat) (d : Nat)
  /-- EDGE_DOWN (R414). -/
  | edgeDown (e : Nat)
  /-- UE_CORE_STATE (R426). -/
  | ueCoreState (c : Nat)
  /-- SCRUB (R425). -/
  | scrub (u : Nat)
  /-- SENSOR_READ (R423). -/
  | sensorRead (d : Nat) (n : Nat) (v : Nat)
  /-- LEASE_RENEWAL (R420). -/
  | leaseRenewal
  /-- LEASE_TAKEOVER (R420). -/
  | leaseTakeover (i : Nat)
  /-- ROW_GATE (R434). -/
  | rowGate (d : Nat) (r : Nat)
  /-- ROW_UNGATE (R434). -/
  | rowUngate (d : Nat) (r : Nat)
  /-- BREAKPOINT_HIT (R439). -/
  | breakpointHit (c : Nat) (t : Nat)
  /-- DEBUG_EVENT_DELIVERY (R440). -/
  | debugEventDelivery (p : Nat)
  /-- REGISTER_WRITE (R364). -/
  | registerWrite (fn : Nat) (off : Nat) (v : BitVec 64)
  /-- HLT_CLEAR (R369). -/
  | hltClear (p : Nat) (q : Nat)
  /-- INV (R365). -/
  | invRange (p : Nat)
  /-- LOAD (R381). -/
  | loadKey (p : Nat)
  /-- REVOKE (R381). -/
  | revoke (p : Nat)
  /-- IMPORT (R365). -/
  | importEntry (p : Nat)
  /-- EXPORT (R372). -/
  | exportRange (p : Nat)
  /-- ATTREQ (R432). -/
  | attreq (p : Nat)
  /-- TACT_KILL (R391). -/
  | tactKill (p : Nat) (n : Nat)
  /-- TACT_REPLAY (R391). -/
  | tactReplay (p : Nat) (n : Nat)
  /-- TACT_PARK (R391). -/
  | tactPark (p : Nat) (n : Nat)
  /-- TACT_FORWARD (R394). -/
  | tactForward (p : Nat) (n : Nat)
  /-- TACT_ROLLBACK (R391). -/
  | tactRollback (p : Nat) (n : Nat)
  /-- MIGRATE (R351). -/
  | migrateCore (p : Nat)
  /-- RECAST (R368). -/
  | recastCmd (p : Nat)
  /-- PLACE (R368). -/
  | placeQueue (p : Nat)
  /-- CREATE (R376). -/
  | createPart
  /-- DESTROY (R376). -/
  | destroyPart
  /-- CKSET (R367). -/
  | ckset
  /-- KILL (R367). -/
  | killCtx
  /-- KRET (R367). -/
  | kret
  /-- VERIFY (R428). -/
  | verifyImage
  /-- ACTIVATE (R428). -/
  | activate
  /-- SVNSET (R429). -/
  | svnset
  /-- OWNADD (R428). -/
  | ownadd
  /-- NONCE (R428). -/
  | freshNonce
  /-- OWNXFER (R430). -/
  | ownxfer
  /-- ATTEST (R432). -/
  | attest
  /-- CAP_WRITE (R434). -/
  | capWrite (d : Nat) (v : BitVec 64)
  /-- GATE_WRITE (R434). -/
  | gateWrite (d : Nat) (v : BitVec 64)
  /-- CLK_WRITE (R434). -/
  | clkWrite (d : Nat) (v : BitVec 64)
  /-- HALT (R436). -/
  | haltSlots (p : Nat)
  /-- HALTC (R436). -/
  | haltc (p : Nat)
  /-- RESUME (R436). -/
  | resumeSlots (p : Nat)
  /-- STEP (R439). -/
  | stepSlot (p : Nat)
  /-- RDREG (R436). -/
  | rdreg (p : Nat)
  /-- WRREG (R436). -/
  | wrreg (p : Nat)
  /-- RDSPR (R436). -/
  | rdspr (p : Nat)
  /-- RDCELL (R436). -/
  | rdcell (p : Nat)
  /-- BRKSET (R436). -/
  | brkset (p : Nat)
  /-- BRKCLR (R436). -/
  | brkclr (p : Nat)
  /-- DEBUG_THAW (R436). -/
  | debugThaw (p : Nat)
  /-- BARRD (R436). -/
  | barrd (p : Nat)
  /-- ILLEGAL_WORD (R87). -/
  | illegalWord (w : BitVec 32)
  /-- EFFECTIVE_PRIORITY_RISE (R336). -/
  | effectivePriorityRise (p : Nat) (q : Nat)
  /-- TRAP_RECORD_DELIVERY (R370). -/
  | trapRecordDelivery (p : Nat)
  /-- LINK_RETRY (R371). -/
  | linkRetry (k : Nat) (loc : Nat) (n : Nat)
  /-- TRANSIT_FLIT (R371). -/
  | transitFlit (pkg : Nat) (flit : Nat)
  /-- MESH_PACKET_DISCARD (R383). -/
  | meshPacketDiscard (c : Nat) (op : Nat) (mask : Nat)
  /-- PCIE_LINK_TRAINING (R357). -/
  | pcieLinkTraining (port : Nat) (rate : Nat) (width : Nat)
  /-- ATOMIC_ENGINE_LINE_WRITEBACK (R280). -/
  | atomicEngineLineWriteback (cl : Nat) (line : Nat)
  deriving DecidableEq, Repr

end Sys2Proof
end

