-- ==== Sys2Proof/Decode.lean ====
section
/-! DEFINITION. The decoder and, after it, the encoder of instruction words, both from the encoding tables of
03 R73 to R86 (majors, op, sub and condition values, the fields that must be zero). Field ranges are checked by
Sys2Proof.WellFormed; a word the decoder refuses or whose fields are out of range is the row ILLEGAL_WORD (R87). -/

namespace Sys2Proof

/-- Why a word is no instruction (R87). -/
inductive DecodeError where
  /-- its major opcode is reserved (R79) -/
  | reservedMajor
  /-- its op, sub, condition or kind is unassigned in its major (R80 to R86, R78) -/
  | unassignedOp
  /-- a field that must be zero is not (R74 to R86) -/
  | fieldNotZero
  /-- fewer than four bytes are left -/
  | truncated
  deriving DecidableEq, Repr

/-- The `n`-bit field of `w` whose lowest bit is bit `lo` (R9). -/
def fld (n w lo : Nat) : BitVec n := BitVec.ofNat n (w / 2 ^ lo)

/-- Major 0x01: the rows its op, sub, condition or kind assigns. -/
def decodeInteger (w : Nat) : Except DecodeError Instr :=
  match w / 64 % 256 with
  | 0 => if w % 64 = 0 then .ok (.add (fld 4 w 22) (fld 4 w 18) (fld 4 w 14)) else .error .fieldNotZero
  | 1 => if w % 64 = 0 then .ok (.addw (fld 4 w 22) (fld 4 w 18) (fld 4 w 14)) else .error .fieldNotZero
  | 2 => if w % 64 = 0 then .ok (.sub (fld 4 w 22) (fld 4 w 18) (fld 4 w 14)) else .error .fieldNotZero
  | 3 => if w % 64 = 0 then .ok (.subw (fld 4 w 22) (fld 4 w 18) (fld 4 w 14)) else .error .fieldNotZero
  | 4 => if w % 64 = 0 then .ok (.mul (fld 4 w 22) (fld 4 w 18) (fld 4 w 14)) else .error .fieldNotZero
  | 5 => if w % 64 = 0 then .ok (.mulw (fld 4 w 22) (fld 4 w 18) (fld 4 w 14)) else .error .fieldNotZero
  | 6 => if w % 64 = 0 then .ok (.mulh (fld 4 w 22) (fld 4 w 18) (fld 4 w 14)) else .error .fieldNotZero
  | 7 => if w % 64 = 0 then .ok (.mulhu (fld 4 w 22) (fld 4 w 18) (fld 4 w 14)) else .error .fieldNotZero
  | 8 => if w % 64 = 0 then .ok (.div (fld 4 w 22) (fld 4 w 18) (fld 4 w 14)) else .error .fieldNotZero
  | 9 => if w % 64 = 0 then .ok (.divu (fld 4 w 22) (fld 4 w 18) (fld 4 w 14)) else .error .fieldNotZero
  | 10 => if w % 64 = 0 then .ok (.rem (fld 4 w 22) (fld 4 w 18) (fld 4 w 14)) else .error .fieldNotZero
  | 11 => if w % 64 = 0 then .ok (.remu (fld 4 w 22) (fld 4 w 18) (fld 4 w 14)) else .error .fieldNotZero
  | 12 => if w % 64 = 0 then .ok (.andr (fld 4 w 22) (fld 4 w 18) (fld 4 w 14)) else .error .fieldNotZero
  | 13 => if w % 64 = 0 then .ok (.orr (fld 4 w 22) (fld 4 w 18) (fld 4 w 14)) else .error .fieldNotZero
  | 14 => if w % 64 = 0 then .ok (.xorr (fld 4 w 22) (fld 4 w 18) (fld 4 w 14)) else .error .fieldNotZero
  | 15 => if w % 64 = 0 then .ok (.andn (fld 4 w 22) (fld 4 w 18) (fld 4 w 14)) else .error .fieldNotZero
  | 16 => if w % 64 = 0 then .ok (.orn (fld 4 w 22) (fld 4 w 18) (fld 4 w 14)) else .error .fieldNotZero
  | 17 => if w % 64 = 0 then .ok (.shl (fld 4 w 22) (fld 4 w 18) (fld 4 w 14)) else .error .fieldNotZero
  | 18 => if w % 64 = 0 then .ok (.shr (fld 4 w 22) (fld 4 w 18) (fld 4 w 14)) else .error .fieldNotZero
  | 19 => if w % 64 = 0 then .ok (.sar (fld 4 w 22) (fld 4 w 18) (fld 4 w 14)) else .error .fieldNotZero
  | 20 => if w % 64 = 0 then .ok (.rol (fld 4 w 22) (fld 4 w 18) (fld 4 w 14)) else .error .fieldNotZero
  | 21 => if w % 64 = 0 then .ok (.shlw (fld 4 w 22) (fld 4 w 18) (fld 4 w 14)) else .error .fieldNotZero
  | 22 => if w % 64 = 0 then .ok (.shrw (fld 4 w 22) (fld 4 w 18) (fld 4 w 14)) else .error .fieldNotZero
  | 23 => if w % 64 = 0 then .ok (.sarw (fld 4 w 22) (fld 4 w 18) (fld 4 w 14)) else .error .fieldNotZero
  | 24 => if w % 64 = 0 then .ok (.minS (fld 4 w 22) (fld 4 w 18) (fld 4 w 14)) else .error .fieldNotZero
  | 25 => if w % 64 = 0 then .ok (.maxS (fld 4 w 22) (fld 4 w 18) (fld 4 w 14)) else .error .fieldNotZero
  | 26 => if w % 64 = 0 then .ok (.minu (fld 4 w 22) (fld 4 w 18) (fld 4 w 14)) else .error .fieldNotZero
  | 27 => if w % 64 = 0 then .ok (.maxu (fld 4 w 22) (fld 4 w 18) (fld 4 w 14)) else .error .fieldNotZero
  | 28 => if w % 64 = 0 ∧ w / 16384 % 16 = 0 then .ok (.abs (fld 4 w 22) (fld 4 w 18)) else .error .fieldNotZero
  | 29 => if w % 64 = 0 ∧ w / 16384 % 16 = 0 then .ok (.clz (fld 4 w 22) (fld 4 w 18)) else .error .fieldNotZero
  | 30 => if w % 64 = 0 ∧ w / 16384 % 16 = 0 then .ok (.ctz (fld 4 w 22) (fld 4 w 18)) else .error .fieldNotZero
  | 31 => if w % 64 = 0 ∧ w / 16384 % 16 = 0 then .ok (.popc (fld 4 w 22) (fld 4 w 18)) else .error .fieldNotZero
  | 32 => if w % 64 = 0 ∧ w / 16384 % 16 = 0 then .ok (.brev (fld 4 w 22) (fld 4 w 18)) else .error .fieldNotZero
  | 33 => if w % 64 = 0 ∧ w / 16384 % 16 = 0 then .ok (.bswap (fld 4 w 22) (fld 4 w 18)) else .error .fieldNotZero
  | 34 => if w / 16384 % 16 = 0 then .ok (.sext (fld 4 w 22) (fld 4 w 18) (fld 6 w 0)) else .error .fieldNotZero
  | 35 => if w / 16384 % 16 = 0 then .ok (.zext (fld 4 w 22) (fld 4 w 18) (fld 6 w 0)) else .error .fieldNotZero
  | 36 => if w % 64 = 0 then .ok (.extr (fld 4 w 22) (fld 4 w 18) (fld 4 w 14)) else .error .fieldNotZero
  | 37 => if w % 64 = 0 then .ok (.insr (fld 4 w 22) (fld 4 w 18) (fld 4 w 14)) else .error .fieldNotZero
  | 38 => if w % 64 = 0 then .ok (.slt (fld 4 w 22) (fld 4 w 18) (fld 4 w 14)) else .error .fieldNotZero
  | 39 => if w % 64 = 0 then .ok (.sltu (fld 4 w 22) (fld 4 w 18) (fld 4 w 14)) else .error .fieldNotZero
  | 40 => if w % 64 = 0 then .ok (.seq (fld 4 w 22) (fld 4 w 18) (fld 4 w 14)) else .error .fieldNotZero
  | 41 => if w % 64 = 0 then .ok (.sne (fld 4 w 22) (fld 4 w 18) (fld 4 w 14)) else .error .fieldNotZero
  | 42 => if w / 4 % 16 = 0 then .ok (.lea (fld 4 w 22) (fld 4 w 18) (fld 4 w 14) (fld 2 w 0)) else .error .fieldNotZero
  | _ => .error .unassignedOp

/-- Major 0x0F: the rows its op, sub, condition or kind assigns. -/
def decodeCompareSkip (w : Nat) : Except DecodeError Instr :=
  match w / 4194304 % 16 * 2 + w / 131072 % 2 with
  | 0 => if w / 4 % 2048 = 0 then .ok (.skeqReg (fld 4 w 18) (fld 4 w 13) (fld 2 w 0)) else .error .fieldNotZero
  | 1 => .ok (.skeqImm (fld 4 w 18) (fld 15 w 2) (fld 2 w 0))
  | 2 => if w / 4 % 2048 = 0 then .ok (.skneReg (fld 4 w 18) (fld 4 w 13) (fld 2 w 0)) else .error .fieldNotZero
  | 3 => .ok (.skneImm (fld 4 w 18) (fld 15 w 2) (fld 2 w 0))
  | 4 => if w / 4 % 2048 = 0 then .ok (.skltReg (fld 4 w 18) (fld 4 w 13) (fld 2 w 0)) else .error .fieldNotZero
  | 5 => .ok (.skltImm (fld 4 w 18) (fld 15 w 2) (fld 2 w 0))
  | 6 => if w / 4 % 2048 = 0 then .ok (.skgeReg (fld 4 w 18) (fld 4 w 13) (fld 2 w 0)) else .error .fieldNotZero
  | 7 => .ok (.skgeImm (fld 4 w 18) (fld 15 w 2) (fld 2 w 0))
  | 8 => if w / 4 % 2048 = 0 then .ok (.skltuReg (fld 4 w 18) (fld 4 w 13) (fld 2 w 0)) else .error .fieldNotZero
  | 9 => .ok (.skltuImm (fld 4 w 18) (fld 15 w 2) (fld 2 w 0))
  | 10 => if w / 4 % 2048 = 0 then .ok (.skgeuReg (fld 4 w 18) (fld 4 w 13) (fld 2 w 0)) else .error .fieldNotZero
  | 11 => .ok (.skgeuImm (fld 4 w 18) (fld 15 w 2) (fld 2 w 0))
  | 12 => if w / 4 % 2048 = 0 then .ok (.skbsReg (fld 4 w 18) (fld 4 w 13) (fld 2 w 0)) else .error .fieldNotZero
  | 13 => if w / 256 % 512 = 0 then .ok (.skbsImm (fld 4 w 18) (fld 6 w 2) (fld 2 w 0)) else .error .fieldNotZero
  | 14 => if w / 4 % 2048 = 0 then .ok (.skbcReg (fld 4 w 18) (fld 4 w 13) (fld 2 w 0)) else .error .fieldNotZero
  | 15 => if w / 256 % 512 = 0 then .ok (.skbcImm (fld 4 w 18) (fld 6 w 2) (fld 2 w 0)) else .error .fieldNotZero
  | 16 => if w / 4 % 2048 = 0 then .ok (.skfeq (fld 4 w 18) (fld 4 w 13) (fld 2 w 0)) else .error .fieldNotZero
  | 18 => if w / 4 % 2048 = 0 then .ok (.skflt (fld 4 w 18) (fld 4 w 13) (fld 2 w 0)) else .error .fieldNotZero
  | 20 => if w / 4 % 2048 = 0 then .ok (.skfle (fld 4 w 18) (fld 4 w 13) (fld 2 w 0)) else .error .fieldNotZero
  | 22 => if w / 4 % 2048 = 0 then .ok (.skfun (fld 4 w 18) (fld 4 w 13) (fld 2 w 0)) else .error .fieldNotZero
  | _ => .error .unassignedOp

/-- Major 0x10: the rows its op, sub, condition or kind assigns. -/
def decodeFloat (w : Nat) : Except DecodeError Instr :=
  match w / 64 % 256 with
  | 0 => if w % 64 = 0 then .ok (.fadd (fld 4 w 22) (fld 4 w 18) (fld 4 w 14)) else .error .fieldNotZero
  | 1 => if w % 64 = 0 then .ok (.fsub (fld 4 w 22) (fld 4 w 18) (fld 4 w 14)) else .error .fieldNotZero
  | 2 => if w % 64 = 0 then .ok (.fmul (fld 4 w 22) (fld 4 w 18) (fld 4 w 14)) else .error .fieldNotZero
  | 3 => if w / 16 % 4 = 0 then .ok (.fma (fld 4 w 22) (fld 4 w 18) (fld 4 w 14) (fld 4 w 0)) else .error .fieldNotZero
  | 4 => if w / 16 % 4 = 0 then .ok (.fms (fld 4 w 22) (fld 4 w 18) (fld 4 w 14) (fld 4 w 0)) else .error .fieldNotZero
  | 5 => if w / 16 % 4 = 0 then .ok (.fnma (fld 4 w 22) (fld 4 w 18) (fld 4 w 14) (fld 4 w 0)) else .error .fieldNotZero
  | 6 => if w % 64 = 0 then .ok (.fdiv (fld 4 w 22) (fld 4 w 18) (fld 4 w 14)) else .error .fieldNotZero
  | 7 => if w % 64 = 0 ∧ w / 16384 % 16 = 0 then .ok (.fsqrt (fld 4 w 22) (fld 4 w 18)) else .error .fieldNotZero
  | 8 => if w % 64 = 0 then .ok (.fmin (fld 4 w 22) (fld 4 w 18) (fld 4 w 14)) else .error .fieldNotZero
  | 9 => if w % 64 = 0 then .ok (.fmax (fld 4 w 22) (fld 4 w 18) (fld 4 w 14)) else .error .fieldNotZero
  | 10 => if w % 64 = 0 ∧ w / 16384 % 16 = 0 then .ok (.fabs (fld 4 w 22) (fld 4 w 18)) else .error .fieldNotZero
  | 11 => if w % 64 = 0 ∧ w / 16384 % 16 = 0 then .ok (.fneg (fld 4 w 22) (fld 4 w 18)) else .error .fieldNotZero
  | 12 => if w % 64 = 0 then .ok (.fsgn (fld 4 w 22) (fld 4 w 18) (fld 4 w 14)) else .error .fieldNotZero
  | 13 => if w % 64 = 0 ∧ w / 16384 % 16 = 0 then .ok (.fclass (fld 4 w 22) (fld 4 w 18)) else .error .fieldNotZero
  | 14 => if w / 16384 % 16 = 0 then .ok (.fcvtfi (fld 4 w 22) (fld 4 w 18) (fld 6 w 0)) else .error .fieldNotZero
  | 15 => if w / 16384 % 16 = 0 then .ok (.fcvtif (fld 4 w 22) (fld 4 w 18) (fld 6 w 0)) else .error .fieldNotZero
  | 16 => if w / 16384 % 16 = 0 then .ok (.fcvth (fld 4 w 22) (fld 4 w 18) (fld 1 w 5) (fld 5 w 0)) else .error .fieldNotZero
  | _ => .error .unassignedOp

/-- Major 0x13: the rows its op, sub, condition or kind assigns. -/
def decodeBranch (w : Nat) : Except DecodeError Instr :=
  match w / 4194304 % 16 with
  | 0 => .ok (.bz (fld 4 w 18) (fld 18 w 0))
  | 1 => .ok (.bnz (fld 4 w 18) (fld 18 w 0))
  | _ => .error .unassignedOp

/-- Major 0x15: the rows its op, sub, condition or kind assigns. -/
def decodeControl (w : Nat) : Except DecodeError Instr :=
  match w / 64 % 256 with
  | 0 => if w % 64 = 0 ∧ w / 16384 % 16 = 0 ∧ w / 4194304 % 16 = 0 then .ok (.brr (fld 4 w 18)) else .error .fieldNotZero
  | 1 => if w % 64 = 0 ∧ w / 16384 % 16 = 0 ∧ w / 4194304 % 16 = 0 then .ok (.callr (fld 4 w 18)) else .error .fieldNotZero
  | 2 => if w % 64 = 0 ∧ w / 16384 % 16 = 0 ∧ w / 4194304 % 16 = 0 then .ok (.ret (fld 4 w 18)) else .error .fieldNotZero
  | 3 => if w % 64 = 0 ∧ w / 16384 % 4096 = 0 then .ok .exitThread else .error .fieldNotZero
  | 4 => if w % 64 = 0 ∧ w / 16384 % 4096 = 0 then .ok .nop else .error .fieldNotZero
  | 5 => if w % 64 = 0 ∧ w / 8388608 % 8 = 0 then .ok (.loopr (fld 1 w 22) (fld 4 w 18) (fld 4 w 14)) else .error .fieldNotZero
  | _ => .error .unassignedOp

/-- Major 0x21: the rows its op, sub, condition or kind assigns. -/
def decodeIndexed (w : Nat) : Except DecodeError Instr :=
  match w / 64 % 256 with
  | 0 => if w / 16 % 4 = 0 then .ok (.ldx (fld 4 w 22) (fld 4 w 18) (fld 4 w 14) (fld 1 w 3) (fld 1 w 2) (fld 2 w 0)) else .error .fieldNotZero
  | 1 => if w / 4 % 2 = 0 ∧ w / 16 % 4 = 0 then .ok (.stx (fld 4 w 22) (fld 4 w 18) (fld 4 w 14) (fld 1 w 3) (fld 2 w 0)) else .error .fieldNotZero
  | 2 => if w / 16384 % 16 = 0 then .ok (.lda (fld 4 w 22) (fld 4 w 18) (fld 3 w 3) (fld 1 w 2) (fld 2 w 0)) else .error .fieldNotZero
  | 3 => if w / 4 % 2 = 0 ∧ w / 16384 % 16 = 0 then .ok (.strel (fld 4 w 22) (fld 4 w 18) (fld 3 w 3) (fld 2 w 0)) else .error .fieldNotZero
  | _ => .error .unassignedOp

/-- Major 0x22: the rows its op, sub, condition or kind assigns. -/
def decodeAtomic (w : Nat) : Except DecodeError Instr :=
  match w / 64 % 256 with
  | 0 => if w / 2 % 32 = 0 then .ok (.aadd (fld 4 w 22) (fld 4 w 18) (fld 4 w 14) (fld 1 w 0)) else .error .fieldNotZero
  | 1 => if w / 2 % 32 = 0 then .ok (.aand (fld 4 w 22) (fld 4 w 18) (fld 4 w 14) (fld 1 w 0)) else .error .fieldNotZero
  | 2 => if w / 2 % 32 = 0 then .ok (.aor (fld 4 w 22) (fld 4 w 18) (fld 4 w 14) (fld 1 w 0)) else .error .fieldNotZero
  | 3 => if w / 2 % 32 = 0 then .ok (.axor (fld 4 w 22) (fld 4 w 18) (fld 4 w 14) (fld 1 w 0)) else .error .fieldNotZero
  | 4 => if w / 2 % 32 = 0 then .ok (.amin (fld 4 w 22) (fld 4 w 18) (fld 4 w 14) (fld 1 w 0)) else .error .fieldNotZero
  | 5 => if w / 2 % 32 = 0 then .ok (.amax (fld 4 w 22) (fld 4 w 18) (fld 4 w 14) (fld 1 w 0)) else .error .fieldNotZero
  | 6 => if w / 2 % 32 = 0 then .ok (.aminu (fld 4 w 22) (fld 4 w 18) (fld 4 w 14) (fld 1 w 0)) else .error .fieldNotZero
  | 7 => if w / 2 % 32 = 0 then .ok (.amaxu (fld 4 w 22) (fld 4 w 18) (fld 4 w 14) (fld 1 w 0)) else .error .fieldNotZero
  | 8 => if w / 2 % 32 = 0 then .ok (.aswp (fld 4 w 22) (fld 4 w 18) (fld 4 w 14) (fld 1 w 0)) else .error .fieldNotZero
  | 9 => if w / 2 % 32 = 0 then .ok (.acas (fld 4 w 22) (fld 4 w 18) (fld 4 w 14) (fld 1 w 0)) else .error .fieldNotZero
  | 10 => if w % 64 = 0 then .ok (.afadd (fld 4 w 22) (fld 4 w 18) (fld 4 w 14)) else .error .fieldNotZero
  | 11 => if w % 64 = 0 then .ok (.afmin (fld 4 w 22) (fld 4 w 18) (fld 4 w 14)) else .error .fieldNotZero
  | 12 => if w % 64 = 0 then .ok (.afmax (fld 4 w 22) (fld 4 w 18) (fld 4 w 14)) else .error .fieldNotZero
  | _ => .error .unassignedOp

/-- Major 0x23: the rows its op, sub, condition or kind assigns. -/
def decodeFullEmpty (w : Nat) : Except DecodeError Instr :=
  match w / 64 % 256 with
  | 0 => if w % 64 = 0 then .ok (.ldfe (fld 4 w 22) (fld 4 w 18) (fld 4 w 14)) else .error .fieldNotZero
  | 1 => if w % 64 = 0 then .ok (.ldff (fld 4 w 22) (fld 4 w 18) (fld 4 w 14)) else .error .fieldNotZero
  | 2 => if w % 64 = 0 then .ok (.stef (fld 4 w 22) (fld 4 w 18) (fld 4 w 14)) else .error .fieldNotZero
  | 3 => if w % 64 = 0 ∧ w / 16384 % 16 = 0 then .ok (.stff (fld 4 w 22) (fld 4 w 18)) else .error .fieldNotZero
  | 4 => if w % 64 = 0 ∧ w / 16384 % 16 = 0 then .ok (.feprobe (fld 4 w 22) (fld 4 w 18)) else .error .fieldNotZero
  | 5 => if w / 2 % 32 = 0 ∧ w / 16384 % 16 = 0 ∧ w / 4194304 % 16 = 0 then .ok (.feset (fld 4 w 18) (fld 1 w 0)) else .error .fieldNotZero
  | _ => .error .unassignedOp

/-- Major 0x24: the rows its op, sub, condition or kind assigns. -/
def decodePort (w : Nat) : Except DecodeError Instr :=
  match w / 64 % 256 with
  | 0 => if w / 4 % 16 = 0 ∧ w / 16384 % 16 = 0 ∧ w / 4194304 % 16 = 0 then .ok (.psend (fld 4 w 18) (fld 2 w 0)) else .error .fieldNotZero
  | 1 => if w / 4 % 16 = 0 ∧ w / 16384 % 256 = 0 then .ok (.precv (fld 4 w 22) (fld 2 w 0)) else .error .fieldNotZero
  | 2 => if w / 4 % 16 = 0 ∧ w / 16384 % 256 = 0 then .ok (.ppeek (fld 4 w 22) (fld 2 w 0)) else .error .fieldNotZero
  | 3 => if w / 4 % 16 = 0 ∧ w / 4194304 % 16 = 0 then .ok (.psendq (fld 4 w 18) (fld 4 w 14) (fld 2 w 0)) else .error .fieldNotZero
  | 4 => if w / 4 % 16 = 0 ∧ w / 262144 % 16 = 0 then .ok (.precvq (fld 4 w 22) (fld 4 w 14) (fld 2 w 0)) else .error .fieldNotZero
  | _ => .error .unassignedOp

/-- Major 0x25: the rows its op, sub, condition or kind assigns. -/
def decodeSync (w : Nat) : Except DecodeError Instr :=
  match w / 64 % 256 with
  | 0 => if w % 64 = 0 ∧ w / 16384 % 4096 = 0 then .ok .pend else .error .fieldNotZero
  | 1 => if w / 32 % 2 = 0 ∧ w / 16384 % 4096 = 0 then .ok (.fence (fld 3 w 2) (fld 2 w 0)) else .error .fieldNotZero
  | 2 => if w / 32 % 2 = 0 ∧ w / 16384 % 4096 = 0 then .ok (.bar (fld 3 w 2) (fld 2 w 0)) else .error .fieldNotZero
  | 3 => if w % 64 = 0 ∧ w / 16384 % 256 = 0 then .ok (.wait (fld 4 w 22)) else .error .fieldNotZero
  | 4 => if w / 8 % 8 = 0 ∧ w / 4194304 % 16 = 0 then .ok (.evt (fld 4 w 18) (fld 4 w 14) (fld 3 w 0)) else .error .fieldNotZero
  | 5 => if w % 64 = 0 then .ok (.waitge (fld 4 w 22) (fld 4 w 18) (fld 4 w 14)) else .error .fieldNotZero
  | 6 => if w % 64 = 0 ∧ w / 16384 % 16 = 0 then .ok (.sleep (fld 4 w 22) (fld 4 w 18)) else .error .fieldNotZero
  | 7 => if w % 64 = 0 ∧ w / 16384 % 256 = 0 then .ok (.ckpt (fld 4 w 22)) else .error .fieldNotZero
  | 8 => if w / 16384 % 4096 = 0 then .ok (.brk (fld 6 w 0)) else .error .fieldNotZero
  | 9 => if w / 16384 % 4096 = 0 then .ok (.trapCode (fld 6 w 0)) else .error .fieldNotZero
  | _ => .error .unassignedOp

/-- Major 0x26: the rows its op, sub, condition or kind assigns. -/
def decodeSystem (w : Nat) : Except DecodeError Instr :=
  match w / 64 % 256 with
  | 0 => if w % 64 = 0 then .ok (.tstart (fld 4 w 22) (fld 4 w 18) (fld 4 w 14)) else .error .fieldNotZero
  | 1 => if w % 64 = 0 then .ok (.treap (fld 4 w 22) (fld 4 w 18) (fld 4 w 14)) else .error .fieldNotZero
  | 2 => if w % 64 = 0 ∧ w / 16384 % 16 = 0 then .ok (.tkill (fld 4 w 22) (fld 4 w 18)) else .error .fieldNotZero
  | 3 => if w / 16384 % 256 = 0 then .ok (.mfa (fld 4 w 22) (fld 6 w 0)) else .error .fieldNotZero
  | 4 => if w / 16384 % 16 = 0 ∧ w / 4194304 % 16 = 0 then .ok (.mta (fld 4 w 18) (fld 6 w 0)) else .error .fieldNotZero
  | _ => .error .unassignedOp

/-- Major 0x2A: the rows its op, sub, condition or kind assigns. -/
def decodeModifier (w : Nat) : Except DecodeError Instr :=
  match w / 16777216 % 4 with
  | 0 => if w / 8 % 2097152 = 0 then .ok (.hmodRound (fld 3 w 0)) else .error .fieldNotZero
  | 1 => if w % 16777216 = 0 then .ok .hmodSr else .error .fieldNotZero
  | 2 => if w / 8 % 2097152 = 0 then .ok (.hmodScope (fld 3 w 0)) else .error .fieldNotZero
  | 3 => if w / 32 % 524288 = 0 then .ok (.hmodLanes (fld 5 w 0)) else .error .fieldNotZero
  | _ => .error .unassignedOp

/-- Major 0x2B: the rows its op, sub, condition or kind assigns. -/
def decodeVector (w : Nat) : Except DecodeError Instr :=
  match w / 64 % 256 with
  | 0 => if w % 64 = 0 then .ok (.vadd (fld 4 w 22) (fld 4 w 18) (fld 4 w 14)) else .error .fieldNotZero
  | 1 => if w % 64 = 0 then .ok (.vsub (fld 4 w 22) (fld 4 w 18) (fld 4 w 14)) else .error .fieldNotZero
  | 2 => if w % 64 = 0 then .ok (.vadds (fld 4 w 22) (fld 4 w 18) (fld 4 w 14)) else .error .fieldNotZero
  | 3 => if w % 64 = 0 then .ok (.vsubs (fld 4 w 22) (fld 4 w 18) (fld 4 w 14)) else .error .fieldNotZero
  | 4 => if w % 64 = 0 then .ok (.vmul (fld 4 w 22) (fld 4 w 18) (fld 4 w 14)) else .error .fieldNotZero
  | 5 => if w % 64 = 0 then .ok (.vmulh (fld 4 w 22) (fld 4 w 18) (fld 4 w 14)) else .error .fieldNotZero
  | 6 => if w % 64 = 0 then .ok (.vmac (fld 4 w 22) (fld 4 w 18) (fld 4 w 14)) else .error .fieldNotZero
  | 7 => if w % 64 = 0 then .ok (.vdot (fld 4 w 22) (fld 4 w 18) (fld 4 w 14)) else .error .fieldNotZero
  | 8 => if w % 64 = 0 then .ok (.vsum (fld 4 w 22) (fld 4 w 18) (fld 4 w 14)) else .error .fieldNotZero
  | 9 => if w % 64 = 0 ∧ w / 16384 % 16 = 0 then .ok (.vmaxr (fld 4 w 22) (fld 4 w 18)) else .error .fieldNotZero
  | 10 => if w % 64 = 0 then .ok (.vmin (fld 4 w 22) (fld 4 w 18) (fld 4 w 14)) else .error .fieldNotZero
  | 11 => if w % 64 = 0 then .ok (.vmax (fld 4 w 22) (fld 4 w 18) (fld 4 w 14)) else .error .fieldNotZero
  | 12 => if w % 64 = 0 ∧ w / 16384 % 16 = 0 then .ok (.vabs (fld 4 w 22) (fld 4 w 18)) else .error .fieldNotZero
  | 13 => if w % 64 = 0 ∧ w / 16384 % 16 = 0 then .ok (.vneg (fld 4 w 22) (fld 4 w 18)) else .error .fieldNotZero
  | 14 => if w % 64 = 0 then .ok (.vavg (fld 4 w 22) (fld 4 w 18) (fld 4 w 14)) else .error .fieldNotZero
  | 15 => if w % 64 = 0 then .ok (.vshl (fld 4 w 22) (fld 4 w 18) (fld 4 w 14)) else .error .fieldNotZero
  | 16 => if w % 64 = 0 then .ok (.vshr (fld 4 w 22) (fld 4 w 18) (fld 4 w 14)) else .error .fieldNotZero
  | 17 => if w % 64 = 0 then .ok (.vsar (fld 4 w 22) (fld 4 w 18) (fld 4 w 14)) else .error .fieldNotZero
  | 18 => if w / 8 % 8 = 0 then .ok (.vcmp (fld 4 w 22) (fld 4 w 18) (fld 4 w 14) (fld 3 w 0)) else .error .fieldNotZero
  | 19 => if w % 64 = 0 then .ok (.vsel (fld 4 w 22) (fld 4 w 18) (fld 4 w 14)) else .error .fieldNotZero
  | 20 => if w % 64 = 0 ∧ w / 16384 % 16 = 0 then .ok (.vsplat (fld 4 w 22) (fld 4 w 18)) else .error .fieldNotZero
  | 21 => if w % 64 = 0 then .ok (.vshuf (fld 4 w 22) (fld 4 w 18) (fld 4 w 14)) else .error .fieldNotZero
  | 22 => if w % 64 = 0 then .ok (.vpack (fld 4 w 22) (fld 4 w 18) (fld 4 w 14)) else .error .fieldNotZero
  | 23 => if w % 64 = 0 ∧ w / 16384 % 16 = 0 then .ok (.vunpkl (fld 4 w 22) (fld 4 w 18)) else .error .fieldNotZero
  | 24 => if w % 64 = 0 ∧ w / 16384 % 16 = 0 then .ok (.vunpkh (fld 4 w 22) (fld 4 w 18)) else .error .fieldNotZero
  | 25 => .ok (.vcvt (fld 4 w 22) (fld 4 w 18) (fld 4 w 14) (fld 6 w 0))
  | 26 => if w % 64 = 0 ∧ w / 16384 % 16 = 0 then .ok (.vnzs (fld 4 w 22) (fld 4 w 18)) else .error .fieldNotZero
  | 27 => if w % 64 = 0 then .ok (.vcompr (fld 4 w 22) (fld 4 w 18) (fld 4 w 14)) else .error .fieldNotZero
  | 28 => if w % 64 = 0 ∧ w / 16384 % 16 = 0 then .ok (.vrelu (fld 4 w 22) (fld 4 w 18)) else .error .fieldNotZero
  | 29 => if w % 64 = 0 then .ok (.vclamp (fld 4 w 22) (fld 4 w 18) (fld 4 w 14)) else .error .fieldNotZero
  | 30 => if w % 64 = 0 ∧ w / 16384 % 16 = 0 then .ok (.vexp2 (fld 4 w 22) (fld 4 w 18)) else .error .fieldNotZero
  | 31 => if w % 64 = 0 ∧ w / 16384 % 16 = 0 then .ok (.vlog2 (fld 4 w 22) (fld 4 w 18)) else .error .fieldNotZero
  | 32 => if w % 64 = 0 ∧ w / 16384 % 16 = 0 then .ok (.vrcp (fld 4 w 22) (fld 4 w 18)) else .error .fieldNotZero
  | 33 => if w % 64 = 0 ∧ w / 16384 % 16 = 0 then .ok (.vrsq (fld 4 w 22) (fld 4 w 18)) else .error .fieldNotZero
  | _ => .error .unassignedOp

/-- Major 0x2C: the rows its op, sub, condition or kind assigns. -/
def decodeTensor (w : Nat) : Except DecodeError Instr :=
  match w / 256 % 64 with
  | 0 => if w % 16 = 0 ∧ w / 16384 % 16 = 0 ∧ w / 4194304 % 16 = 0 then .ok (.tld (fld 4 w 18) (fld 4 w 4)) else .error .fieldNotZero
  | 1 => if w % 16 = 0 ∧ w / 16384 % 16 = 0 ∧ w / 4194304 % 16 = 0 then .ok (.tst (fld 4 w 18) (fld 4 w 4)) else .error .fieldNotZero
  | 2 => if w % 16 = 0 ∧ w / 4194304 % 16 = 0 then .ok (.tsetf (fld 4 w 18) (fld 4 w 14) (fld 4 w 4)) else .error .fieldNotZero
  | 3 => if w % 256 = 0 ∧ w / 16384 % 16 = 0 ∧ w / 4194304 % 16 = 0 then .ok (.geo (fld 4 w 18)) else .error .fieldNotZero
  | 4 => if w % 256 = 0 ∧ w / 16384 % 4096 = 0 then .ok .mzero else .error .fieldNotZero
  | 5 => if w % 4 = 0 then .ok (.mtile (fld 4 w 22) (fld 4 w 18) (fld 4 w 14) (fld 4 w 4) (fld 2 w 2)) else .error .fieldNotZero
  | 6 => if w % 16 = 0 ∧ w / 4194304 % 16 = 0 then .ok (.mst (fld 4 w 18) (fld 4 w 14) (fld 4 w 4)) else .error .fieldNotZero
  | 7 => if w % 4 = 0 ∧ w / 16 % 16 = 0 ∧ w / 16384 % 16 = 0 ∧ w / 4194304 % 16 = 0 then .ok (.mlatch (fld 4 w 18) (fld 2 w 2)) else .error .fieldNotZero
  | 8 => if w % 256 = 0 then .ok (.gang (fld 4 w 22) (fld 4 w 18) (fld 4 w 14)) else .error .fieldNotZero
  | 9 => if w % 4 = 0 ∧ w / 16 % 16 = 0 ∧ w / 4194304 % 16 = 0 then .ok (.feed (fld 4 w 18) (fld 4 w 14) (fld 2 w 2)) else .error .fieldNotZero
  | 10 => if w % 4 = 0 then .ok (.feeds (fld 4 w 22) (fld 4 w 18) (fld 4 w 14) (fld 4 w 4) (fld 2 w 2)) else .error .fieldNotZero
  | 11 => if w % 4 = 0 ∧ w / 16 % 16 = 0 ∧ w / 262144 % 16 = 0 then .ok (.drainWord (fld 4 w 22) (fld 4 w 14) (fld 2 w 2)) else .error .fieldNotZero
  | 12 => if w % 256 = 0 ∧ w / 16384 % 16 = 0 then .ok (.thawBench (fld 4 w 22) (fld 4 w 18)) else .error .fieldNotZero
  | 13 => if w % 256 = 0 ∧ w / 16384 % 16 = 0 then .ok (.gstat (fld 4 w 22) (fld 4 w 18)) else .error .fieldNotZero
  | _ => .error .unassignedOp

/-- Major 0x2D: the rows its op, sub, condition or kind assigns. -/
def decodeEngine (w : Nat) : Except DecodeError Instr :=
  match w / 256 % 64 with
  | 0 => if w % 4 = 0 then .ok (.copyElems (fld 4 w 22) (fld 4 w 18) (fld 4 w 14) (fld 4 w 4) (fld 2 w 2)) else .error .fieldNotZero
  | 1 => if w % 4 = 0 then .ok (.copy2 (fld 4 w 22) (fld 4 w 18) (fld 4 w 14) (fld 4 w 4) (fld 2 w 2)) else .error .fieldNotZero
  | 2 => if w % 16 = 0 then .ok (.copyring (fld 4 w 22) (fld 4 w 18) (fld 4 w 14) (fld 4 w 4)) else .error .fieldNotZero
  | 3 => if w % 256 = 0 ∧ w / 16384 % 256 = 0 then .ok (.ringadv (fld 4 w 22)) else .error .fieldNotZero
  | 4 => if w % 4 = 0 then .ok (.gather (fld 4 w 22) (fld 4 w 18) (fld 4 w 14) (fld 4 w 4) (fld 2 w 2)) else .error .fieldNotZero
  | 5 => if w % 4 = 0 then .ok (.scatter (fld 4 w 22) (fld 4 w 18) (fld 4 w 14) (fld 4 w 4) (fld 2 w 2)) else .error .fieldNotZero
  | 6 => if w % 4 = 0 then .ok (.scatadd (fld 4 w 22) (fld 4 w 18) (fld 4 w 14) (fld 4 w 4) (fld 2 w 2)) else .error .fieldNotZero
  | 7 => if w % 256 = 0 ∧ w / 4194304 % 16 = 0 then .ok (.qjoin (fld 4 w 18) (fld 4 w 14)) else .error .fieldNotZero
  | 8 => if w % 256 = 0 ∧ w / 16384 % 16 = 0 then .ok (.cstat (fld 4 w 22) (fld 4 w 18)) else .error .fieldNotZero
  | _ => .error .unassignedOp

/-- Major 0x2E: the rows its op, sub, condition or kind assigns. -/
def decodeTape (w : Nat) : Except DecodeError Instr :=
  match w / 256 % 64 with
  | 0 => if w % 4 = 0 ∧ w / 8 % 2 = 0 ∧ w / 4194304 % 16 = 0 then .ok (.pgstart (fld 4 w 18) (fld 4 w 14) (fld 4 w 4) (fld 1 w 2)) else .error .fieldNotZero
  | 1 => if w % 4 = 0 ∧ w / 8 % 32 = 0 ∧ w / 16384 % 16 = 0 then .ok (.pgnext (fld 4 w 22) (fld 4 w 18) (fld 1 w 2)) else .error .fieldNotZero
  | 2 => if w % 4 = 0 ∧ w / 8 % 32 = 0 ∧ w / 16384 % 16 = 0 ∧ w / 4194304 % 16 = 0 then .ok (.pgsave (fld 4 w 18) (fld 1 w 2)) else .error .fieldNotZero
  | 3 => if w % 4 = 0 ∧ w / 8 % 32 = 0 ∧ w / 16384 % 16 = 0 ∧ w / 4194304 % 16 = 0 then .ok (.pgload (fld 4 w 18) (fld 1 w 2)) else .error .fieldNotZero
  | 4 => if w % 16 = 0 ∧ w / 16384 % 16 = 0 then .ok (.pginv (fld 4 w 22) (fld 4 w 18) (fld 4 w 4)) else .error .fieldNotZero
  | 8 => if w % 256 = 0 then .ok (.dqpush (fld 4 w 22) (fld 4 w 18) (fld 4 w 14)) else .error .fieldNotZero
  | 9 => if w % 256 = 0 ∧ w / 16384 % 256 = 0 then .ok (.dqpop (fld 4 w 22)) else .error .fieldNotZero
  | 10 => if w % 256 = 0 ∧ w / 16384 % 256 = 0 then .ok (.dqsplit (fld 4 w 22)) else .error .fieldNotZero
  | 11 => if w % 256 = 0 ∧ w / 16384 % 16 = 0 then .ok (.dqsteal (fld 4 w 22) (fld 4 w 18)) else .error .fieldNotZero
  | 12 => if w % 256 = 0 ∧ w / 16384 % 256 = 0 then .ok (.dqcount (fld 4 w 22)) else .error .fieldNotZero
  | 16 => if w % 256 = 0 then .ok (.trec (fld 4 w 22) (fld 4 w 18) (fld 4 w 14)) else .error .fieldNotZero
  | 17 => if w % 256 = 0 ∧ w / 16384 % 256 = 0 then .ok (.tend (fld 4 w 22)) else .error .fieldNotZero
  | 18 => if w % 256 = 0 ∧ w / 4194304 % 16 = 0 then .ok (.tguard (fld 4 w 18) (fld 4 w 14)) else .error .fieldNotZero
  | 19 => if w % 256 = 0 then .ok (.tplay (fld 4 w 22) (fld 4 w 18) (fld 4 w 14)) else .error .fieldNotZero
  | _ => .error .unassignedOp

/-- The instruction a word holds, by its major opcode (R79). -/
def decodeWord (bits : BitVec 32) : Except DecodeError Instr :=
  let w := bits.toNat
  match w / 67108864 with
  | 1 => decodeInteger w
  | 2 => .ok (.addi (fld 4 w 22) (fld 4 w 18) (fld 18 w 0))
  | 3 => .ok (.addwi (fld 4 w 22) (fld 4 w 18) (fld 18 w 0))
  | 4 => .ok (.andi (fld 4 w 22) (fld 4 w 18) (fld 18 w 0))
  | 5 => .ok (.ori (fld 4 w 22) (fld 4 w 18) (fld 18 w 0))
  | 6 => .ok (.xori (fld 4 w 22) (fld 4 w 18) (fld 18 w 0))
  | 7 => if w / 64 % 4096 = 0 then .ok (.shli (fld 4 w 22) (fld 4 w 18) (fld 6 w 0)) else .error .fieldNotZero
  | 8 => if w / 64 % 4096 = 0 then .ok (.shri (fld 4 w 22) (fld 4 w 18) (fld 6 w 0)) else .error .fieldNotZero
  | 9 => if w / 64 % 4096 = 0 then .ok (.sari (fld 4 w 22) (fld 4 w 18) (fld 6 w 0)) else .error .fieldNotZero
  | 10 => .ok (.slti (fld 4 w 22) (fld 4 w 18) (fld 18 w 0))
  | 11 => .ok (.sltui (fld 4 w 22) (fld 4 w 18) (fld 18 w 0))
  | 12 => if w / 262144 % 16 = 0 then .ok (.li (fld 4 w 22) (fld 18 w 0)) else .error .fieldNotZero
  | 13 => .ok (.lih (fld 4 w 22) (fld 4 w 18) (fld 18 w 0))
  | 14 => if w / 262144 % 16 = 0 then .ok (.leai (fld 4 w 22) (fld 18 w 0)) else .error .fieldNotZero
  | 15 => decodeCompareSkip w
  | 16 => decodeFloat w
  | 17 => .ok (.br (fld 26 w 0))
  | 18 => .ok (.call (fld 26 w 0))
  | 19 => decodeBranch w
  | 20 => if w / 131072 % 2 = 0 ∧ w / 8388608 % 8 = 0 then .ok (.loopSet (fld 1 w 22) (fld 4 w 18) (fld 17 w 0)) else .error .fieldNotZero
  | 21 => decodeControl w
  | 22 => .ok (.ldb (fld 4 w 22) (fld 4 w 18) (fld 18 w 0))
  | 23 => .ok (.ldbu (fld 4 w 22) (fld 4 w 18) (fld 18 w 0))
  | 24 => .ok (.ldh (fld 4 w 22) (fld 4 w 18) (fld 18 w 0))
  | 25 => .ok (.ldhu (fld 4 w 22) (fld 4 w 18) (fld 18 w 0))
  | 26 => .ok (.ldw (fld 4 w 22) (fld 4 w 18) (fld 18 w 0))
  | 27 => .ok (.ldwu (fld 4 w 22) (fld 4 w 18) (fld 18 w 0))
  | 28 => .ok (.ldd (fld 4 w 22) (fld 4 w 18) (fld 18 w 0))
  | 29 => .ok (.stb (fld 4 w 22) (fld 4 w 18) (fld 18 w 0))
  | 30 => .ok (.sth (fld 4 w 22) (fld 4 w 18) (fld 18 w 0))
  | 31 => .ok (.stw (fld 4 w 22) (fld 4 w 18) (fld 18 w 0))
  | 32 => .ok (.std (fld 4 w 22) (fld 4 w 18) (fld 18 w 0))
  | 33 => decodeIndexed w
  | 34 => decodeAtomic w
  | 35 => decodeFullEmpty w
  | 36 => decodePort w
  | 37 => decodeSync w
  | 38 => decodeSystem w
  | 39 => if w / 256 % 16384 = 0 then .ok (.mfs (fld 4 w 22) (fld 8 w 0)) else .error .fieldNotZero
  | 40 => if w / 256 % 1024 = 0 ∧ w / 4194304 % 16 = 0 then .ok (.mts (fld 4 w 18) (fld 8 w 0)) else .error .fieldNotZero
  | 41 => .ok (.hint (fld 26 w 0))
  | 42 => decodeModifier w
  | 43 => decodeVector w
  | 44 => decodeTensor w
  | 45 => decodeEngine w
  | 46 => decodeTape w
  | _ => .error .reservedMajor

/-- A 32-bit word from its four bytes, lowest address first (R9, R73). -/
def wordOfBytes (b0 b1 b2 b3 : BitVec 8) : BitVec 32 :=
  BitVec.ofNat 32 (b0.toNat + 256 * b1.toNat + 65536 * b2.toNat + 16777216 * b3.toNat)

/-- The four bytes of a word, lowest address first (R9, R73). -/
def bytesOfWord (w : BitVec 32) : List (BitVec 8) :=
  [BitVec.ofNat 8 w.toNat, BitVec.ofNat 8 (w.toNat / 256), BitVec.ofNat 8 (w.toNat / 65536),
   BitVec.ofNat 8 (w.toNat / 16777216)]

/-- Decode the instruction at the head of a byte list; total on any bytes, refusing by name. -/
def decodeBytes : List (BitVec 8) → Except DecodeError (Instr × List (BitVec 8))
  | b0 :: b1 :: b2 :: b3 :: rest =>
    match decodeWord (wordOfBytes b0 b1 b2 b3) with
    | .ok i => .ok (i, rest)
    | .error e => .error e
  | _ => .error .truncated

/-- The instruction the decoder reads from the bits of a table word; every row of the table has 32 bits, one word,
laid out little-endian (R73). -/
def decodeTableWord (_nbits w : Nat) : Option Instr :=
  match decodeBytes (bytesOfWord (BitVec.ofNat 32 w)) with
  | .ok (i, _) => some i
  | .error _ => none

/-- The instruction word as a number: the fields of R74 at their bit positions. A row without a word, and an
ILLEGAL_WORD, give no encoding of their own. -/
def encodeNat : Instr → Nat
  | .add d a b => 67108864 + d.toNat * 4194304 + a.toNat * 262144 + b.toNat * 16384
  | .addw d a b => 67108928 + d.toNat * 4194304 + a.toNat * 262144 + b.toNat * 16384
  | .sub d a b => 67108992 + d.toNat * 4194304 + a.toNat * 262144 + b.toNat * 16384
  | .subw d a b => 67109056 + d.toNat * 4194304 + a.toNat * 262144 + b.toNat * 16384
  | .mul d a b => 67109120 + d.toNat * 4194304 + a.toNat * 262144 + b.toNat * 16384
  | .mulw d a b => 67109184 + d.toNat * 4194304 + a.toNat * 262144 + b.toNat * 16384
  | .mulh d a b => 67109248 + d.toNat * 4194304 + a.toNat * 262144 + b.toNat * 16384
  | .mulhu d a b => 67109312 + d.toNat * 4194304 + a.toNat * 262144 + b.toNat * 16384
  | .div d a b => 67109376 + d.toNat * 4194304 + a.toNat * 262144 + b.toNat * 16384
  | .divu d a b => 67109440 + d.toNat * 4194304 + a.toNat * 262144 + b.toNat * 16384
  | .rem d a b => 67109504 + d.toNat * 4194304 + a.toNat * 262144 + b.toNat * 16384
  | .remu d a b => 67109568 + d.toNat * 4194304 + a.toNat * 262144 + b.toNat * 16384
  | .andr d a b => 67109632 + d.toNat * 4194304 + a.toNat * 262144 + b.toNat * 16384
  | .orr d a b => 67109696 + d.toNat * 4194304 + a.toNat * 262144 + b.toNat * 16384
  | .xorr d a b => 67109760 + d.toNat * 4194304 + a.toNat * 262144 + b.toNat * 16384
  | .andn d a b => 67109824 + d.toNat * 4194304 + a.toNat * 262144 + b.toNat * 16384
  | .orn d a b => 67109888 + d.toNat * 4194304 + a.toNat * 262144 + b.toNat * 16384
  | .shl d a b => 67109952 + d.toNat * 4194304 + a.toNat * 262144 + b.toNat * 16384
  | .shr d a b => 67110016 + d.toNat * 4194304 + a.toNat * 262144 + b.toNat * 16384
  | .sar d a b => 67110080 + d.toNat * 4194304 + a.toNat * 262144 + b.toNat * 16384
  | .rol d a b => 67110144 + d.toNat * 4194304 + a.toNat * 262144 + b.toNat * 16384
  | .shlw d a b => 67110208 + d.toNat * 4194304 + a.toNat * 262144 + b.toNat * 16384
  | .shrw d a b => 67110272 + d.toNat * 4194304 + a.toNat * 262144 + b.toNat * 16384
  | .sarw d a b => 67110336 + d.toNat * 4194304 + a.toNat * 262144 + b.toNat * 16384
  | .minS d a b => 67110400 + d.toNat * 4194304 + a.toNat * 262144 + b.toNat * 16384
  | .maxS d a b => 67110464 + d.toNat * 4194304 + a.toNat * 262144 + b.toNat * 16384
  | .minu d a b => 67110528 + d.toNat * 4194304 + a.toNat * 262144 + b.toNat * 16384
  | .maxu d a b => 67110592 + d.toNat * 4194304 + a.toNat * 262144 + b.toNat * 16384
  | .abs d a => 67110656 + d.toNat * 4194304 + a.toNat * 262144
  | .clz d a => 67110720 + d.toNat * 4194304 + a.toNat * 262144
  | .ctz d a => 67110784 + d.toNat * 4194304 + a.toNat * 262144
  | .popc d a => 67110848 + d.toNat * 4194304 + a.toNat * 262144
  | .brev d a => 67110912 + d.toNat * 4194304 + a.toNat * 262144
  | .bswap d a => 67110976 + d.toNat * 4194304 + a.toNat * 262144
  | .sext d a w => 67111040 + d.toNat * 4194304 + a.toNat * 262144 + w.toNat
  | .zext d a w => 67111104 + d.toNat * 4194304 + a.toNat * 262144 + w.toNat
  | .extr d a b => 67111168 + d.toNat * 4194304 + a.toNat * 262144 + b.toNat * 16384
  | .insr d a b => 67111232 + d.toNat * 4194304 + a.toNat * 262144 + b.toNat * 16384
  | .slt d a b => 67111296 + d.toNat * 4194304 + a.toNat * 262144 + b.toNat * 16384
  | .sltu d a b => 67111360 + d.toNat * 4194304 + a.toNat * 262144 + b.toNat * 16384
  | .seq d a b => 67111424 + d.toNat * 4194304 + a.toNat * 262144 + b.toNat * 16384
  | .sne d a b => 67111488 + d.toNat * 4194304 + a.toNat * 262144 + b.toNat * 16384
  | .lea d a b s => 67111552 + d.toNat * 4194304 + a.toNat * 262144 + b.toNat * 16384 + s.toNat
  | .addi d a i => 134217728 + d.toNat * 4194304 + a.toNat * 262144 + i.toNat
  | .addwi d a i => 201326592 + d.toNat * 4194304 + a.toNat * 262144 + i.toNat
  | .andi d a i => 268435456 + d.toNat * 4194304 + a.toNat * 262144 + i.toNat
  | .ori d a i => 335544320 + d.toNat * 4194304 + a.toNat * 262144 + i.toNat
  | .xori d a i => 402653184 + d.toNat * 4194304 + a.toNat * 262144 + i.toNat
  | .shli d a s => 469762048 + d.toNat * 4194304 + a.toNat * 262144 + s.toNat
  | .shri d a s => 536870912 + d.toNat * 4194304 + a.toNat * 262144 + s.toNat
  | .sari d a s => 603979776 + d.toNat * 4194304 + a.toNat * 262144 + s.toNat
  | .slti d a i => 671088640 + d.toNat * 4194304 + a.toNat * 262144 + i.toNat
  | .sltui d a i => 738197504 + d.toNat * 4194304 + a.toNat * 262144 + i.toNat
  | .li d i => 805306368 + d.toNat * 4194304 + i.toNat
  | .lih d a i => 872415232 + d.toNat * 4194304 + a.toNat * 262144 + i.toNat
  | .leai d i => 939524096 + d.toNat * 4194304 + i.toNat
  | .skeqReg a b n => 1006632960 + a.toNat * 262144 + b.toNat * 8192 + n.toNat
  | .skeqImm a i n => 1006764032 + a.toNat * 262144 + i.toNat * 4 + n.toNat
  | .skneReg a b n => 1010827264 + a.toNat * 262144 + b.toNat * 8192 + n.toNat
  | .skneImm a i n => 1010958336 + a.toNat * 262144 + i.toNat * 4 + n.toNat
  | .skltReg a b n => 1015021568 + a.toNat * 262144 + b.toNat * 8192 + n.toNat
  | .skltImm a i n => 1015152640 + a.toNat * 262144 + i.toNat * 4 + n.toNat
  | .skgeReg a b n => 1019215872 + a.toNat * 262144 + b.toNat * 8192 + n.toNat
  | .skgeImm a i n => 1019346944 + a.toNat * 262144 + i.toNat * 4 + n.toNat
  | .skltuReg a b n => 1023410176 + a.toNat * 262144 + b.toNat * 8192 + n.toNat
  | .skltuImm a i n => 1023541248 + a.toNat * 262144 + i.toNat * 4 + n.toNat
  | .skgeuReg a b n => 1027604480 + a.toNat * 262144 + b.toNat * 8192 + n.toNat
  | .skgeuImm a i n => 1027735552 + a.toNat * 262144 + i.toNat * 4 + n.toNat
  | .skbsReg a b n => 1031798784 + a.toNat * 262144 + b.toNat * 8192 + n.toNat
  | .skbsImm a k n => 1031929856 + a.toNat * 262144 + k.toNat * 4 + n.toNat
  | .skbcReg a b n => 1035993088 + a.toNat * 262144 + b.toNat * 8192 + n.toNat
  | .skbcImm a k n => 1036124160 + a.toNat * 262144 + k.toNat * 4 + n.toNat
  | .skfeq a b n => 1040187392 + a.toNat * 262144 + b.toNat * 8192 + n.toNat
  | .skflt a b n => 1044381696 + a.toNat * 262144 + b.toNat * 8192 + n.toNat
  | .skfle a b n => 1048576000 + a.toNat * 262144 + b.toNat * 8192 + n.toNat
  | .skfun a b n => 1052770304 + a.toNat * 262144 + b.toNat * 8192 + n.toNat
  | .fadd d a b => 1073741824 + d.toNat * 4194304 + a.toNat * 262144 + b.toNat * 16384
  | .fsub d a b => 1073741888 + d.toNat * 4194304 + a.toNat * 262144 + b.toNat * 16384
  | .fmul d a b => 1073741952 + d.toNat * 4194304 + a.toNat * 262144 + b.toNat * 16384
  | .fma d a b c => 1073742016 + d.toNat * 4194304 + a.toNat * 262144 + b.toNat * 16384 + c.toNat
  | .fms d a b c => 1073742080 + d.toNat * 4194304 + a.toNat * 262144 + b.toNat * 16384 + c.toNat
  | .fnma d a b c => 1073742144 + d.toNat * 4194304 + a.toNat * 262144 + b.toNat * 16384 + c.toNat
  | .fdiv d a b => 1073742208 + d.toNat * 4194304 + a.toNat * 262144 + b.toNat * 16384
  | .fsqrt d a => 1073742272 + d.toNat * 4194304 + a.toNat * 262144
  | .fmin d a b => 1073742336 + d.toNat * 4194304 + a.toNat * 262144 + b.toNat * 16384
  | .fmax d a b => 1073742400 + d.toNat * 4194304 + a.toNat * 262144 + b.toNat * 16384
  | .fabs d a => 1073742464 + d.toNat * 4194304 + a.toNat * 262144
  | .fneg d a => 1073742528 + d.toNat * 4194304 + a.toNat * 262144
  | .fsgn d a b => 1073742592 + d.toNat * 4194304 + a.toNat * 262144 + b.toNat * 16384
  | .fclass d a => 1073742656 + d.toNat * 4194304 + a.toNat * 262144
  | .fcvtfi d a f => 1073742720 + d.toNat * 4194304 + a.toNat * 262144 + f.toNat
  | .fcvtif d a f => 1073742784 + d.toNat * 4194304 + a.toNat * 262144 + f.toNat
  | .fcvth d a x f => 1073742848 + d.toNat * 4194304 + a.toNat * 262144 + x.toNat * 32 + f.toNat
  | .br o => 1140850688 + o.toNat
  | .call o => 1207959552 + o.toNat
  | .bz a o => 1275068416 + a.toNat * 262144 + o.toNat
  | .bnz a o => 1279262720 + a.toNat * 262144 + o.toNat
  | .loopSet s a o => 1342177280 + s.toNat * 4194304 + a.toNat * 262144 + o.toNat
  | .brr a => 1409286144 + a.toNat * 262144
  | .callr a => 1409286208 + a.toNat * 262144
  | .ret a => 1409286272 + a.toNat * 262144
  | .exitThread => 1409286336
  | .nop => 1409286400
  | .loopr s a b => 1409286464 + s.toNat * 4194304 + a.toNat * 262144 + b.toNat * 16384
  | .ldb d a i => 1476395008 + d.toNat * 4194304 + a.toNat * 262144 + i.toNat
  | .ldbu d a i => 1543503872 + d.toNat * 4194304 + a.toNat * 262144 + i.toNat
  | .ldh d a i => 1610612736 + d.toNat * 4194304 + a.toNat * 262144 + i.toNat
  | .ldhu d a i => 1677721600 + d.toNat * 4194304 + a.toNat * 262144 + i.toNat
  | .ldw d a i => 1744830464 + d.toNat * 4194304 + a.toNat * 262144 + i.toNat
  | .ldwu d a i => 1811939328 + d.toNat * 4194304 + a.toNat * 262144 + i.toNat
  | .ldd d a i => 1879048192 + d.toNat * 4194304 + a.toNat * 262144 + i.toNat
  | .stb s a i => 1946157056 + s.toNat * 4194304 + a.toNat * 262144 + i.toNat
  | .sth s a i => 2013265920 + s.toNat * 4194304 + a.toNat * 262144 + i.toNat
  | .stw s a i => 2080374784 + s.toNat * 4194304 + a.toNat * 262144 + i.toNat
  | .std s a i => 2147483648 + s.toNat * 4194304 + a.toNat * 262144 + i.toNat
  | .ldx d a b x u w => 2214592512 + d.toNat * 4194304 + a.toNat * 262144 + b.toNat * 16384 + x.toNat * 8 + u.toNat * 4 + w.toNat
  | .stx d a b x w => 2214592576 + d.toNat * 4194304 + a.toNat * 262144 + b.toNat * 16384 + x.toNat * 8 + w.toNat
  | .lda d a s u w => 2214592640 + d.toNat * 4194304 + a.toNat * 262144 + s.toNat * 8 + u.toNat * 4 + w.toNat
  | .strel d a s w => 2214592704 + d.toNat * 4194304 + a.toNat * 262144 + s.toNat * 8 + w.toNat
  | .aadd d a b z => 2281701376 + d.toNat * 4194304 + a.toNat * 262144 + b.toNat * 16384 + z.toNat
  | .aand d a b z => 2281701440 + d.toNat * 4194304 + a.toNat * 262144 + b.toNat * 16384 + z.toNat
  | .aor d a b z => 2281701504 + d.toNat * 4194304 + a.toNat * 262144 + b.toNat * 16384 + z.toNat
  | .axor d a b z => 2281701568 + d.toNat * 4194304 + a.toNat * 262144 + b.toNat * 16384 + z.toNat
  | .amin d a b z => 2281701632 + d.toNat * 4194304 + a.toNat * 262144 + b.toNat * 16384 + z.toNat
  | .amax d a b z => 2281701696 + d.toNat * 4194304 + a.toNat * 262144 + b.toNat * 16384 + z.toNat
  | .aminu d a b z => 2281701760 + d.toNat * 4194304 + a.toNat * 262144 + b.toNat * 16384 + z.toNat
  | .amaxu d a b z => 2281701824 + d.toNat * 4194304 + a.toNat * 262144 + b.toNat * 16384 + z.toNat
  | .aswp d a b z => 2281701888 + d.toNat * 4194304 + a.toNat * 262144 + b.toNat * 16384 + z.toNat
  | .acas d a b z => 2281701952 + d.toNat * 4194304 + a.toNat * 262144 + b.toNat * 16384 + z.toNat
  | .afadd d a b => 2281702016 + d.toNat * 4194304 + a.toNat * 262144 + b.toNat * 16384
  | .afmin d a b => 2281702080 + d.toNat * 4194304 + a.toNat * 262144 + b.toNat * 16384
  | .afmax d a b => 2281702144 + d.toNat * 4194304 + a.toNat * 262144 + b.toNat * 16384
  | .ldfe d a b => 2348810240 + d.toNat * 4194304 + a.toNat * 262144 + b.toNat * 16384
  | .ldff d a b => 2348810304 + d.toNat * 4194304 + a.toNat * 262144 + b.toNat * 16384
  | .stef d a b => 2348810368 + d.toNat * 4194304 + a.toNat * 262144 + b.toNat * 16384
  | .stff d a => 2348810432 + d.toNat * 4194304 + a.toNat * 262144
  | .feprobe d a => 2348810496 + d.toNat * 4194304 + a.toNat * 262144
  | .feset a f => 2348810560 + a.toNat * 262144 + f.toNat
  | .psend a k => 2415919104 + a.toNat * 262144 + k.toNat
  | .precv d k => 2415919168 + d.toNat * 4194304 + k.toNat
  | .ppeek d k => 2415919232 + d.toNat * 4194304 + k.toNat
  | .psendq a b k => 2415919296 + a.toNat * 262144 + b.toNat * 16384 + k.toNat
  | .precvq d b k => 2415919360 + d.toNat * 4194304 + b.toNat * 16384 + k.toNat
  | .pend => 2483027968
  | .fence s n => 2483028032 + s.toNat * 4 + n.toNat
  | .bar s n => 2483028096 + s.toNat * 4 + n.toNat
  | .wait d => 2483028160 + d.toNat * 4194304
  | .evt a b e => 2483028224 + a.toNat * 262144 + b.toNat * 16384 + e.toNat
  | .waitge d a b => 2483028288 + d.toNat * 4194304 + a.toNat * 262144 + b.toNat * 16384
  | .sleep d a => 2483028352 + d.toNat * 4194304 + a.toNat * 262144
  | .ckpt d => 2483028416 + d.toNat * 4194304
  | .brk c => 2483028480 + c.toNat
  | .trapCode c => 2483028544 + c.toNat
  | .tstart d a b => 2550136832 + d.toNat * 4194304 + a.toNat * 262144 + b.toNat * 16384
  | .treap d a b => 2550136896 + d.toNat * 4194304 + a.toNat * 262144 + b.toNat * 16384
  | .tkill d a => 2550136960 + d.toNat * 4194304 + a.toNat * 262144
  | .mfa d c => 2550137024 + d.toNat * 4194304 + c.toNat
  | .mta a c => 2550137088 + a.toNat * 262144 + c.toNat
  | .mfs d n => 2617245696 + d.toNat * 4194304 + n.toNat
  | .mts a n => 2684354560 + a.toNat * 262144 + n.toNat
  | .hint p => 2751463424 + p.toNat
  | .hmodRound m => 2818572288 + m.toNat
  | .hmodSr => 2835349504
  | .hmodScope s => 2852126720 + s.toNat
  | .hmodLanes f => 2868903936 + f.toNat
  | .vadd d a b => 2885681152 + d.toNat * 4194304 + a.toNat * 262144 + b.toNat * 16384
  | .vsub d a b => 2885681216 + d.toNat * 4194304 + a.toNat * 262144 + b.toNat * 16384
  | .vadds d a b => 2885681280 + d.toNat * 4194304 + a.toNat * 262144 + b.toNat * 16384
  | .vsubs d a b => 2885681344 + d.toNat * 4194304 + a.toNat * 262144 + b.toNat * 16384
  | .vmul d a b => 2885681408 + d.toNat * 4194304 + a.toNat * 262144 + b.toNat * 16384
  | .vmulh d a b => 2885681472 + d.toNat * 4194304 + a.toNat * 262144 + b.toNat * 16384
  | .vmac d a b => 2885681536 + d.toNat * 4194304 + a.toNat * 262144 + b.toNat * 16384
  | .vdot d a b => 2885681600 + d.toNat * 4194304 + a.toNat * 262144 + b.toNat * 16384
  | .vsum d a b => 2885681664 + d.toNat * 4194304 + a.toNat * 262144 + b.toNat * 16384
  | .vmaxr d a => 2885681728 + d.toNat * 4194304 + a.toNat * 262144
  | .vmin d a b => 2885681792 + d.toNat * 4194304 + a.toNat * 262144 + b.toNat * 16384
  | .vmax d a b => 2885681856 + d.toNat * 4194304 + a.toNat * 262144 + b.toNat * 16384
  | .vabs d a => 2885681920 + d.toNat * 4194304 + a.toNat * 262144
  | .vneg d a => 2885681984 + d.toNat * 4194304 + a.toNat * 262144
  | .vavg d a b => 2885682048 + d.toNat * 4194304 + a.toNat * 262144 + b.toNat * 16384
  | .vshl d a b => 2885682112 + d.toNat * 4194304 + a.toNat * 262144 + b.toNat * 16384
  | .vshr d a b => 2885682176 + d.toNat * 4194304 + a.toNat * 262144 + b.toNat * 16384
  | .vsar d a b => 2885682240 + d.toNat * 4194304 + a.toNat * 262144 + b.toNat * 16384
  | .vcmp d a b c => 2885682304 + d.toNat * 4194304 + a.toNat * 262144 + b.toNat * 16384 + c.toNat
  | .vsel d a b => 2885682368 + d.toNat * 4194304 + a.toNat * 262144 + b.toNat * 16384
  | .vsplat d a => 2885682432 + d.toNat * 4194304 + a.toNat * 262144
  | .vshuf d a b => 2885682496 + d.toNat * 4194304 + a.toNat * 262144 + b.toNat * 16384
  | .vpack d a b => 2885682560 + d.toNat * 4194304 + a.toNat * 262144 + b.toNat * 16384
  | .vunpkl d a => 2885682624 + d.toNat * 4194304 + a.toNat * 262144
  | .vunpkh d a => 2885682688 + d.toNat * 4194304 + a.toNat * 262144
  | .vcvt d a b f => 2885682752 + d.toNat * 4194304 + a.toNat * 262144 + b.toNat * 16384 + f.toNat
  | .vnzs d a => 2885682816 + d.toNat * 4194304 + a.toNat * 262144
  | .vcompr d a b => 2885682880 + d.toNat * 4194304 + a.toNat * 262144 + b.toNat * 16384
  | .vrelu d a => 2885682944 + d.toNat * 4194304 + a.toNat * 262144
  | .vclamp d a b => 2885683008 + d.toNat * 4194304 + a.toNat * 262144 + b.toNat * 16384
  | .vexp2 d a => 2885683072 + d.toNat * 4194304 + a.toNat * 262144
  | .vlog2 d a => 2885683136 + d.toNat * 4194304 + a.toNat * 262144
  | .vrcp d a => 2885683200 + d.toNat * 4194304 + a.toNat * 262144
  | .vrsq d a => 2885683264 + d.toNat * 4194304 + a.toNat * 262144
  | .tld a t => 2952790016 + a.toNat * 262144 + t.toNat * 16
  | .tst a t => 2952790272 + a.toNat * 262144 + t.toNat * 16
  | .tsetf a b t => 2952790528 + a.toNat * 262144 + b.toNat * 16384 + t.toNat * 16
  | .geo a => 2952790784 + a.toNat * 262144
  | .mzero => 2952791040
  | .mtile u a b t q => 2952791296 + u.toNat * 4194304 + a.toNat * 262144 + b.toNat * 16384 + t.toNat * 16 + q.toNat * 4
  | .mst a b t => 2952791552 + a.toNat * 262144 + b.toNat * 16384 + t.toNat * 16
  | .mlatch a j => 2952791808 + a.toNat * 262144 + j.toNat * 4
  | .gang d a b => 2952792064 + d.toNat * 4194304 + a.toNat * 262144 + b.toNat * 16384
  | .feed a b q => 2952792320 + a.toNat * 262144 + b.toNat * 16384 + q.toNat * 4
  | .feeds c a b t q => 2952792576 + c.toNat * 4194304 + a.toNat * 262144 + b.toNat * 16384 + t.toNat * 16 + q.toNat * 4
  | .drainWord d b q => 2952792832 + d.toNat * 4194304 + b.toNat * 16384 + q.toNat * 4
  | .thawBench d a => 2952793088 + d.toNat * 4194304 + a.toNat * 262144
  | .gstat d a => 2952793344 + d.toNat * 4194304 + a.toNat * 262144
  | .copyElems d a b t q => 3019898880 + d.toNat * 4194304 + a.toNat * 262144 + b.toNat * 16384 + t.toNat * 16 + q.toNat * 4
  | .copy2 d a b t q => 3019899136 + d.toNat * 4194304 + a.toNat * 262144 + b.toNat * 16384 + t.toNat * 16 + q.toNat * 4
  | .copyring d a b t => 3019899392 + d.toNat * 4194304 + a.toNat * 262144 + b.toNat * 16384 + t.toNat * 16
  | .ringadv d => 3019899648 + d.toNat * 4194304
  | .gather c a b t q => 3019899904 + c.toNat * 4194304 + a.toNat * 262144 + b.toNat * 16384 + t.toNat * 16 + q.toNat * 4
  | .scatter c a b t q => 3019900160 + c.toNat * 4194304 + a.toNat * 262144 + b.toNat * 16384 + t.toNat * 16 + q.toNat * 4
  | .scatadd c a b t q => 3019900416 + c.toNat * 4194304 + a.toNat * 262144 + b.toNat * 16384 + t.toNat * 16 + q.toNat * 4
  | .qjoin a b => 3019900672 + a.toNat * 262144 + b.toNat * 16384
  | .cstat d a => 3019900928 + d.toNat * 4194304 + a.toNat * 262144
  | .pgstart a b t g => 3087007744 + a.toNat * 262144 + b.toNat * 16384 + t.toNat * 16 + g.toNat * 4
  | .pgnext d a g => 3087008000 + d.toNat * 4194304 + a.toNat * 262144 + g.toNat * 4
  | .pgsave a g => 3087008256 + a.toNat * 262144 + g.toNat * 4
  | .pgload a g => 3087008512 + a.toNat * 262144 + g.toNat * 4
  | .pginv d a t => 3087008768 + d.toNat * 4194304 + a.toNat * 262144 + t.toNat * 16
  | .dqpush d a b => 3087009792 + d.toNat * 4194304 + a.toNat * 262144 + b.toNat * 16384
  | .dqpop d => 3087010048 + d.toNat * 4194304
  | .dqsplit d => 3087010304 + d.toNat * 4194304
  | .dqsteal d a => 3087010560 + d.toNat * 4194304 + a.toNat * 262144
  | .dqcount d => 3087010816 + d.toNat * 4194304
  | .trec c a b => 3087011840 + c.toNat * 4194304 + a.toNat * 262144 + b.toNat * 16384
  | .tend d => 3087012096 + d.toNat * 4194304
  | .tguard a b => 3087012352 + a.toNat * 262144 + b.toNat * 16384
  | .tplay d a b => 3087012608 + d.toNat * 4194304 + a.toNat * 262144 + b.toNat * 16384
  | .powerOnReset => 0
  | .spill _ _ => 0
  | .fill _ _ => 0
  | .scoreboardRetirement _ => 0
  | .tapeAppend _ => 0
  | .remoteReply _ _ => 0
  | .sectorFetch _ _ => 0
  | .readSetInstall _ _ => 0
  | .sectorDrain _ _ => 0
  | .drainAcknowledgement _ _ => 0
  | .ldaAtHome _ _ => 0
  | .strelAtHome _ _ => 0
  | .atomicAtHome _ _ => 0
  | .feAtHome _ _ => 0
  | .feWithdrawal _ _ => 0
  | .feLimitExpiry _ _ => 0
  | .waitgeAtHome _ _ => 0
  | .counterLimitExpiry _ _ => 0
  | .sleepTimeout _ _ => 0
  | .eventArrival _ _ => 0
  | .portEntryArrival _ _ => 0
  | .orderTokenGrant _ _ => 0
  | .barrierEpisodeComplete _ => 0
  | .ckptCollective _ => 0
  | .gangerExitComplete _ => 0
  | .icacheLineFill _ _ => 0
  | .translationWalk _ _ => 0
  | .invalidation _ _ => 0
  | .translationChangeComplete _ => 0
  | .sequencerAccept _ => 0
  | .kStep _ => 0
  | .engineCommandComplete _ _ => 0
  | .engineFault _ _ => 0
  | .qjoinFenceComplete _ => 0
  | .ringChunkStart _ => 0
  | .ringChunkComplete _ => 0
  | .feedsWordDelivery _ => 0
  | .gatherLead _ => 0
  | .gatherWindowClose _ => 0
  | .stealRequest _ _ => 0
  | .rampCreditRefill _ => 0
  | .leaveGrant _ => 0
  | .leaveReturn _ => 0
  | .claim _ _ => 0
  | .freeze _ => 0
  | .latchPulse _ => 0
  | .wsDataPulse _ => 0
  | .rsDataPulse _ => 0
  | .scalePulse _ => 0
  | .zeroPointPulse _ => 0
  | .endPulse _ => 0
  | .thawReturn _ => 0
  | .doorbellWrite _ _ => 0
  | .dispatch _ => 0
  | .gangerStart _ => 0
  | .replayFallback _ => 0
  | .corePartEnd _ => 0
  | .retirement _ => 0
  | .dryTimerExpiry _ => 0
  | .coreRecast _ _ => 0
  | .migrationSwitch _ => 0
  | .migrationResume _ => 0
  | .inboundWrite _ _ _ _ _ => 0
  | .partSend _ => 0
  | .partAcknowledgement _ => 0
  | .inboundRead _ _ _ _ _ => 0
  | .inboundReadPerform _ => 0
  | .peerInbound _ _ _ _ _ _ _ => 0
  | .peerReplyTimeout _ => 0
  | .haulPortFailure _ => 0
  | .telemetryInterval _ => 0
  | .checkpointInterval _ => 0
  | .trapService _ _ => 0
  | .killMessage _ _ => 0
  | .killSweepEnd _ _ => 0
  | .killConfirmation _ => 0
  | .rollbackRestore _ => 0
  | .channelRetirement _ _ => 0
  | .edgeDown _ => 0
  | .ueCoreState _ => 0
  | .scrub _ => 0
  | .sensorRead _ _ _ => 0
  | .leaseRenewal => 0
  | .leaseTakeover _ => 0
  | .rowGate _ _ => 0
  | .rowUngate _ _ => 0
  | .breakpointHit _ _ => 0
  | .debugEventDelivery _ => 0
  | .registerWrite _ _ _ => 0
  | .hltClear _ _ => 0
  | .invRange _ => 0
  | .loadKey _ => 0
  | .revoke _ => 0
  | .importEntry _ => 0
  | .exportRange _ => 0
  | .attreq _ => 0
  | .tactKill _ _ => 0
  | .tactReplay _ _ => 0
  | .tactPark _ _ => 0
  | .tactForward _ _ => 0
  | .tactRollback _ _ => 0
  | .migrateCore _ => 0
  | .recastCmd _ => 0
  | .placeQueue _ => 0
  | .createPart => 0
  | .destroyPart => 0
  | .ckset => 0
  | .killCtx => 0
  | .kret => 0
  | .verifyImage => 0
  | .activate => 0
  | .svnset => 0
  | .ownadd => 0
  | .freshNonce => 0
  | .ownxfer => 0
  | .attest => 0
  | .capWrite _ _ => 0
  | .gateWrite _ _ => 0
  | .clkWrite _ _ => 0
  | .haltSlots _ => 0
  | .haltc _ => 0
  | .resumeSlots _ => 0
  | .stepSlot _ => 0
  | .rdreg _ => 0
  | .wrreg _ => 0
  | .rdspr _ => 0
  | .rdcell _ => 0
  | .brkset _ => 0
  | .brkclr _ => 0
  | .debugThaw _ => 0
  | .barrd _ => 0
  | .illegalWord w => w.toNat
  | .effectivePriorityRise _ _ => 0
  | .trapRecordDelivery _ => 0
  | .linkRetry _ _ _ => 0
  | .transitFlit _ _ => 0
  | .meshPacketDiscard _ _ _ => 0
  | .pcieLinkTraining _ _ _ => 0
  | .atomicEngineLineWriteback _ _ => 0

/-- The 32-bit instruction word of an instruction (R73). -/
def encode (i : Instr) : BitVec 32 := BitVec.ofNat 32 (encodeNat i)

end Sys2Proof
end

