-- ==== Sys2Proof/Word.lean ====
section
/-! DEFINITION. The word types of the JR-9 (01 R23, 00 R9). -/

namespace Sys2Proof

/-- A general register, special register or doubleword of memory (R23). -/
abbrev Word := BitVec 64

/-- A byte of memory (R9). -/
abbrev Byte := BitVec 8

/-- A 4-bit register field: g0 to g7 are 0 to 7, w0 to w7 are 8 to 15 (R75). -/
abbrev Reg := BitVec 4

end Sys2Proof
end

