-- ==== Sys2Proof/Config.lean ====
section
/-! DEFINITION. What the manual leaves open: constants without a body, so that nothing can be proved of their values
(log entries 13 to 17, 19, 21, 22, 25, 28, 29). A claim that holds for the model holds whatever they are. -/

namespace Sys2Proof

/-- Where, inside the accuracy bound of 06 R196, the internal value y of VEXP2 (0), VLOG2 (1), VRCP (2) or VRSQ (3)
lies for a lane's encoding in a format, as a fraction of the bound: n − 2^31 in units of 2^−31 of it (log 13). One
value for each function, format and encoding, as R196 requires. -/
opaque Config.specialOffset : (fn fmt lane : Nat) → BitVec 32

/-- A byte a partition reads, under a key, of a sector it has not written since it was created, in stacks that another
partition or a destroyed one of its number has held (16 R376, R380; log 15): what the old ciphertext decrypts to. -/
opaque Config.foreignByte : (key : BitVec 512) → (pa era : Nat) → Byte

/-- A byte of a peer package's memory as an engine, a tape or a tile reads it: the peer's own (16 R373; log 19). -/
opaque Config.peerByte : (part handle off tick : Nat) → Byte

/-- Whether a peer package serves an access of an engine, a tape or a tile, and answers in time (16 R374; log 19). -/
opaque Config.peerServes : (part handle off tick : Nat) → Bool

/-- The n-th byte of undefined data the model hands out: a poisoned inbound read (16 R362; log 14). -/
opaque Config.freeByte : Nat → Byte

/-- The n-th element a COPY or COPY2 reads at a position below 0, where 08 R235 and 07 R203 give no element (log 22). -/
opaque Config.freeElement : Nat → Nat

/-- The serving order of the gather engines among rows (08 R240, R241), and other orders the manual does not state:
a free choice below a bound, by a counter of State (log 16). -/
opaque Config.freeChoice : Nat → Nat

/-- The maker key fused in the weighbridge, as its modulus (R427; log 17). -/
opaque Config.makerKey : List Byte

/-- The modulus of an owner key whose SHA-256 alone the device was given (R428 OWNXFER; log 17). -/
opaque Config.ownerKey : BitVec 256 → List Byte

/-- The 384-byte signature the crypto engines make under the identity key (R431, R432; log 17). -/
opaque Config.identitySign : List Byte → BitVec 3072

/-- The n-th fresh 32-byte nonce (R428; log 17). -/
opaque Config.nonce : Nat → BitVec 256

/-- A byte of the identity certificate, and its length (R431; log 17). -/
opaque Config.certByte : Nat → Byte
opaque Config.certLength : Nat

/-- The n-th telemetry value of a counter the manual names but does not define (energy, R383; log 21). -/
opaque Config.telemetry : (counter die n : Nat) → Word

/-- Channel, bank and row of an HBM address, as bytes 1 to 3 of a report's location (16 R383; log 21): the manual gives no
map from addresses to them. -/
opaque Config.hbmPlace : Nat → BitVec 24

/-- How the 256-byte granules of an affinity group are spread over its stacks (R377, log 28). -/
opaque Config.granule : Nat → Nat

/-- The bytes of the n-th saved device state, lowest first, as a number (18 R403; log 25): only rollback reads them, and the
manual gives no layout. -/
opaque Config.deviceState : Nat → Nat

/-- The retry count in the n-th report of a link that has failed (R383, 18 R413; log 29): the budget is not stated. -/
opaque Config.retryCount : Nat → Nat

/-- The ECC syndrome a report carries: it depends on the error pattern only (16 R383; log 21). -/
opaque Config.syndrome : Nat → Word

end Sys2Proof
end

