-- ==== Sys2Proof/Machine/Bits.lean ====
section
/-! DEFINITION. Bit fields, extensions, byte order, sparse tables and byte memories: the primitives of 00 R9 to R11. -/

namespace Sys2Proof.Machine

/-- `bits(x, hi, lo)` of R10. -/
def bits (x hi lo : Nat) : Nat := x / 2 ^ lo % 2 ^ (hi + 1 - lo)

/-- `bits` of a word, as a number. -/
def wbits (x : Word) (hi lo : Nat) : Nat := bits x.toNat hi lo

/-- One bit of a word. -/
def wbit (x : Word) (i : Nat) : Bool := x.toNat / 2 ^ i % 2 == 1

/-- `SX(x, n)` of R10: sign-extension of the low n bits. -/
def sx (x n : Nat) : Int :=
  if x % 2 ^ n < 2 ^ (n - 1) then (x % 2 ^ n : Nat) else (x % 2 ^ n : Nat) - (2 ^ n : Nat)

/-- The signed value of a word. -/
def sval (x : Word) : Int := sx x.toNat 64

/-- `bits(v, 63, 0)` of an integer (R11). -/
def wordI (v : Int) : Word := BitVec.ofInt 64 v

/-- `bits(v, 63, 0)` of a natural number. -/
def wordN (v : Nat) : Word := BitVec.ofNat 64 v

/-- `bits(v, n − 1, 0)` of an integer, as a number. -/
def low (v : Int) (n : Nat) : Nat := (v % ((2 ^ n : Nat) : Int)).toNat

/-- An integer clamped to the range of n-bit two's complement (02 R61). -/
def clampS (v : Int) (n : Nat) : Int :=
  if v < -((2 ^ (n - 1) : Nat) : Int) then -((2 ^ (n - 1) : Nat) : Int)
  else if ((2 ^ (n - 1) : Nat) : Int) - 1 < v then ((2 ^ (n - 1) : Nat) : Int) - 1 else v

/-- True as 1, false as 0. -/
def b2n (b : Bool) : Nat := if b then 1 else 0

/-- Ceiling of a quotient. -/
def ceilDiv (a b : Nat) : Nat := (a + b - 1) / b

/-! ## Sparse tables: key and value pairs, keys rising, an unlisted key has the default -/

/-- A sparse table from natural numbers. -/
abbrev Tab (α : Type) := List (Nat × α)

/-- The value at a key, `d` when it is not listed. -/
def tget {α : Type} (d : α) : Tab α → Nat → α
  | [], _ => d
  | (k, v) :: t, n => if n = k then v else tget d t n

/-- The value at a key, if listed. -/
def tfind {α : Type} : Tab α → Nat → Option α
  | [], _ => none
  | (k, v) :: t, n => if n = k then some v else tfind t n

/-- Set the value at a key. -/
def tset {α : Type} : Tab α → Nat → α → Tab α
  | [], n, x => [(n, x)]
  | (k, v) :: t, n, x =>
    if n < k then (n, x) :: (k, v) :: t else if n = k then (n, x) :: t else (k, v) :: tset t n x

/-- Remove a key. -/
def tdel {α : Type} : Tab α → Nat → Tab α
  | [], _ => []
  | (k, v) :: t, n => if n = k then tdel t n else (k, v) :: tdel t n

/-- Apply a function to every listed value. -/
def tmap {α β : Type} (f : Nat → α → β) : Tab α → Tab β
  | [] => []
  | (k, v) :: t => (k, f k v) :: tmap f t

/-! ## Byte memories (Host.Cell): addresses strictly rising, no entry equal to the unlisted byte 0 -/

/-- A sparse byte memory in canonical form. -/
abbrev Memory := List Host.Cell

/-- What an unlisted byte reads as: zero (log 9). -/
def blankByte : Byte := 0

/-- The byte at an address. -/
def mget : Memory → Nat → Byte
  | [], _ => blankByte
  | (k, v) :: t, a => if a = k then v else mget t a

/-- Write one byte, keeping the canonical form. -/
def mset : Memory → Nat → Byte → Memory
  | [], a, b => if b = blankByte then [] else [(a, b)]
  | (k, v) :: t, a, b =>
    if a < k then (if b = blankByte then (k, v) :: t else (a, b) :: (k, v) :: t)
    else if a = k then (if b = blankByte then t else (a, b) :: t)
    else (k, v) :: mset t a b

/-- The canonical form: addresses strictly rising, no entry equal to the unlisted byte. -/
def Memory.wf : Memory → Bool
  | [] => true
  | [(_, b)] => b ≠ blankByte
  | (a, b) :: (a', b') :: t => (b ≠ blankByte) && (a < a') && Memory.wf ((a', b') :: t)

/-- n bytes at an address, little-endian (R9). -/
def mread (m : Memory) (a : Nat) : Nat → Nat
  | 0 => 0
  | n + 1 => (mget m a).toNat + 256 * mread m (a + 1) n

/-- Write the low n bytes of a number at an address, little-endian (R9). -/
def mwrite (m : Memory) (a v : Nat) : Nat → Memory
  | 0 => m
  | n + 1 => mwrite (mset m a (BitVec.ofNat 8 v)) (a + 1) (v / 256) n

/-- The bytes of a number, lowest first. -/
def bytesLE (v : Nat) : Nat → List Byte
  | 0 => []
  | n + 1 => BitVec.ofNat 8 v :: bytesLE (v / 256) n

/-- The number whose bytes, lowest first, are given. -/
def ofBytesLE : List Byte → Nat
  | [] => 0
  | b :: t => b.toNat + 256 * ofBytesLE t

/-- Write a list of bytes. -/
def mwriteBytes (m : Memory) (a : Nat) : List Byte → Memory
  | [] => m
  | b :: t => mwriteBytes (mset m a b) (a + 1) t

/-- A list of bytes read from an address. -/
def mreadBytes (m : Memory) (a : Nat) : Nat → List Byte
  | 0 => []
  | n + 1 => mget m a :: mreadBytes m (a + 1) n

/-- Write the bytes of v that a mask selects: bit i of the mask is byte i (10 R286). -/
def mwriteMask (m : Memory) (a v mask : Nat) : Nat → Memory
  | 0 => m
  | n + 1 =>
    mwriteMask (if mask % 2 = 1 then mset m a (BitVec.ofNat 8 v) else m) (a + 1) (v / 256) (mask / 2) n

/-- Byte i of a number. -/
def byteOf (v i : Nat) : Nat := v / 256 ^ i % 256

/-- v with the bytes of w that a mask selects put over it (32-byte sectors, 10 R283). -/
def overlay (v w mask : Nat) : Nat → Nat
  | 0 => 0
  | n + 1 => (if mask % 2 = 1 then w % 256 else v % 256) + 256 * overlay (v / 256) (w / 256) (mask / 2) n

/-- A mask with n ones from bit lo. -/
def maskAt (lo n : Nat) : Nat := (2 ^ n - 1) * 2 ^ lo

/-- Population count of the low n bits. -/
def popcount (x : Nat) : Nat → Nat
  | 0 => 0
  | n + 1 => x % 2 + popcount (x / 2) n

/-- Numbers 0 to n − 1. -/
def upto (n : Nat) : List Nat := List.range n

/-- Split a list at the first element that meets a test. -/
def takeFirst {α : Type} (p : α → Bool) : List α → Option (α × List α)
  | [] => none
  | a :: t =>
    if p a then some (a, t) else
      match takeFirst p t with
      | some (x, r) => some (x, a :: r)
      | none => none

/-- Replace the element at a position. -/
def putAt {α : Type} : List α → Nat → α → List α
  | [], _, _ => []
  | _ :: t, 0, x => x :: t
  | a :: t, n + 1, x => a :: putAt t n x

/-- Remove the element at a position. -/
def dropAt {α : Type} : List α → Nat → List α
  | [], _ => []
  | _ :: t, 0 => t
  | a :: t, n + 1 => a :: dropAt t n

end Sys2Proof.Machine
end

