-- ==== Sys2Proof/Machine/Num.lean ====
section
/-! DEFINITION. Number formats and arithmetic (02 R45 to R66): exact values, ROUND in every mode, the floating-point
operations, conversions, and the stochastic generator. Flags are the bits of fxf (R40). -/

namespace Sys2Proof.Machine

/-- fxf bits (R40). -/
abbrev Flags5 := BitVec 5
def fNV : Flags5 := 1
def fDZ : Flags5 := 2
def fOF : Flags5 := 4
def fUF : Flags5 := 8
def fNX : Flags5 := 16
def nvIf (b : Bool) : Flags5 := if b then fNV else 0

/-- A floating-point format: exponent and fraction widths, bias, and E4M3's special rules (R48, R49, R51). -/
structure Fmt where
  e : Nat
  f : Nat
  bias : Nat
  e4m3 : Bool := false
  deriving DecidableEq, Repr

def fp32 : Fmt := { e := 8, f := 23, bias := 127 }
def fp16 : Fmt := { e := 5, f := 10, bias := 15 }
def bf16 : Fmt := { e := 8, f := 7, bias := 127 }
def e5m2 : Fmt := { e := 5, f := 2, bias := 15 }
def e4m3 : Fmt := { e := 4, f := 3, bias := 7, e4m3 := true }

/-- The floating format of a code (R45). -/
def fmtOf : Nat → Option Fmt
  | 6 => some e4m3 | 7 => some e5m2 | 8 => some fp16 | 9 => some bf16 | 10 => some fp32 | _ => none

/-- Element width in bits of a code (R45). -/
def widthOf : Nat → Nat
  | 0 => 8 | 1 => 4 | 2 => 6 | 3 => 16 | 4 => 32 | 5 => 64 | 6 => 8 | 7 => 8 | 8 => 16 | 9 => 16 | 10 => 32
  | 11 => 8 | 12 => 4 | 13 => 8 | 14 => 4 | _ => 64

/-- Elements per 64-bit word of a code (R45). -/
def lanesOf (c : Nat) : Nat := 64 / widthOf c

/-- Marks of the table of R45: short-vector lanes, cell, memory. -/
def laneCode (c : Nat) : Bool := decide (c ≤ 10)
def cellCode (c : Nat) : Bool := decide (c ∈ [0, 1, 6, 7, 8, 9, 10, 11, 12, 13, 14])
def memCode (c : Nat) : Bool := decide (c ≤ 14) && decide (c ≠ 2)
def groupedCode (c : Nat) : Bool := c = 13 || c = 14
def blockCode (c : Nat) : Bool := c = 11 || c = 12

def Fmt.width (m : Fmt) : Nat := 1 + m.e + m.f
def Fmt.signBit (m : Fmt) : Nat := 2 ^ (m.e + m.f)
def Fmt.maxExp (m : Fmt) : Nat := 2 ^ m.e - 1

/-- The canonical NaN (R49). -/
def Fmt.nan (m : Fmt) : Nat := if m.e4m3 then 0x7F else m.maxExp * 2 ^ m.f + 2 ^ (m.f - 1)

/-- Infinity; E4M3 has none and takes its largest finite value (R51). -/
def Fmt.inf (m : Fmt) (neg : Bool) : Nat :=
  b2n neg * m.signBit + (if m.e4m3 then 0x7E else m.maxExp * 2 ^ m.f)

/-- The largest finite encoding. -/
def Fmt.maxFin (m : Fmt) : Nat := if m.e4m3 then 0x7E else m.maxExp * 2 ^ m.f - 1

def Fmt.zero (m : Fmt) (neg : Bool) : Nat := b2n neg * m.signBit

/-- What an encoding stands for: (−1)^neg × mant × 2^exp, an infinity, or a NaN, quiet or signalling (R48 to R50). -/
inductive Val where
  | nan (sig : Bool)
  | inf (neg : Bool)
  | fin (neg : Bool) (mant : Nat) (exp : Int)
  deriving DecidableEq, Repr

/-- The value of an encoding (R48 to R51). -/
def Fmt.val (m : Fmt) (x : Nat) : Val :=
  let neg := x / m.signBit % 2 = 1
  let e := x / 2 ^ m.f % 2 ^ m.e
  let f := x % 2 ^ m.f
  if m.e4m3 && e = m.maxExp && f = 7 then .nan false
  else if !m.e4m3 && e = m.maxExp then
    if f = 0 then .inf neg else .nan (f < 2 ^ (m.f - 1))
  else if e = 0 then .fin neg f (1 - m.bias - m.f)
  else .fin neg (2 ^ m.f + f) (e - m.bias - m.f)

def Val.isNan : Val → Bool | .nan _ => true | _ => false
def Val.isSnan : Val → Bool | .nan true => true | _ => false
def Val.neg : Val → Bool | .nan _ => false | .inf n => n | .fin n _ _ => n
def Val.isZero : Val → Bool | .fin _ 0 _ => true | _ => false
def Val.negate : Val → Val | .nan s => .nan s | .inf n => .inf (!n) | .fin n m e => .fin (!n) m e

/-- An integer's value. -/
def valInt (v : Int) : Val := .fin (decide (v < 0)) v.natAbs 0

/-- True when the rounding of m + rem/2^d (more by less than 2^−d when st) goes to m + 1 (R56, R57). -/
def roundsUp (mode u : Nat) (neg : Bool) (m rem d : Nat) (st : Bool) : Bool :=
  let inex := rem ≠ 0 || st
  match mode with
  | 0 => decide (2 ^ d < 2 * rem) || (decide (2 * rem = 2 ^ d) && d ≠ 0 && (st || m % 2 = 1))
  | 1 => false
  | 2 => inex && !neg
  | 3 => inex && neg
  | 4 => d ≠ 0 && decide (2 ^ d ≤ 2 * rem)
  | _ => decide (u < rem * 65536 / 2 ^ d)

/-- ROUND of R56 and R57 into a format: the exact magnitude is mant × 2^exp, more by less than one unit when st.
Encoding and flags; UF is detected before rounding (R52). -/
def Fmt.round (f : Fmt) (mode u : Nat) (neg : Bool) (mant : Nat) (exp : Int) (st : Bool) : Nat × Flags5 :=
  if mant = 0 && !st then (f.zero neg, 0)
  else
    let emin : Int := 1 - f.bias
    let e : Int := (Nat.log2 mant : Nat) + exp
    let q : Int := (if e < emin then emin else e) - f.f
    let d := (q - exp).toNat
    let m := if exp < q then mant / 2 ^ d else mant * 2 ^ (exp - q).toNat
    let rem := if exp < q then mant % 2 ^ d else 0
    let inex := rem ≠ 0 || st
    let up := roundsUp mode u neg m rem d st
    let m := if up then m + 1 else m
    let code := (q - (emin - f.f)).toNat * 2 ^ f.f + m
    let nx := if inex then fNX else 0
    let uf := if inex && decide (e < emin) then fUF else 0
    if code ≤ f.maxFin then (b2n neg * f.signBit + code, nx ||| uf)
    else
      let toInf : Bool := match mode with | 1 => false | 2 => !neg | 3 => neg | _ => true
      (b2n neg * f.signBit + (if toInf || f.e4m3 then f.inf false else f.maxFin), fOF ||| fNX)

/-- A value rounded into a format (R61): NaN canonical, infinity kept or, for E4M3, NaN with NV (R51). -/
def Fmt.conv (f : Fmt) (mode u : Nat) (v : Val) : Nat × Flags5 :=
  match v with
  | .nan s => (f.nan, nvIf s)
  | .inf n => if f.e4m3 then (f.nan, fNV) else (f.inf n, 0)
  | .fin n m e => f.round mode u n m e false

/-- Infinity as a result: E4M3 writes its largest value with OF and NX (R51). -/
def Fmt.infRes (f : Fmt) (n : Bool) : Nat × Flags5 := if f.e4m3 then (f.inf n, fOF ||| fNX) else (f.inf n, 0)

/-- Signed integer of a finite value at a common exponent. -/
def atExp (n : Bool) (m : Nat) (e q : Int) : Int := let v : Int := (m * 2 ^ (e - q).toNat : Nat); if n then -v else v

/-- Sign of an exact zero sum (R52). -/
def zeroSign (mode : Nat) (n1 n2 : Bool) : Bool := if n1 = n2 then n1 else mode = 3

/-- Exact sum of two finite values, rounded once. -/
def Fmt.addFin (f : Fmt) (mode u : Nat) (n1 : Bool) (m1 : Nat) (e1 : Int) (n2 : Bool) (m2 : Nat) (e2 : Int) : Nat × Flags5 :=
  let q := min e1 e2
  let s := atExp n1 m1 e1 q + atExp n2 m2 e2 q
  if s = 0 then (f.zero (if m1 = 0 && m2 = 0 then zeroSign mode n1 n2 else mode = 3), 0)
  else f.round mode u (decide (s < 0)) s.natAbs q false

/-- x + y (R124). -/
def Fmt.add (f : Fmt) (mode u : Nat) (x y : Val) : Nat × Flags5 :=
  if x.isNan || y.isNan then (f.nan, nvIf (x.isSnan || y.isSnan))
  else match x, y with
    | .inf a, .inf b => if a = b then f.infRes a else (f.nan, fNV)
    | .inf a, _ => f.infRes a
    | _, .inf b => f.infRes b
    | .fin n1 m1 e1, .fin n2 m2 e2 => f.addFin mode u n1 m1 e1 n2 m2 e2
    | _, _ => (f.nan, 0)

/-- x × y (R124). -/
def Fmt.mul (f : Fmt) (mode u : Nat) (x y : Val) : Nat × Flags5 :=
  if x.isNan || y.isNan then (f.nan, nvIf (x.isSnan || y.isSnan))
  else match x, y with
    | .fin n1 m1 e1, .fin n2 m2 e2 => f.round mode u (n1 ^^ n2) (m1 * m2) (e1 + e2) false
    | _, _ => if x.isZero || y.isZero then (f.nan, fNV) else f.infRes (x.neg ^^ y.neg)

/-- x × y + z, fused (R125). -/
def Fmt.fma (f : Fmt) (mode u : Nat) (x y z : Val) : Nat × Flags5 :=
  let badMul : Bool := match x, y with
    | .inf _, .fin _ 0 _ => true
    | .fin _ 0 _, .inf _ => true
    | _, _ => false
  if badMul then (f.nan, fNV)
  else if x.isNan || y.isNan || z.isNan then (f.nan, nvIf (x.isSnan || y.isSnan || z.isSnan))
  else match x, y, z with
    | .fin n1 m1 e1, .fin n2 m2 e2, .fin n3 m3 e3 => f.addFin mode u (n1 ^^ n2) (m1 * m2) (e1 + e2) n3 m3 e3
    | .fin _ _ _, .fin _ _ _, .inf c => f.infRes c
    | _, _, .inf c => if (x.neg ^^ y.neg) = c then f.infRes c else (f.nan, fNV)
    | _, _, _ => f.infRes (x.neg ^^ y.neg)

/-- x / y (R126), exact quotient with a sticky remainder. -/
def Fmt.div (f : Fmt) (mode u : Nat) (x y : Val) : Nat × Flags5 :=
  if x.isNan || y.isNan then (f.nan, nvIf (x.isSnan || y.isSnan))
  else
    let n := x.neg ^^ y.neg
    match x, y with
    | .inf _, .inf _ => (f.nan, fNV)
    | .inf _, _ => f.infRes n
    | _, .inf _ => (f.zero n, 0)
    | .fin _ m1 e1, .fin _ m2 e2 =>
      if m2 = 0 then (if m1 = 0 then (f.nan, fNV) else (f.inf n, fDZ))
      else
        let k := f.f + 60 + Nat.log2 m2
        f.round mode u n (m1 * 2 ^ k / m2) (e1 - e2 - k) (m1 * 2 ^ k % m2 ≠ 0)
    | _, _ => (f.nan, 0)

/-- floor of the square root, by bits from the highest. -/
def isqrt (v : Nat) : (bits : Nat) → (r : Nat) → Nat
  | 0, r => r
  | i + 1, r => isqrt v i (if (r + 2 ^ i) * (r + 2 ^ i) ≤ v then r + 2 ^ i else r)

/-- floor(√v). -/
def floorSqrt (v : Nat) : Nat := isqrt v (Nat.log2 v / 2 + 1) 0

/-- √x (R126). -/
def Fmt.sqrt (f : Fmt) (mode u : Nat) (x : Val) : Nat × Flags5 :=
  match x with
  | .nan s => (f.nan, nvIf s)
  | .inf n => if n then (f.nan, fNV) else f.infRes false
  | .fin n m e =>
    if m = 0 then (f.zero n, 0)
    else if n then (f.nan, fNV)
    else
      let k := 2 * (f.f + 60)
      let (m, e) := if e % 2 = 0 then (m, e) else (2 * m, e - 1)
      let v := m * 2 ^ k
      let r := floorSqrt v
      f.round mode u false r ((e - k) / 2) (r * r ≠ v)

/-! ## Comparison (R52, R121, R127) -/

/-- x < y, −0 equal to +0; never true of a NaN. -/
def Val.lt (x y : Val) : Bool :=
  match x, y with
  | .nan _, _ => false
  | _, .nan _ => false
  | .inf a, .inf b => a && !b
  | .inf a, _ => a
  | _, .inf b => !b
  | .fin n1 m1 e1, .fin n2 m2 e2 => let q := min e1 e2; decide (atExp n1 m1 e1 q < atExp n2 m2 e2 q)

/-- x = y for values that are not NaN. -/
def Val.eq (x y : Val) : Bool := !x.isNan && !y.isNan && !x.lt y && !y.lt x

/-- x < y with −0 below +0 (R52). -/
def Val.below (x y : Val) : Bool := x.lt y || (x.isZero && y.isZero && x.neg && !y.neg)

/-- The lesser (or greater) of two encodings (R127). -/
def Fmt.minMax (f : Fmt) (isMax : Bool) (a b : Nat) : Nat × Flags5 :=
  let x := f.val a
  let y := f.val b
  if x.isSnan || y.isSnan then (f.nan, fNV)
  else if x.isNan && y.isNan then (f.nan, 0)
  else if x.isNan then (b, 0)
  else if y.isNan then (a, 0)
  else if isMax then (if x.below y then b else a, 0) else (if y.below x then b else a, 0)

/-! ## Integers (R61, R62) -/

/-- ROUND to an integer. -/
def roundInt (mode u : Nat) (n : Bool) (m : Nat) (e : Int) : Int × Bool :=
  let d := (-e).toNat
  let q := if e < 0 then m / 2 ^ d else m * 2 ^ e.toNat
  let rem := if e < 0 then m % 2 ^ d else 0
  let q := if roundsUp mode u n q rem d false then q + 1 else q
  (if n then -(q : Int) else q, rem ≠ 0)

/-- A value converted to INTn (R62). -/
def toInt (n mode u : Nat) (v : Val) : Int × Flags5 :=
  match v with
  | .nan _ => (0, fNV)
  | .inf neg => (if neg then -(2 ^ (n - 1) : Nat) else (2 ^ (n - 1) : Nat) - 1, fNV)
  | .fin neg m e =>
    let (t, inex) := roundInt mode u neg m e
    if t < -((2 ^ (n - 1) : Nat) : Int) then (-((2 ^ (n - 1) : Nat) : Int), fNV)
    else if ((2 ^ (n - 1) : Nat) : Int) - 1 < t then (((2 ^ (n - 1) : Nat) : Int) - 1, fNV)
    else (t, if inex then fNX else 0)

/-- CONVERT between two ungrouped formats, by code (R61, R62, R192). -/
def convert (src dst mode u x : Nat) : Nat × Flags5 :=
  let n := widthOf dst
  match fmtOf src, fmtOf dst with
  | none, none => (low (clampS (sx x (widthOf src)) n) n, 0)
  | none, some g => g.conv mode u (valInt (sx x (widthOf src)))
  | some f, none => let (v, fl) := toInt n mode u (f.val x); (low v n, fl)
  | some f, some g => g.conv mode u (f.val x)

/-- True of a pair of formats whose conversion rounds (R192). -/
def convRounds (src dst : Nat) : Bool := (fmtOf src).isSome || (fmtOf dst).isSome

/-! ## The stochastic generator (R58, R59) -/

def lcgA : Word := 0x9E3779B97F4A7C15
def lcgC : Word := 0x6A09E667F3BCC909

/-- The next generator state. -/
def seedNext (s : Word) : Word := s * lcgA + lcgC

/-- u of a state. -/
def seedU (s : Word) : Nat := (wbits s 63 48) ^^^ (wbits s 31 16)

/-- The seed of a thread start (R59). -/
def seedStart (jseed : Word) (lcn tid : Nat) : Word := (jseed ^^^ wordN (lcn * 16 + tid)) * lcgA + lcgC

/-- The rounding of an instruction under way: mode, generator state, flags raised. -/
structure Rc where
  mode : Nat
  seed : Word
  fl : Flags5 := 0
  deriving DecidableEq, Repr

/-- One rounded element: in mode SR it consumes one step (R60). -/
def Rc.elem (r : Rc) (op : (mode u : Nat) → Nat × Flags5) : Rc × Nat :=
  if r.mode = 5 then
    let sd := seedNext r.seed
    let (v, fl) := op 5 (seedU sd)
    ({ r with seed := sd, fl := r.fl ||| fl }, v)
  else
    let (v, fl) := op r.mode 0
    ({ r with fl := r.fl ||| fl }, v)

/-- An element that does not round. -/
def Rc.flag (r : Rc) (x : Nat × Flags5) : Rc × Nat := ({ r with fl := r.fl ||| x.2 }, x.1)

/-! ## Special functions (R196). Internal values carry 80 fraction bits or more. -/

/-- 2^f for a fraction f of 64 bits, in units of 2^−80: products of the square roots of roots of 2. -/
def exp2Frac (f : Nat) : (bits : Nat) → (c r : Nat) → Nat
  | 0, _, r => r
  | i + 1, c, r =>
    let c := floorSqrt (c * 2 ^ 80)
    exp2Frac f i c (if f / 2 ^ i % 2 = 1 then r * c / 2 ^ 80 else r)

/-- Fraction bits of log2 of m / 2^160 in [1, 2), by repeated squaring. -/
def log2Frac : (bits : Nat) → (m acc : Nat) → Nat
  | 0, _, acc => acc
  | i + 1, m, acc =>
    let m := m * m / 2 ^ 160
    if 2 ^ 161 ≤ m then log2Frac i (m / 2) (2 * acc + 1) else log2Frac i m (2 * acc)

/-- An exact or internal result: sign, magnitude mant × 2^exp, and whether it is inexact. -/
structure Spec where
  neg : Bool
  mant : Nat
  exp : Int
  deriving DecidableEq, Repr

/-- The offset of log 13 in units of 2^−53. -/
def specOff (fn fmt lane : Nat) : Int :=
  (((Config.specialOffset fn fmt lane).toNat : Int) - 2147483648) * 65535 / 65536

/-- A magnitude moved by the relative offset. -/
def Spec.relative (s : Spec) (off : Int) : Spec :=
  { s with mant := ((s.mant : Int) * (2 ^ 53 + off)).toNat, exp := s.exp - 53 }

/-- 2^x of a finite x: exact for an integer, otherwise the internal value. -/
def exp2Val (off : Int) (n : Bool) (m : Nat) (e : Int) : Spec × Bool :=
  let v := fun (q : Int) => atExp n m e q
  if 0 ≤ e || m % 2 ^ (-e).toNat = 0 then
    let k : Int := if 0 ≤ e then v 0 else (if n then -(m / 2 ^ (-e).toNat : Nat) else (m / 2 ^ (-e).toNat : Nat))
    let k := if k < -2000 then -2000 else if 2000 < k then 2000 else k
    ({ neg := false, mant := 1, exp := k }, true)
  else
    -- x in units of 2^−64, floored
    let t : Int := if e < -64 then (if n then -(((m + (2 ^ (-64 - e).toNat - 1)) / 2 ^ (-64 - e).toNat : Nat) : Int)
        else ((m / 2 ^ (-64 - e).toNat : Nat) : Int)) else v (-64)
    let k := t / 18446744073709551616
    let f := (t % 18446744073709551616).toNat
    ((Spec.mk false (exp2Frac f 64 (2 ^ 81) (2 ^ 80)) ((if k < -2000 then -2000 else if 2000 < k then 2000 else k) - 80)).relative off,
      false)

/-- log2 x of a positive finite x: exact for a power of two. Where |log2 x| < 1 the table's bound is an absolute one. -/
def log2Val (off : Int) (m : Nat) (e : Int) : Spec × Bool :=
  let b := Nat.log2 m
  if m = 2 ^ b then
    let k : Int := (b : Nat) + e
    ({ neg := decide (k < 0), mant := k.natAbs, exp := 0 }, true)
  else
    let f := log2Frac 64 (m * 2 ^ 160 / 2 ^ b) 0
    let t : Int := ((b : Nat) + e) * 18446744073709551616 + f
    if t.natAbs < 2 ^ 64 then
      let v : Int := t * 1048576 + off * 2147483648
      ({ neg := decide (v < 0), mant := v.natAbs, exp := -84 }, false)
    else (Spec.relative { neg := decide (t < 0), mant := t.natAbs, exp := -64 } off, false)

/-- 1 / x of a finite x that is not zero: exact for a power of two. -/
def rcpVal (off : Int) (n : Bool) (m : Nat) (e : Int) : Spec × Bool :=
  let b := Nat.log2 m
  if m = 2 ^ b then ({ neg := n, mant := 1, exp := -((b : Nat) : Int) - e }, true)
  else (Spec.relative { neg := n, mant := 2 ^ (b + 120) / m, exp := -((b : Nat) : Int) - 120 - e } off, false)

/-- 1 / √x of a positive finite x: exact for a power of four. -/
def rsqVal (off : Int) (m : Nat) (e : Int) : Spec × Bool :=
  let b := Nat.log2 m
  if m = 2 ^ b && ((b : Nat) + e) % 2 = 0 then ({ neg := false, mant := 1, exp := -(((b : Nat) + e) / 2) }, true)
  else
    let (m, e) := if e % 2 = 0 then (m, e) else (2 * m, e - 1)
    let k := 2 * (Nat.log2 m / 2 + 100)
    let r := floorSqrt (2 ^ (2 * k) / m)
    (Spec.relative { neg := false, mant := r, exp := -((k : Nat) : Int) - e / 2 } off, false)

/-- An internal value y kept within four units in the last place of the exact value x once it is rounded (R196): between the
lowest and the highest values of the format that lie so. The exact value is known to 2^−16 of such a unit (log 13). -/
def Fmt.within4 (f : Fmt) (x y : Spec) : Spec :=
  let emin : Int := 1 - f.bias
  let e := max emin ((Nat.log2 x.mant : Int) + x.exp)
  let q := min (min x.exp y.exp) (e - f.f - 16)
  let at' := fun (z : Spec) => atExp (z.neg ≠ x.neg) z.mant z.exp q
  let unit : Int := 2 ^ (e - f.f - q).toNat
  let foot : Int := 2 ^ (e - q).toNat
  let top := atExp false (2 ^ (f.f + 1) - 1) (f.maxExp - 1 - f.bias - f.f) q
  let lo := at' x + unit / 65536 - 4 * unit
  let hi := at' x - unit / 65536 + 4 * unit
  -- the spacing of the format's values below 2^e is half, from 2^(e + 1) on twice
  let below := if lo < foot ∧ emin < e then unit / 2 else unit
  let above := if hi < 2 * foot then unit else 2 * unit
  let lo := max 0 (-(-lo / below) * below)
  let hi := hi / above * above
  let hi := if at' x ≤ top then min hi top else hi
  let v := if at' y < lo then lo else if hi ≤ at' y then hi - 1 else at' y
  { neg := x.neg, mant := v.toNat, exp := q }

/-- The rounding of a special function's value (R196), given at every offset: an exact value the format holds, or that overflows
it, is taken as it is; any other is internal, inexact and sets NX. -/
def Fmt.special (f : Fmt) (off : Int) (mode u : Nat) (val : Int → Spec × Bool) : Nat × Flags5 :=
  let r := val 0
  let fl := (f.round 1 0 r.1.neg r.1.mant r.1.exp false).2
  if r.2 && (fl = 0 || fl &&& fOF ≠ 0) then f.round mode u r.1.neg r.1.mant r.1.exp false
  else
    let y := if r.2 then r.1.relative off else (val off).1
    let y := if f.f = 23 then f.within4 r.1 y else y
    f.round mode u y.neg y.mant y.exp true

/-- VEXP2 (0), VLOG2 (1), VRCP (2), VRSQ (3) of a lane in a floating format (R196). -/
def specialFn (fn fmt : Nat) (f : Fmt) (lane mode u : Nat) : Nat × Flags5 :=
  let off := specOff fn fmt lane
  match fn, f.val lane with
  | _, .nan s => (f.nan, nvIf s)
  | 0, .inf n => if n then (f.zero false, 0) else (f.inf false, 0)
  | 0, .fin n m e => if m = 0 then f.special off mode u (fun _ => (⟨false, 1, 0⟩, true)) else f.special off mode u (fun o => exp2Val o n m e)
  | 1, .inf n => if n then (f.nan, fNV) else (f.inf false, 0)
  | 1, .fin n m e =>
    if m = 0 then (f.inf true, fDZ)
    else if n then (f.nan, fNV) else f.special off mode u (fun o => log2Val o m e)
  | 2, .inf n => (f.zero n, 0)
  | 2, .fin n m e => if m = 0 then (f.inf n, fDZ) else f.special off mode u (fun o => rcpVal o n m e)
  | _, .inf n => if n then (f.nan, fNV) else (f.zero false, 0)
  | _, .fin n m e =>
    if m = 0 then (f.inf n, fDZ) else if n then (f.nan, fNV) else f.special off mode u (fun o => rsqVal o m e)

end Sys2Proof.Machine
end

