-- ==== Sys2Proof/Machine/CellOps.lean ====
section
/-! DEFINITION. Arithmetic in the cell (02 R65 to R70) and grouped conversion (R64): exact sums rounded once. -/

namespace Sys2Proof.Machine

/-- The exact product of two values: zero times infinity is a NaN (R65). -/
def Val.times (x y : Val) : Val :=
  match x, y with
  | .nan s, _ => .nan s
  | _, .nan s => .nan s
  | .fin n1 m1 e1, .fin n2 m2 e2 => .fin (n1 ^^ n2) (m1 * m2) (e1 + e2)
  | _, _ => if x.isZero || y.isZero then .nan false else .inf (x.neg ^^ y.neg)

/-- Least exponent of a list of finite values. -/
def leastExp (l : List Val) : Int :=
  l.foldl (fun q v => match v with | .fin _ _ e => min q e | _ => q) 0

/-- The exact sum of finite values at an exponent. -/
def sumAt (q : Int) (l : List Val) : Int :=
  l.foldl (fun a v => match v with | .fin n m e => a + atExp n m e q | _ => a) 0

/-- An FP32 sum of exact terms, rounded once to nearest even: encoding, invalid, overflow (R66). A zero sum is −0 only
when every term is −0. -/
def sumTerms (l : List Val) : Nat × Bool × Bool :=
  let pinf := l.any (fun v => decide (v = .inf false))
  let ninf := l.any (fun v => decide (v = .inf true))
  if l.any Val.isNan || (pinf && ninf) then (fp32.nan, true, false)
  else if pinf then (fp32.inf false, false, false)
  else if ninf then (fp32.inf true, false, false)
  else
    let q := leastExp l
    let s := sumAt q l
    if s = 0 then (fp32.zero (l.all (fun v => v.isZero && v.neg)), false, false)
    else
      let r := fp32.round 0 0 (decide (s < 0)) s.natAbs q false
      (r.1, false, r.2 &&& fOF ≠ 0)

/-- Sticky conditions a cell raises: integer overflow, invalid, overflow (R66). -/
structure Sticky where
  iovf : Bool := false
  inv : Bool := false
  ovf : Bool := false
  deriving DecidableEq, Repr

def Sticky.or (x y : Sticky) : Sticky := { iovf := x.iovf || y.iovf, inv := x.inv || y.inv, ovf := x.ovf || y.ovf }

/-- One update of an accumulator lane by the products of a pulse or k-step (R66). -/
def cellUpdate (fmt : Nat) (acc : BitVec 32) (ps : List (Nat × Nat)) : BitVec 32 × Sticky :=
  match fmtOf fmt with
  | none =>
    let n := widthOf fmt
    let v := acc.toInt + ps.foldl (fun a p => a + sx p.1 n * sx p.2 n) 0
    (BitVec.ofInt 32 v, { iovf := decide (v < -2147483648) || decide (2147483647 < v) })
  | some m =>
    let r := sumTerms (fp32.val acc.toNat :: ps.map (fun p => (m.val p.1).times (m.val p.2)))
    (BitVec.ofNat 32 r.1, { inv := r.2.1, ovf := r.2.2 })

/-- The close of a grouped lane (R68): scales as FP16 encodings. -/
def closeGrouped (ac fa sa sb : BitVec 32) (n : Nat) (alpha beta : Nat) (za zb : Int) : BitVec 32 × Sticky :=
  let c := ac.toInt - zb * sa.toInt - za * sb.toInt + n * za * zb
  let r := sumTerms [fp32.val fa.toNat, ((fp16.val alpha).times (fp16.val beta)).times (valInt c)]
  (BitVec.ofNat 32 r.1, { inv := r.2.1, ovf := r.2.2 })

/-- The close of a K-format lane (R69): block exponents. -/
def closeBlock (ac fa : BitVec 32) (ea eb : Nat) : BitVec 32 × Sticky :=
  if ea = 255 ∨ eb = 255 then (BitVec.ofNat 32 fp32.nan, { inv := true })
  else
    let v : Val := .fin (decide (ac.toInt < 0)) ac.toInt.natAbs ((ea + eb : Nat) - 254)
    let r := sumTerms [fp32.val fa.toNat, v]
    (BitVec.ofNat 32 r.1, { inv := r.2.1, ovf := r.2.2 })

/-- Conversion into a grouped element with its group's scale and zero point (R64). -/
def toGrouped (n mode u : Nat) (x : Val) (sigma : Nat) (z : Int) : Nat × Flags5 :=
  match x, fp16.val sigma with
  | .fin n1 m1 e1, .fin n2 m2 e2 =>
    if m2 = 0 then (low z n, fNV)
    else
      -- the quotient in units of 2^−64, with a sticky lowest bit
      let k := 64 + Nat.log2 m2 + (e1 - e2).toNat
      let q := m1 * 2 ^ k / m2
      let st := m1 * 2 ^ k % m2 ≠ 0
      let (t, inex) := roundInt mode u (n1 ^^ n2) (2 * q + b2n st) (e1 - e2 - k - 1)
      let v := t + z
      let cl := clampS v n
      (low cl n, (if inex then fNX else 0) ||| nvIf (cl ≠ v))
  | _, _ => (low z n, fNV)

end Sys2Proof.Machine
end

