-- ==== Sys2Proof/Machine/Ev.lean ====
section
/-! DEFINITION. The steps the machine itself puts in flight: the rows of the opcode table without an instruction word
whose arguments are numbers, under the names and with the arguments they have in Sys2Proof/Syntax.lean. -/

namespace Sys2Proof.Machine

/-- A step in flight. -/
inductive Ev where
  /-- POWER_ON_RESET (R359). -/
  | powerOnReset
  /-- SPILL (R27). -/
  | spill (c t : Nat)
  /-- FILL (R27). -/
  | fill (c t : Nat)
  /-- SCOREBOARD_RETIREMENT (R270). -/
  | scoreboardRetirement (c : Nat)
  /-- TAPE_APPEND (R256). -/
  | tapeAppend (c : Nat)
  /-- REMOTE_REPLY (R142). -/
  | remoteReply (c t : Nat)
  /-- SECTOR_FETCH (R283). -/
  | sectorFetch (c f : Nat)
  /-- READ_SET_INSTALL (R283). -/
  | readSetInstall (c f : Nat)
  /-- SECTOR_DRAIN (R286). -/
  | sectorDrain (c e : Nat)
  /-- DRAIN_ACKNOWLEDGEMENT (R286). -/
  | drainAcknowledgement (c e : Nat)
  /-- LDA_AT_HOME (R150). -/
  | ldaAtHome (c t : Nat)
  /-- STREL_AT_HOME (R151). -/
  | strelAtHome (c t : Nat)
  /-- ATOMIC_AT_HOME (R156). -/
  | atomicAtHome (c t : Nat)
  /-- FE_AT_HOME (R160). -/
  | feAtHome (c t : Nat)
  /-- FE_WITHDRAWAL (R161). -/
  | feWithdrawal (c n : Nat)
  /-- FE_LIMIT_EXPIRY (R159). -/
  | feLimitExpiry (c t : Nat)
  /-- WAITGE_AT_HOME (R168). -/
  | waitgeAtHome (c t : Nat)
  /-- COUNTER_LIMIT_EXPIRY (R168). -/
  | counterLimitExpiry (c t : Nat)
  /-- SLEEP_TIMEOUT (R166). -/
  | sleepTimeout (c t : Nat)
  /-- EVENT_ARRIVAL (R167). -/
  | eventArrival (c t : Nat)
  /-- PORT_ENTRY_ARRIVAL (R164). -/
  | portEntryArrival (c d : Nat)
  /-- ORDER_TOKEN_GRANT (R153). -/
  | orderTokenGrant (c t : Nat)
  /-- BARRIER_EPISODE_COMPLETE (R165). -/
  | barrierEpisodeComplete (b : Nat)
  /-- CKPT_COLLECTIVE (R404). -/
  | ckptCollective (f : Nat)
  /-- GANGER_EXIT_COMPLETE (R22). -/
  | gangerExitComplete (c : Nat)
  /-- ICACHE_LINE_FILL (R271). -/
  | icacheLineFill (c t : Nat)
  /-- TRANSLATION_WALK (R273). -/
  | translationWalk (c t : Nat)
  /-- INVALIDATION (R275). -/
  | invalidation (p c : Nat)
  /-- TRANSLATION_CHANGE_COMPLETE (R275). -/
  | translationChangeComplete (p : Nat)
  /-- SEQUENCER_ACCEPT (R228). -/
  | sequencerAccept (c : Nat)
  /-- K_STEP (R208). -/
  | kStep (c : Nat)
  /-- ENGINE_COMMAND_COMPLETE (R230). -/
  | engineCommandComplete (c q : Nat)
  /-- ENGINE_FAULT (R232). -/
  | engineFault (c q : Nat)
  /-- QJOIN_FENCE_COMPLETE (R243). -/
  | qjoinFenceComplete (c : Nat)
  /-- RING_CHUNK_START (R237). -/
  | ringChunkStart (c : Nat)
  /-- RING_CHUNK_COMPLETE (R312). -/
  | ringChunkComplete (c : Nat)
  /-- FEEDS_WORD_DELIVERY (R217). -/
  | feedsWordDelivery (c : Nat)
  /-- GATHER_LEAD (R314). -/
  | gatherLead (c : Nat)
  /-- GATHER_WINDOW_CLOSE (R314). -/
  | gatherWindowClose (c : Nat)
  /-- STEAL_REQUEST (R254). -/
  | stealRequest (c t : Nat)
  /-- RAMP_CREDIT_REFILL (R301). -/
  | rampCreditRefill (d : Nat)
  /-- LEAVE_GRANT (R301). -/
  | leaveGrant (d : Nat)
  /-- LEAVE_RETURN (R302). -/
  | leaveReturn (d : Nat)
  /-- CLAIM (R215). -/
  | claim (c t : Nat)
  /-- FREEZE (R214). -/
  | freeze (b : Nat)
  /-- LATCH_PULSE (R219). -/
  | latchPulse (c : Nat)
  /-- WS_DATA_PULSE (R219). -/
  | wsDataPulse (c : Nat)
  /-- RS_DATA_PULSE (R220). -/
  | rsDataPulse (c : Nat)
  /-- SCALE_PULSE (R220). -/
  | scalePulse (c : Nat)
  /-- ZERO_POINT_PULSE (R220). -/
  | zeroPointPulse (c : Nat)
  /-- END_PULSE (R220). -/
  | endPulse (c : Nat)
  /-- THAW_RETURN (R221). -/
  | thawReturn (b : Nat)
  /-- DOORBELL_WRITE (R332). -/
  | doorbellWrite (p q : Nat)
  /-- DISPATCH (R336). -/
  | dispatch (p : Nat)
  /-- GANGER_START (R341). -/
  | gangerStart (f : Nat)
  /-- REPLAY_FALLBACK (R350). -/
  | replayFallback (f : Nat)
  /-- CORE_PART_END (R337). -/
  | corePartEnd (c : Nat)
  /-- RETIREMENT (R338). -/
  | retirement (f : Nat)
  /-- DRY_TIMER_EXPIRY (R346). -/
  | dryTimerExpiry (c : Nat)
  /-- CORE_RECAST (R347). -/
  | coreRecast (c r : Nat)
  /-- MIGRATION_SWITCH (R352). -/
  | migrationSwitch (c : Nat)
  /-- MIGRATION_RESUME (R352). -/
  | migrationResume (c : Nat)
  /-- PART_SEND (R361). -/
  | partSend (n : Nat)
  /-- PART_ACKNOWLEDGEMENT (R361). -/
  | partAcknowledgement (n : Nat)
  /-- INBOUND_READ (R362). -/
  | inboundRead (port fn bar off len : Nat)
  /-- INBOUND_READ_PERFORM (R362). -/
  | inboundReadPerform (n : Nat)
  /-- PEER_REPLY_TIMEOUT (R374). -/
  | peerReplyTimeout (c : Nat)
  /-- HAUL_PORT_FAILURE (R371). -/
  | haulPortFailure (i : Nat)
  /-- TELEMETRY_INTERVAL (R384). -/
  | telemetryInterval (p : Nat)
  /-- CHECKPOINT_INTERVAL (R354). -/
  | checkpointInterval (p : Nat)
  /-- TRAP_SERVICE (R391). -/
  | trapService (d n : Nat)
  /-- KILL_MESSAGE (R398). -/
  | killMessage (c x : Nat)
  /-- KILL_SWEEP_END (R399). -/
  | killSweepEnd (c x : Nat)
  /-- KILL_CONFIRMATION (R399). -/
  | killConfirmation (f : Nat)
  /-- ROLLBACK_RESTORE (R408). -/
  | rollbackRestore (f : Nat)
  /-- CHANNEL_RETIREMENT (R413). -/
  | channelRetirement (e d : Nat)
  /-- EDGE_DOWN (R414). -/
  | edgeDown (e : Nat)
  /-- UE_CORE_STATE (R426). -/
  | ueCoreState (c : Nat)
  /-- SCRUB (R425). -/
  | scrub (u : Nat)
  /-- SENSOR_READ (R423). -/
  | sensorRead (d n v : Nat)
  /-- LEASE_RENEWAL (R420). -/
  | leaseRenewal
  /-- LEASE_TAKEOVER (R420). -/
  | leaseTakeover (i : Nat)
  /-- ROW_GATE (R434). -/
  | rowGate (d r : Nat)
  /-- ROW_UNGATE (R434). -/
  | rowUngate (d r : Nat)
  /-- BREAKPOINT_HIT (R439). -/
  | breakpointHit (c t : Nat)
  /-- DEBUG_EVENT_DELIVERY (R440). -/
  | debugEventDelivery (p : Nat)
  /-- HLT_CLEAR (R369). -/
  | hltClear (p q : Nat)
  /-- INV (R365). -/
  | invRange (p : Nat)
  /-- LOAD (R381). -/
  | loadKey (p : Nat)
  /-- REVOKE (R381). -/
  | revoke (p : Nat)
  /-- IMPORT (R365). -/
  | importEntry (p : Nat)
  /-- EXPORT (R372). -/
  | exportRange (p : Nat)
  /-- ATTREQ (R432). -/
  | attreq (p : Nat)
  /-- TACT_KILL (R391). -/
  | tactKill (p n : Nat)
  /-- TACT_REPLAY (R391). -/
  | tactReplay (p n : Nat)
  /-- TACT_PARK (R391). -/
  | tactPark (p n : Nat)
  /-- TACT_FORWARD (R394). -/
  | tactForward (p n : Nat)
  /-- TACT_ROLLBACK (R391). -/
  | tactRollback (p n : Nat)
  /-- MIGRATE (R351). -/
  | migrateCore (p : Nat)
  /-- RECAST (R368). -/
  | recastCmd (p : Nat)
  /-- PLACE (R368). -/
  | placeQueue (p : Nat)
  /-- CREATE (R376). -/
  | createPart
  /-- DESTROY (R376). -/
  | destroyPart
  /-- CKSET (R367). -/
  | ckset
  /-- KILL (R367). -/
  | killCtx
  /-- KRET (R367). -/
  | kret
  /-- VERIFY (R428). -/
  | verifyImage
  /-- ACTIVATE (R428). -/
  | activate
  /-- SVNSET (R429). -/
  | svnset
  /-- OWNADD (R428). -/
  | ownadd
  /-- NONCE (R428). -/
  | freshNonce
  /-- OWNXFER (R430). -/
  | ownxfer
  /-- ATTEST (R432). -/
  | attest
  /-- HALT (R436). -/
  | haltSlots (p : Nat)
  /-- HALTC (R436). -/
  | haltc (p : Nat)
  /-- RESUME (R436). -/
  | resumeSlots (p : Nat)
  /-- STEP (R439). -/
  | stepSlot (p : Nat)
  /-- RDREG (R436). -/
  | rdreg (p : Nat)
  /-- WRREG (R436). -/
  | wrreg (p : Nat)
  /-- RDSPR (R436). -/
  | rdspr (p : Nat)
  /-- RDCELL (R436). -/
  | rdcell (p : Nat)
  /-- BRKSET (R436). -/
  | brkset (p : Nat)
  /-- BRKCLR (R436). -/
  | brkclr (p : Nat)
  /-- DEBUG_THAW (R436). -/
  | debugThaw (p : Nat)
  /-- BARRD (R436). -/
  | barrd (p : Nat)
  /-- EFFECTIVE_PRIORITY_RISE (R336). -/
  | effectivePriorityRise (p q : Nat)
  /-- TRAP_RECORD_DELIVERY (R370). -/
  | trapRecordDelivery (p : Nat)
  /-- LINK_RETRY (R371). -/
  | linkRetry (k loc n : Nat)
  /-- TRANSIT_FLIT (R371). -/
  | transitFlit (pkg flit : Nat)
  /-- MESH_PACKET_DISCARD (R383). -/
  | meshPacketDiscard (c op mask : Nat)
  /-- PCIE_LINK_TRAINING (R357). -/
  | pcieLinkTraining (port rate width : Nat)
  /-- ATOMIC_ENGINE_LINE_WRITEBACK (R280). -/
  | atomicEngineLineWriteback (cl line : Nat)
  deriving DecidableEq, Repr

end Sys2Proof.Machine
end

