-- ==== Sys2Proof/Machine/State.lean ====
section
/-! DEFINITION. The state of the JR-9 package: every piece of state the manual names, as plain data, and the state
after power-on reset. Rule numbers stand beside each field; reset values the manual does not give are named in
notes/assumptions/8.md to 12.md. Positions of cores are package positions Y × 1008 + X (R5, R6). -/

namespace Sys2Proof.Machine

/-- Why the machine stops. Every effect of the JR-9 the manual describes is a next state (a trap parks a thread), so a
fault is never raised; the type keeps one name for it. -/
inductive Fault where
  /-- Raised by nothing in this model: no condition of the manual stops the machine itself. Safe. -/
  | stopped
  deriving DecidableEq, Repr

/-- Why an instruction has no meaning. -/
inductive Refusal where
  /-- Raised by an arm of exec that has no meaning yet, naming the row of the opcode table. Safe. -/
  | notModelled (mnemonic : String)
  deriving DecidableEq, Repr

/-- Trap causes (18 R388). -/
inductive Cause where
  | illegal | priv | window | align | page | prot | collapse | keyrev | ue | copyue | fetime | cnttime
  | patinv | patfault | tapefault | benchlink | wstack | brk | trapi
  deriving DecidableEq, Repr

/-- An import entry (16 R373): doublewords 0 to 2. -/
structure Import where
  dw0 : Word
  dw1 : Word
  dw2 : Word
  deriving DecidableEq, Repr

/-- Where an access is performed, fixed at issue (05 R145, 10 R280, R281). A sector is known by its key slot, or its import
entry, too: one physical sector reached under two key slots is two (log 106). -/
inductive Dest where
  /-- A local store: the position named and the offset. -/
  | ls (pos off : Nat)
  /-- HBM: partition × 2^40 + PPA, and the key slot of the page. -/
  | hbm (pa slot : Nat)
  /-- Peer or host memory: partition, import handle and offset, and the entry as it stood (09 R275). -/
  | imp (part handle off : Nat) (e : Import)
  deriving DecidableEq, Repr

/-- A request sent to a home or another agent, whose reply the thread awaits. -/
inductive ReqKind where
  /-- LDA (R150): width, zero-extension, scope. -/
  | lda (dst : Dest) (n : Nat) (u : Bool) (scope : Nat)
  /-- STREL's own write (R151). -/
  | strel (dst : Dest) (n : Nat) (v : Nat)
  /-- An atomic (R156): op, doubleword, operand y and expected value e. -/
  | atomic (op : Nat) (dbl : Bool) (dst : Dest) (y e : Nat)
  /-- A full-or-empty operation (R159): op, value and FESET state. -/
  | fe (op : Nat) (dst : Dest) (v : Nat)
  /-- A read of WAITGE's counter (R168). -/
  | waitge (dst : Dest) (target : Nat)
  /-- DQSTEAL (R254), by the victim's logical core number. -/
  | steal (lcn : Nat)
  deriving DecidableEq, Repr

/-- What a thread does when the drains it awaits are acknowledged (R152 to R155, R165). -/
inductive After where
  | pend
  | rel
  | sc (scope : Nat)
  | bar (k scope : Nat)
  | req (rd : Reg) (k : ReqKind) (a : Word)
  deriving DecidableEq, Repr

/-- A command, or TLD, of a tape being replayed (R262): entry index, word, operand values, recorded sq values and
descriptor version. -/
structure TapeItem where
  idx : Nat
  word : BitVec 32
  vals : List Word
  sq0 : Word
  sqr : Word
  ver : Nat
  deriving DecidableEq, Repr

/-- One access of a store, TST or MST whose checks are past (R145, R210): a remote store of n bytes, an own one, an own one
beyond the implemented offsets, an element dropped beyond an extent. -/
inductive Piece where
  | far (d : Dest) (v n : Nat)
  | own (off v n : Nat)
  | high (off : Nat)
  | drop
  deriving DecidableEq, Repr

/-- What a waiting or sleeping thread waits for, with the operands it captured (R19, R20, R142). -/
inductive Wait where
  | none
  /-- A resource: the instruction is performed whole when the resource frees, with the registers it read at issue. -/
  | retry (i : Instr)
  /-- Room in the phase buffer (R282): the checked accesses, the flags and the seed they leave, and the entry whose drain
  is awaited (none: the first acknowledgement). -/
  | room (l : List Piece) (fl : BitVec 5) (seed : Word) (on : Option Nat)
  /-- A translation (R273), for an instruction's access or, without one, for the fetch. -/
  | walk (i : Option Instr) (va : Nat) (acc : Nat)
  /-- The line of the next instruction word (R271). -/
  | line
  /-- A reply whose effect is known: registers to write. -/
  | reply (ws : List (Reg × Word))
  /-- An ordinary remote load (R283): the fetch, and what the load does with the bytes. -/
  | load (f : Nat) (rd : Reg) (n : Nat) (u : Bool) (off : Nat) (a : Word)
  /-- A remote TLD (R204): slot, address, the two sectors' fetches or bytes. -/
  | tld (t : Nat) (a : Word) (f0 f1 : Option Nat) (v0 v1 : Nat)
  /-- A request at a home or agent. -/
  | home (rd : Reg) (k : ReqKind) (a : Word)
  /-- Acknowledgements of drains (R152 to R155). -/
  | drains (ids : List Nat) (k : After)
  /-- Order tokens still to be granted (R153), narrowest first. -/
  | token (left : List Nat) (k : After)
  | bar (k scope : Nat)
  | sleep (rd : Reg)
  /-- Acceptance of the thread's engine command (R227). -/
  | seq
  | mtile
  | gang (rd : Reg)
  /-- The ganger's EXIT (R22). -/
  | exit
  /-- TPLAY (R262): the register of the status (none for a scheduler replay, R349) and what is still to perform; an item
  whose word is zero stands for the whole tape, still to be checked. -/
  | tplay (rd : Option Reg) (items : List TapeItem)
  | ckpt (rd : Reg)
  /-- Of a thread an engine fault has parked, and until it issues again: what its PGNEXT or PGSAVE had taken (R316). -/
  | took (ws : List Word)
  deriving DecidableEq, Repr

/-- The states of a thread slot (R18); frozen and halted overlay them (R21). -/
inductive ThreadState where
  | empty | ready | waiting | sleeping | parked
  deriving DecidableEq, Repr

/-- The registers a waiting instruction read at its issue (R105, R142): g0 to g7, w0 to w7, and its address P. -/
structure Operands where
  g : Vector Word 8
  win : Vector Word 8
  pc : BitVec 48
  /-- What a PGNEXT or PGSAVE took of its generator at issue, while the scoreboard holds its write (R269, R316). -/
  gen : Option (List Word) := none
  deriving DecidableEq, Repr

/-- One thread slot: the context of R44. -/
structure Thread where
  st : ThreadState := .empty
  /-- Debugger overlay (R21, R436, R439): halted; halt requested; one word to issue; breakpoint passed. -/
  halted : Bool := false
  haltReq : Bool := false
  stepReq : Bool := false
  skipBp : Bool := false
  /-- The word of a STEP has issued: the thread halts before its next (R439). -/
  stepped : Bool := false
  /-- Which start of the slot this is: replies to an earlier one are discarded (R171). -/
  inc : Nat := 0
  /-- Instruction address (R131). -/
  pc : BitVec 48 := 0
  /-- The word last fetched for issue (R389 iword). -/
  iw : BitVec 32 := 0
  /-- g0 to g7 (R23); g0 is never written. -/
  g : Vector Word 8 := Vector.replicate 8 0
  /-- The current window w0 to w7, and the resident windows of its callers, newest first (R24). -/
  win : Vector Word 8 := Vector.replicate 8 0
  olds : List (Vector Word 8) := []
  wdp : BitVec 16 := 0
  wsp : BitVec 16 := 0
  wsl : BitVec 16 := 0
  /-- Loop sets 0 and 1 (R28). -/
  ls0 : Word := 0
  le0 : Word := 0
  lc0 : BitVec 32 := 0
  ls1 : Word := 0
  le1 : Word := 0
  lc1 : BitVec 32 := 0
  efr : BitVec 5 := 0
  rnd : BitVec 3 := 0
  fxf : BitVec 5 := 0
  seed : Word := 0
  rowp : Word := 0
  evm : BitVec 16 := 0
  evp : BitVec 16 := 0
  /-- Pending extension prefixes, first first (R31), and modifiers (R32, R108). -/
  hints : List (BitVec 26) := []
  mRound : Option (BitVec 3) := none
  mSr : Bool := false
  mScope : Option (BitVec 3) := none
  mLanes : Option (BitVec 5) := none
  /-- The later of the pending rounding and SR modifiers is the SR one (R108). -/
  srLast : Bool := false
  /-- Address of the first pending prefix (R34). -/
  pfxAt : Option (BitVec 48) := none
  /-- Words still to annul (R35). -/
  annul : Nat := 0
  /-- Tick of the last issue (R13, R44). -/
  lastIssue : Option Nat := none
  /-- Order of issue among the threads of the core. -/
  stamp : Nat := 0
  wait : Wait := .none
  /-- The recording of the core when its last word was issued (R256, R261). -/
  tape : Option Nat := none
  /-- While the thread is off the wheel: what its instruction read at issue (R142). -/
  opnd : Option Operands := none
  /-- Remaining ticks of a limited wait (R44); a limit stays with the context of a thread that parks (R330). -/
  limit : Option Nat := none
  /-- Repeat count of replay: cause code, address, count (R394). -/
  repCause : Nat := 0
  repAt : Nat := 0
  repCount : Nat := 0
  /-- Trap records of the slot not yet settled (R396). -/
  recs : Nat := 0
  deriving DecidableEq, Repr

/-- A request on its way to its home. -/
structure Req where
  slot : Nat
  inc : Nat
  k : ReqKind
  /-- The tick it was sent to a peer package (R374). -/
  sentAt : Option Nat := none
  /-- The tick it arrived at its cluster's atomic engine (R155). -/
  cameAt : Option Nat := none
  /-- Of an LDA at a peer: bytes of its sector that the core has drained there since, as a mask and a value (R150; log 73). -/
  mask : Nat := 0
  data : Nat := 0
  deriving DecidableEq, Repr

/-- What a reply carries: a value, or an uncorrectable error. -/
inductive RBody where
  | ok
  | val (v : Nat)
  | ue
  /-- The bytes of sector fetch f, and whether those the load needs are uncorrectable. -/
  | sector (f : Nat) (v : Nat) (ue : Bool)
  /-- The range a steal took (08 R254, 11 R318). -/
  | range (v : Nat)
  deriving DecidableEq, Repr

/-- A reply on its way to a thread. -/
structure Reply where
  slot : Nat
  inc : Nat
  body : RBody
  deriving DecidableEq, Repr

/-- A phase-buffer entry (R281). Byte strings are little-endian numbers (R9). -/
structure Entry where
  id : Nat
  dst : Dest
  r : Bool := false
  copy : Nat := 0
  /-- Doublewords of the read copy that came with an uncorrectable error (R417), as a mask. -/
  bad : Nat := 0
  mask : Nat := 0
  data : Nat := 0
  d : Bool := false
  /-- The drain has been performed at its home and awaits its acknowledgement. -/
  sent : Bool := false
  /-- It drains to make room: its acknowledgement frees it (R282). -/
  room : Bool := false
  /-- The tick the drain was sent to a peer package (R374). -/
  sentAt : Option Nat := none
  /-- A read-set clear has come since the drain was performed: loads read the sector at home again (R386; log 102). -/
  past : Bool := false
  age : Nat := 0
  deriving DecidableEq, Repr

/-- A sector fetch in flight (R283). -/
structure Fetch where
  id : Nat
  dst : Dest
  slot : Nat
  inc : Nat
  barred : Bool := false
  /-- The bytes fetched, once performed at home. -/
  got : Option Nat := none
  /-- Doublewords of them that are uncorrectable, as a mask; the load needs one of those (R145). -/
  bad : Nat := 0
  ue : Bool := false
  /-- The reply has come: the install takes place, or waits for the drain of the entry named (R282, R283). -/
  due : Bool := false
  room : Option Nat := none
  /-- The tick a request to a peer package was sent (R374). -/
  sentAt : Option Nat := none
  /-- Bytes of the sector that the core has written at the peer since, as a mask and a value (R285; log 73). -/
  mask : Nat := 0
  data : Nat := 0
  deriving DecidableEq, Repr

/-- A pulse-lane entry: word, tag byte, arrival tick (R216, R306). -/
structure Pulse where
  v : Word
  tag : Nat
  at' : Nat
  deriving DecidableEq, Repr

/-- A 128-bit drain-queue entry and its arrival tick (R218, R306). -/
structure DrainEntry where
  lo : Word
  hi : Word
  at' : Nat
  deriving DecidableEq, Repr

/-- A part of a row on its way through a gather engine (R314): row and element, where it is performed, the value to write
there, the window that holds it. -/
structure GatherPart where
  row : Nat
  elem : Nat
  dst : Dest
  v : Nat
  win : Nat
  deriving DecidableEq, Repr

/-- A window of a gather engine (R314): the engine, the sectors of its parts, the tick it closes. -/
structure GatherWin where
  id : Nat
  engine : Nat
  sectors : List Nat
  closes : Nat
  deriving DecidableEq, Repr

/-- An engine command: before acceptance (waiting for the sequencer) and after it (R227 to R230). -/
structure Cmd where
  id : Nat := 0
  slot : Nat := 0
  inc : Nat := 0
  word : BitVec 32 := 0
  ra : Word := 0
  rb : Word := 0
  rc : Word := 0
  stamp : Nat := 0
  /-- Descriptors of the D (destination) and S (source) slots, captured at acceptance (R200). -/
  desD : List Word := []
  desS : List Word := []
  /-- sq0 and the repeat register, once taken or as the tape gives them (R228, R257). -/
  sq : Option (Word × Word) := none
  /-- Expansion index j and the source and destination advances in their units (R228). -/
  j : Nat := 0
  sadv : Int := 0
  dadv : Int := 0
  /-- Tape entry index + 1 when the command came from a replay (R233). -/
  tape : Nat := 0
  taken : Bool := false
  /-- Elements of the copy a ring's chunk is (R237); none: the count of the instruction's own operand. -/
  count : Option Nat := none
  /-- Generator coordinates drawn at acceptance, (i1, i0) (R250). -/
  coords : List (Nat × Nat) := []
  /-- Elements gone through, and those written (R231, R233); phase, rows and fault vector of a gather-family command. -/
  done : Nat := 0
  wrote : Nat := 0
  /-- The row of a GATHER whose write a fault has stopped, and its packed units written (R232). -/
  part : Option (Nat × Nat) := none
  phase : Nat := 0
  rows : List (Option Nat) := []
  fv : List Nat := []
  /-- The fault met: cause, address, destination side; its counter add is the fault's place (R231). -/
  fault : Option (Cause × Word × Bool) := none
  addOnly : Bool := false
  /-- Rows the lead has still to pass on, in the order of service (R240, R241); rows passed on and not finished; their parts
  not performed; the elements read. -/
  todo : List Nat := []
  sent : List Nat := []
  parts : List GatherPart := []
  got : List (Nat × Nat × Nat) := []
  deriving DecidableEq, Repr

/-- The copy ring (R237, R312). -/
structure Ring where
  cmd : Cmd
  /-- Chunks completed, chunks released, elements written of the chunk in progress. -/
  filled : Nat := 0
  released : Nat := 0
  part : Nat := 0
  /-- A chunk is being filled since this tick. -/
  since : Option Nat := none
  /-- RINGADV has returned the stage of chunk `released` and not released it yet. -/
  held : Bool := false
  /-- Fill time F, and the ticks of the last two RINGADV returns, whose distance is I. -/
  fill : Nat := 0
  adv0 : Option Nat := none
  adv1 : Option Nat := none
  fault : Option (Cause × Word × Bool) := none
  addOnly : Bool := false
  deriving DecidableEq, Repr

/-- An index generator (R248 to R251): the fields of its context and its program. -/
structure Gen where
  v : Bool := false
  t : Bool := false
  prog : Nat := 0
  rend : Nat := 0
  row : Nat := 0
  done : Nat := 0
  rows : Nat := 0
  cols : Nat := 0
  ops : List Nat := []
  deriving DecidableEq, Repr

/-- The recording tape (R256 to R261). -/
structure Tape where
  area : Nat
  cap : Nat
  patch : List Word
  /-- Entries waiting in the append buffer, oldest first: dw0 and val. -/
  buf : List (Word × Word) := []
  written : Nat := 0
  ovf : Bool := false
  npatch : Nat := 0
  nguard : Nat := 0
  /-- Which recording of the core it is (R256, R261). -/
  id : Nat := 0
  deriving DecidableEq, Repr

/-- The MTILE in the core's cell (R208): issuer, captured descriptors, operands; leave granted. -/
structure MTile where
  slot : Nat
  inc : Nat
  desA : List Word
  desB : List Word
  m0 : Nat
  n0 : Nat
  k : Nat
  q : Nat
  granted : Bool := false
  deriving DecidableEq, Repr

/-- What a core holds as a cell of a bench (R219, R220, R222). -/
structure Cell where
  bench : Nat
  row : Nat
  col : Nat
  frozen : Bool := false
  latched : Nat := 0
  pulses : Nat := 0
  last : Nat := 0
  open' : Bool := false
  iovf : Bool := false
  inv : Bool := false
  ovf : Bool := false
  tag : Bool := false
  deriving DecidableEq, Repr

/-- A range-scoreboard entry (R268). -/
structure SbEntry where
  lo : Nat
  hi : Nat
  cmd : Nat
  retirable : Bool := false
  deriving DecidableEq, Repr

/-- A queued full-or-empty operation at its home (R160): offset, operation, value, origin. -/
structure FeOp where
  off : Nat
  op : Nat
  v : Nat
  core : Nat
  slot : Nat
  inc : Nat
  ctx : Nat
  deriving DecidableEq, Repr

/-- An event on its way (R167): sender slot, target logical core, slot mask, event number. -/
structure EvMsg where
  slot : Nat
  lcn : Nat
  mask : Nat
  e : Nat
  deriving DecidableEq, Repr

/-- One core. -/
structure Core where
  threads : Tab Thread := []
  /-- Exit records: the g1 value (R140). -/
  exits : Tab Word := []
  /-- Placement (R37, R341): field, partition, coordinates, field size, position placed at. -/
  field : Option Nat := none
  part : Nat := 0
  cx : Nat := 0
  cy : Nat := 0
  fw : Nat := 0
  fh : Nat := 0
  lcn : Nat := 0
  stage : Nat := 0
  role : Nat := 0
  ctx : Nat := 0
  jseed : Word := 0
  place : Nat := 0
  /-- Marked as taken or being placed (R341, R265); part ended (R337); migrating (R352) and its destination;
  forwarder to the current position (R265). -/
  placing : Bool := false
  ended : Bool := false
  migTo : Option Nat := none
  /-- From step 3 of a migration to its resume, issue is stopped, the copy queue and the ring are paused (R352). -/
  migStop : Bool := false
  fwdTo : Option Nat := none
  /-- geo, gsm, gsn, gmk (R205, R206); sq0 to sq3; qdepth; spoil; gst (R37). -/
  geo : Word := 0
  gsm : Word := 0
  gsn : Word := 0
  gmk : Word := 0
  sq0 : Word := 0
  sq1 : Word := 0
  sq2 : Word := 0
  sq3 : Word := 0
  qdepth : Nat := 0
  spoil : Word := 0
  gst : Word := 0
  /-- psr: phase, EVICT, SPILL (R42); rsc and wsc are counted. -/
  phase : BitVec 32 := 0
  evict : Bool := false
  spill : Bool := false
  /-- Core copies written by MTS or GEO less than eight ticks ago: tick, register, earlier value (R38). -/
  hist : List (Nat × Nat × Word) := []
  /-- Local store (R2), tags of full doublewords by doubleword index (R158), uncorrectable doublewords (R417). -/
  ls : Memory := []
  tags : List Nat := []
  lsUe : List Nat := []
  /-- The home's wait queue and the withdrawals on their way to it (R160, R161). -/
  feq : List FeOp := []
  withdraw : List (Nat × Nat × Nat) := []
  /-- Tensor table: a listed slot is loaded, with its eight doublewords (R200, R201). -/
  tens : Tab (List Word) := []
  /-- Cell registers (R82, R207), latch, installed scale and zero-point words, group count. -/
  ac : Vector (BitVec 32) 16 := Vector.replicate 16 0
  fa : Vector (BitVec 32) 16 := Vector.replicate 16 0
  sa : Vector (BitVec 32) 4 := Vector.replicate 4 0
  sb : Vector (BitVec 32) 4 := Vector.replicate 4 0
  gcount : Nat := 0
  latch : Vector Word 4 := Vector.replicate 4 0
  scaleA : Word := 0
  scaleB : Word := 0
  zpA : Word := 0
  zpB : Word := 0
  /-- Inbound pulse-lane queues (R216), drain queues from north and from west (R218). -/
  westIn : List Pulse := []
  northIn : List Pulse := []
  drainN : List DrainEntry := []
  drainW : List DrainEntry := []
  /-- Thread lanes by direction (R162): inbound queues, and entries sent and not yet arrived. -/
  portIn : Tab (List Word) := []
  portOut : Tab (List Word) := []
  evOut : List EvMsg := []
  /-- Phase buffer and fetches in flight (R281, R283). -/
  pbuf : List Entry := []
  fetches : List Fetch := []
  reqs : List Req := []
  replies : List Reply := []
  /-- Engine sequencer, copy queue, gather queue, ring (R226 to R237), halts (R232), HALTC (R436). -/
  seqq : List Cmd := []
  copyQ : List Cmd := []
  gatQ : List Cmd := []
  ring : Option Ring := none
  /-- QJOINs with an empty mask, accepted and not complete (R243). -/
  joins : List Cmd := []
  copyHalt : Bool := false
  gatHalt : Bool := false
  haltc : Bool := false
  /-- Engine writes and commands sent are counted until complete; range scoreboard (R268); engine status (R234). -/
  scb : List SbEntry := []
  drop : Nat := 0
  efault : Nat := 0
  gf : Bool := false
  gen0 : Gen := {}
  gen1 : Gen := {}
  /-- Deque of ranges, newest first (R253). -/
  deque : List (Nat × Nat) := []
  tape : Option Tape := none
  /-- The status of each ended recording that a TEND issued in it may still ask for (R261). -/
  lastTape : Tab Word := []
  mtile : Option MTile := none
  cell : Option Cell := none
  /-- Benches the core is a face core of (R213). -/
  faces : List Nat := []
  /-- Words a face core moved last, with the tick (R308): by FEED and by FEEDS toward each direction, by DRAIN from each. -/
  rates : Tab (Nat × Nat) := []
  /-- Breakpoints 0 and 1: address and slot mask (R439). -/
  bp0 : Option (Nat × Nat) := none
  bp1 : Option (Nat × Nat) := none
  /-- The slots of each halt command whose completion event is still to be posted, oldest first (R436). -/
  haltMask : List Nat := []
  /-- Dry timer, and held until the next arrival (R346). -/
  dry : Nat := 0
  dryHeld : Bool := false
  /-- Contexts whose messages are swept, and the tick the sweep ends (R398). -/
  sweeps : List (Nat × Nat) := []
  /-- An uncorrectable error in a register or thread copy, by slot (R417). -/
  regUe : List Nat := []
  /-- An uncorrectable error stands in a cell register or latch (R417). -/
  cellUe : Bool := false
  /-- Issue stamp, and identities for entries, fetches and commands of the core. -/
  nextStamp : Nat := 0
  nextId : Nat := 0
  deriving DecidableEq, Repr

/-- A trap record (R389) and the slot it came from. -/
structure TrapRec where
  seq : Nat
  rpt : Bool := false
  e : Bool := false
  org : Nat := 0
  slot : Nat := 0
  cause : Cause := .illegal
  iaddr : Nat := 0
  faddr : Word := 0
  lcn : Nat := 0
  ctx : Nat := 0
  iword : BitVec 32 := 0
  ls0 : Nat := 0
  le0 : Nat := 0
  ls1 : Nat := 0
  le1 : Nat := 0
  lc0 : BitVec 32 := 0
  lc1 : BitVec 32 := 0
  dw7 : Word := 0
  field : Nat := 0
  inc : Nat := 0
  /-- Of an engine fault, the queue it halted: 0 copy, 1 gather, 2 ring, 3 a QJOIN that selects no queue (R232). -/
  queue : Nat := 0
  /-- The modes of the partition's duties when the record arose (R355). -/
  modes : Nat := 0
  /-- Of a thread's UE, the error stood in its registers: no report of a word in error follows (R417). -/
  reg : Bool := false
  /-- Waiting for the page-fault duty's answer from the host (R395), or held while the trap ring is full (R370). -/
  held : Bool := false
  deriving DecidableEq, Repr

/-- A cached translation (R273): partition, virtual page, log2 size, frame, key slot, R, W, REP. -/
structure Xlate where
  unit' : Nat
  part : Nat
  base : Nat
  bits : Nat
  frame : Nat
  key : Nat
  r : Bool
  w : Bool
  rep : Bool
  deriving DecidableEq, Repr

/-- A cached instruction line: cluster, context, virtual line address, its 64 bytes (R271), and the doublewords of it
that came with an uncorrectable error. -/
structure Line where
  cluster : Nat
  ctx : Nat
  va : Nat
  bytes : List Byte
  ue : List Nat := []
  deriving DecidableEq, Repr

/-- A request for leave (R301): the asking core, slot and start, amount, drawn, service begun. -/
structure LeaveReq where
  core : Nat
  slot : Nat
  inc : Nat
  w : Nat
  left : Nat
  started : Bool := false
  deriving DecidableEq, Repr

/-- A die's governor and power state (R301, R433, R434). -/
structure Die where
  cap : Nat := 0
  held : Nat := 0
  credit : Nat := 200000
  queue : List LeaveReq := []
  lastGrant : Nat := 0
  /-- Leave on its way back (R302). -/
  back : List Nat := []
  ramp : Nat := 1
  gate : BitVec 42 := BitVec.allOnes 42
  gated : BitVec 42 := BitVec.allOnes 42
  clk : Bool := false
  cref : Bool := false
  /-- Rows ungated in the current 1,400 ticks, and when that span began (R434). -/
  ungated : Nat := 0
  span : Nat := 0
  /-- Trap records at the die's agent (R391). -/
  recs : List TrapRec := []
  /-- Telemetry counters: data pulses, element faults, corrected errors (R383). -/
  nPulse : Nat := 0
  nElem : Nat := 0
  nCorr : Nat := 0
  deriving DecidableEq, Repr

/-- A direction of a die edge (R305, R413, R414): channels retired and reserved, edge down. -/
structure Edge where
  retired : Nat := 0
  reserved : Nat := 0
  down : Bool := false
  deriving DecidableEq, Repr

/-- A GANG's claim, from its issue until it is answered (R211 to R214). -/
structure Claim where
  core : Nat
  slot : Nat
  inc : Nat
  rect : Word
  op : Word
  x0 : Nat
  y0 : Nat
  w : Nat
  h : Nat
  /-- Dies still to ask, with amounts; leave held. -/
  ask : List (Nat × Nat)
  held : List (Nat × Nat)
  /-- Target cores taken so far, die by die (R215). -/
  taken : List Nat := []
  deriving DecidableEq, Repr

/-- A claimed bench (R214, R305, R221). -/
structure Bench where
  field : Nat
  core : Nat
  slot : Nat
  inc : Nat
  rd : Reg
  rect : Word
  x0 : Nat
  y0 : Nat
  w : Nat
  h : Nat
  ws : Bool
  fmt : Nat
  grp : Nat
  pre : Bool
  echo : Bool
  pulses : Nat
  period : Nat
  t0 : Nat
  frozen : Bool := false
  /-- Reason of the thaw begun, 0 while none (R221). -/
  reason : Nat := 0
  leave : List (Nat × Nat)
  chans : List (Nat × Nat)
  deriving DecidableEq, Repr

/-- A barrier episode (R165): field, barrier, scope and region (a cluster, a die, a core, or the field). -/
structure Episode where
  field : Nat
  k : Nat
  scope : Nat
  region : Nat
  deriving DecidableEq, Repr

/-- A role entry (R343). -/
structure Role where
  present : Bool := false
  /-- 0 fetcher, 1 worker, 2 writer: no effect on execution. -/
  kind : Nat := 0
  stage : Nat := 0
  chan : Nat := 0
  dir : Nat := 0
  dry : Nat := 0
  entry : Nat := 0
  roff : Nat := 0
  rwords : Nat := 0
  recast : Nat := 255
  deriving DecidableEq, Repr

/-- The life of a field: being placed, running, completing a kill or rollback purge, ended and awaiting retirement. -/
inductive Stage where
  | placing | running | fallback | killing | rolling | ended | retiring
  deriving DecidableEq, Repr

/-- An undo-log entry (R406): sector address, sequence number of logging, pre-image, the key it was under. -/
structure Undo where
  pa : Nat
  seq : Nat
  pre : Nat
  key : Option (BitVec 512 × Nat)
  deriving DecidableEq, Repr

/-- A launch in progress and its field (R333, R337, R403). -/
structure Field where
  part : Nat
  ctx : Nat
  queue : Nat
  id : Word
  x0 : Nat
  y0 : Nat
  fw : Nat
  fh : Nat
  threads : Nat
  entry : Nat
  arg : Word
  seed : Word
  done : Word
  lsimg : Nat
  lssize : Nat
  tapeDir : Nat
  tFlag : Bool
  patch : Option (List Word)
  roles : Tab Role := []
  axis : Nat := 2
  period : Nat := 1
  map : Nat := 0
  actions : List Word := []
  stage : Stage := .placing
  /-- Cores that have moved: logical core number to current position; forwarders left behind. -/
  moved : Tab Nat := []
  fwds : List Nat := []
  status : Nat := 0
  flcn : Nat := 0xFFFFFFFF
  rcode : Nat := 0
  killSeq : Nat := 0
  /-- Checkpoint interval (R403, R405): number, valid set, set numbers, saved device state of each set, undo log. -/
  interval : Nat := 0
  valid : Option Nat := none
  setNo : List Nat := [0, 0]
  images : List (Tab Core) := [[], []]
  undo : List Undo := []
  unrest : Bool := false
  ckAsked : Bool := false
  rolls : Nat := 0
  lastCk : Nat := 0
  /-- Completed episodes of barrier k of core lcn, at lcn × 4 + k (R436 BARRD). -/
  episodes : Tab Nat := []
  /-- B flag, dependences, done address malformed, tape of each core (R333 to R338, R348). -/
  barrier : Bool := false
  deps : List (Word × Word) := []
  doneBad : Bool := false
  tapes : List Nat := []
  /-- The replay fault was found at a re-read (R350); the modes of the duties when it was found (R355). -/
  reread : Bool := false
  fmodes : Nat := 0
  /-- The purge of a kill is confirmed, and the host is to retire the launch (R354). -/
  confirmed : Bool := false
  /-- CKBASE and CKSTRIDE as the open interval has them (R367, R402). -/
  ckb : Nat := 0
  cks : Nat := 0
  deriving DecidableEq, Repr

/-- A report raised and waiting in the ring hardware (R382 to R384): its partition, none for the package; occurrences. -/
structure Report where
  seq : Nat
  cls : Nat
  part : Option Nat
  flags : Nat
  count : Nat
  loc : Nat
  syn : Nat
  ctx : Nat
  deriving DecidableEq, Repr

/-- A ring in host memory (R370). -/
structure HostRing where
  base : Nat := 0
  /-- The host has written the base: until then the ring is unset and behaves as full. -/
  isSet : Bool := false
  size : Nat := 0
  wix : Nat := 0
  rix : Nat := 0
  lost : Nat := 0
  deriving DecidableEq, Repr

/-- A launch queue (R331, R369). -/
structure Queue where
  base : Nat := 0
  aging : Nat := 0
  err : Nat := 0
  hlt : Bool := false
  en : Bool := false
  prio : Nat := 0
  size : Nat := 0
  wix : Word := 0
  rix : Word := 0
  /-- The scheduler's own: read index, write index last read, head checked and its bytes, eligible since, dependence
  reported unreadable. -/
  rd : Nat := 0
  wr : Nat := 0
  since : Option Nat := none
  depBad : Bool := false
  /-- The head, checked, with its tables as read (R334). -/
  head : Option Field := none
  deriving DecidableEq, Repr

/-- An export (R372). -/
structure Export where
  base : Nat
  len : Nat
  w : Bool
  deriving DecidableEq, Repr

/-- A change of translation in progress (R275): what it removes, the cores still to acknowledge, and what completes. -/
structure Change where
  /-- 0 a virtual range; 1 a key slot; 2 an import handle. -/
  kind : Nat
  base : Nat
  len : Nat
  todo : List Nat
  /-- 0 INV; 1 REVOKE; 2 IMPORT; 3 COLLAPSE service of the trap record named; the epoch of the leader that began it. -/
  then' : Nat
  arg : Nat
  epoch : Nat := 0
  deriving DecidableEq, Repr

/-- What a duty in host-assisted mode has told the host (R347, R354): a dry core, a confirmed purge. The manual gives these
messages no layout; each has taken its number (16 R359; log 92). -/
inductive HostNote where
  | dry (seq ctx lcn : Nat)
  | purged (seq ctx : Nat)
  deriving DecidableEq, Repr

/-- A partition (R375, R376) and its function's registers (R364). -/
structure Part where
  dies : Nat := 0
  stackSet : Nat := 0
  keys : Nat := 0
  ports : Nat := 0
  wrap : BitVec 256 := 0
  ckbase : Nat := 0
  ckstride : Nat := 0
  pmeas : BitVec 256 := 0
  /-- Origin and size in cores. -/
  x0 : Nat := 0
  y0 : Nat := 0
  w : Nat := 0
  h : Nat := 0
  modes : Nat := 0
  ckint : Nat := 0
  telint : Nat := 0
  lastTel : Nat := 0
  apbase : Word := 0
  ptroot : Word := 0
  pool : Word := 0
  cring : HostRing := {}
  rring : HostRing := {}
  tring : HostRing := {}
  dring : HostRing := {}
  /-- Command and operand registers of R365, R368, R432, R435, by offset. -/
  regs : Tab Word := []
  queues : Tab Queue := []
  imports : Tab Import := []
  exports : Tab Export := []
  /-- Dispatch (R336): the candidate queue; the queue last dispatched at each level; named origins (R368). -/
  cand : Option Nat := none
  /-- The modes of the duties when the candidate was taken (R355). -/
  candModes : Nat := 0
  lastQ : Tab Nat := []
  origins : Tab (Nat × Nat) := []
  changes : List Change := []
  /-- Records awaiting a TACT (R391), and records not yet written to the trap ring (R370). -/
  await : List TrapRec := []
  tpend : List TrapRec := []
  /-- Records whose service waits for a change of translation (09 R279). -/
  serving : List TrapRec := []
  retired : Nat := 0
  /-- DESTROY has begun (R376). -/
  destroying : Bool := false
  /-- Debug events waiting for room in the ring (R370). -/
  debugEv : List (List Byte) := []
  notes : List HostNote := []
  /-- Which span of holding its stacks the partition is in, and whether a stack of it was another's before (R376, R380; log
15). -/
  era : Nat := 0
  usedBefore : Bool := false
  deriving DecidableEq, Repr

/-- Who held a stack last (R376, R380; log 15): the partition number, all the stacks it held, and its span of holding them. -/
structure StackUse where
  part : Nat
  set : Nat
  era : Nat
  used : Bool
  deriving DecidableEq, Repr

/-- A key slot (R380). -/
inductive KeySlot where
  | empty
  | loaded (pair : BitVec 512)
  /-- REVOKE has begun: new translations fault; what was accepted before is still performed under the key (R381). -/
  | revoking (pair : BitVec 512)
  | revoked
  deriving DecidableEq, Repr

/-- An inbound write part at the ordering point (R359 to R361): its number, source, partition, kind (2 local stores,
4 memory, 3 peer stream), target address, bytes; route; sent. An acknowledged part is gone. -/
structure InPart where
  n : Nat
  src : Nat
  part : Nat
  kind : Nat
  addr : Nat
  bytes : List Byte
  route : Nat
  sent : Bool := false
  deriving DecidableEq, Repr

/-- An inbound read waiting at the ordering point (R362): its place among its source's requests. -/
structure InRead where
  id : Nat
  src : Nat
  part : Nat
  kind : Nat
  addr : Nat
  len : Nat
  before : Nat
  deriving DecidableEq, Repr

/-- The answer of the device to an inbound read (R356, R362, R363): 0 data, 1 poisoned data, 2 Completer Abort,
3 Unsupported Request. -/
structure Completion where
  id : Nat
  status : Nat
  bytes : List Byte
  deriving DecidableEq, Repr

/-- A WAITGE waiting at its counter (R168). -/
structure Watch where
  dst : Dest
  core : Nat
  slot : Nat
  inc : Nat
  deriving DecidableEq, Repr

/-- What is in flight: a step of the machine, or a thread that performs again the instruction it waits in. -/
inductive Action where
  | ev (e : Ev)
  | resume (core slot : Nat)
  deriving DecidableEq, Repr

/-- The outside world and the choices among agents the manual does not order, as a list the machine consumes. -/
inductive Choice where
  /-- A step made by the outside: a host or debugger command, an error, a failure. -/
  | input (i : Instr)
  /-- The n-th action in flight goes next. -/
  | deliver (n : Nat)
  /-- Time passes. -/
  | tick
  /-- Queue q of core c (0 copy, 1 gather, 2 ring) moves up to n elements. -/
  | progress (c q n : Nat)
  /-- The host writes a register of a function (BAR0), or its own memory. -/
  | hostWrite (fn off : Nat) (v : Word)
  | hostMem (a : Nat) (bytes : List Byte)
  /-- An uncorrectable error strikes an HBM doubleword, a local-store doubleword, a thread's registers. -/
  | hbmError (dword : Nat)
  | lsError (core dword : Nat)
  | regError (core slot : Nat)
  /-- A single-bit error corrected, counted and reported (R417), in a local store or in HBM. -/
  | softFixed (d : Dest)
  /-- A peer package answers fetch f or request of core c: bytes, or an error; or acknowledges drain e. -/
  | peerFetch (c f : Nat) (v : Nat) (ue : Bool)
  | peerReply (c t : Nat) (v : Nat) (ue : Bool)
  | peerAck (c e : Nat)
  /-- A cached line or translation is replaced. -/
  | evictLine (n : Nat)
  | evictXlate (n : Nat)
  /-- The host retires a launch whose purge it was told is confirmed (15 R354). -/
  | hostRetire (part ctx : Nat)
  /-- The host requests a checkpoint of a context, where it schedules them (15 R354). -/
  | hostCheckpoint (part ctx : Nat)
  /-- A PCIe port meets a link error in traffic of a function (16 R357). -/
  | linkError (port fn : Nat)
  /-- The host masks or unmasks an MSI-X vector of a function (16 R357). -/
  | vectorMask (fn vec : Nat) (on : Bool)
  /-- An uncorrectable error strikes a cell register or latch of a core (18 R417). -/
  | cellError (core : Nat)
  /-- A firmware core stops, or runs again (R420). -/
  | fwStop (i : Nat)
  | fwRun (i : Nat)
  deriving DecidableEq, Repr

/-- The package. -/
structure State where
  cores : Tab Core := []
  dieTab : Tab Die := []
  edges : Tab Edge := []
  icache : List Line := []
  xlate : List Xlate := []
  /-- Translations that no unit holds any more, under which sectors may still be in phase buffers (R275; log 23). -/
  xpast : List Xlate := []
  /-- Lines owned by cluster atomic engines: cluster and 64-byte line (R280). -/
  owned : List (Nat × Nat) := []
  /-- Package tick counter (R12) and sequence-number generator (R359). -/
  cyc : Nat := 0
  seqNo : Nat := 1
  hbm : Memory := []
  /-- The key pair each 32-byte sector was last written under, and the creation of its partition that wrote it (R380);
  uncorrectable doublewords (R417); the stacks a partition no longer there has held. -/
  hbmKey : Tab (BitVec 512 × Nat) := []
  hbmUe : List Nat := []
  stackUse : Tab StackUse := []
  hostMem : Memory := []
  keys : Tab KeySlot := []
  parts : Tab Part := []
  fields : Tab Field := []
  benches : Tab Bench := []
  claims : List Claim := []
  episodes : Tab Episode := []
  watches : List Watch := []
  /-- Windows of the gather engines, oldest first (R314). -/
  gwins : List GatherWin := []
  inParts : List InPart := []
  inReads : List InRead := []
  completions : List Completion := []
  /-- MSI-X vectors raised toward the host: function and vector (R370). -/
  msix : List (Nat × Nat) := []
  /-- Vectors of the functions' MSI-X tables that are masked, and those pending behind a mask; what Advanced Error Reporting
  has recorded: port, function, kind (R357; log 77). -/
  msixMask : List (Nat × Nat) := []
  msixPend : List (Nat × Nat) := []
  aer : List (Nat × Nat × Nat) := []
  /-- Reports raised and not yet delivered, oldest first (R384; log 78). -/
  reports : List Report := []
  /-- Serialiser grants so far (R153). -/
  tokens : Nat := 0
  /-- The fences before each serialiser, oldest first (R153): core, slot and start, by serialiser. -/
  serial : Tab (List (Nat × Nat × Nat)) := []
  /-- Function 0 (R366): staging record, operand and status, report ring, threshold, security registers. -/
  pstage : Tab Word := []
  parg : Word := 0
  pstat : Word := 0
  pring : HostRing := {}
  tthr : Nat := 0
  fwarg : Word := 0
  fwstat : Word := 0
  /-- Lease word (R420), and the cores that hold themselves to be the leader with the epoch they act under (R421). -/
  leaseHolder : Nat := 9
  leaseEpoch : Nat := 0
  leaseExpiry : Nat := 28000000
  epochs : Tab Nat := [(9, 0)]
  /-- Firmware cores that have stopped (R420); renewals sent and not yet at the lease word: core and epoch (R421). -/
  fwStopped : List Nat := []
  renewals : List (Nat × Nat) := []
  svnMin : BitVec 32 := 0
  owners : List (BitVec 256) := []
  /-- Moduli the device has taken with OWNADD, whose hashes the owner store holds or held (R427, R428). -/
  moduli : List (List Byte) := []
  verified : Option (List Byte) := none
  active : Option (List Byte) := none
  running : List Byte := []
  nonces : List (BitVec 256) := []
  /-- Haul ports failed (R371); rate and width of each PCIe port (R357). -/
  portsDown : Nat := 0
  links : Tab (Nat × Nat) := []
  /-- The instruction in progress acts for this core and slot. -/
  cur : Nat × Nat := (0, 0)
  /-- The model's own: outside inputs and choices; actions in flight with the tick before which they do not land; the
  core whose turn it is within the tick; how many free values have been used; identities. -/
  script : List Choice := []
  inflight : List (Nat × Action) := []
  turn : Nat := 0
  free : Nat := 0
  nextId : Nat := 0
  deriving DecidableEq, Repr

/-- The package right after power-on reset: no partition, no field, nothing in memory; the sequence-number generator
at 1 (R359), SVNMIN 0 (R429), every die's cap 0, rows gated and clock off (R433). -/
def State.reset : State := {}

end Sys2Proof.Machine
end

