-- ==== Sys2Proof/Machine/Ops.lean ====
section
/-! DEFINITION. The shared operations on cores, threads and registers: reading and writing registers (01 R23), retiring
an instruction (R29, R33, R131), leaving the wheel and waking (R19, R20), messages, taking an exception (18 R388 to
R391) and returning from one (R394). -/

namespace Sys2Proof.Machine

/-- The outcome of an instruction: always a next state in this model. -/
abbrev Out := Host.Outcome State Fault Refusal

/-! ## Cores and threads -/

/-- The core at a package position. -/
def State.core (s : State) (c : Nat) : Core := tget {} s.cores c

/-- Replace a core. -/
def State.setCore (s : State) (c : Nat) (k : Core) : State := { s with cores := tset s.cores c k }

/-- Change a core. -/
def State.modCore (s : State) (c : Nat) (f : Core → Core) : State := s.setCore c (f (s.core c))

/-- A thread slot of a core. -/
def Core.thr (k : Core) (t : Nat) : Thread := tget {} k.threads t

/-- Replace a thread slot. -/
def Core.setThr (k : Core) (t : Nat) (h : Thread) : Core := { k with threads := tset k.threads t h }

/-- Change a thread slot. -/
def Core.modThr (k : Core) (t : Nat) (f : Thread → Thread) : Core := k.setThr t (f (k.thr t))

/-- Slot t of core c. -/
def State.thr (s : State) (c t : Nat) : Thread := (s.core c).thr t

/-- Change slot t of core c. -/
def State.modThr (s : State) (c t : Nat) (f : Thread → Thread) : State := s.modCore c (fun k => k.modThr t f)

/-- The issuing core. -/
def State.me (s : State) : Core := s.core s.cur.1

/-- The issuing thread. -/
def State.th (s : State) : Thread := s.thr s.cur.1 s.cur.2

/-- Change the issuing core. -/
def State.modMe (s : State) (f : Core → Core) : State := s.modCore s.cur.1 f

/-- Change the issuing thread. -/
def State.modTh (s : State) (f : Thread → Thread) : State := s.modThr s.cur.1 s.cur.2 f

/-- A die. -/
def State.die (s : State) (d : Nat) : Die := tget {} s.dieTab d

/-- Change a die. -/
def State.modDie (s : State) (d : Nat) (f : Die → Die) : State := { s with dieTab := tset s.dieTab d (f (s.die d)) }

/-- A partition, all zero when it does not exist. -/
def State.part (s : State) (p : Nat) : Part := tget {} s.parts p

/-- Change a partition. -/
def State.modPart (s : State) (p : Nat) (f : Part → Part) : State := { s with parts := tset s.parts p (f (s.part p)) }

/-- Change a field, if it exists. -/
def State.modField (s : State) (f : Nat) (g : Field → Field) : State :=
  match tfind s.fields f with
  | some x => { s with fields := tset s.fields f (g x) }
  | none => s

/-! ## Geometry (R1, R5, R6) -/

/-- Column, row, die and cluster of a package position. -/
def posX (c : Nat) : Nat := c % 1008
def posY (c : Nat) : Nat := c / 1008
def dieOf (c : Nat) : Nat := posY c / 336 * 3 + posX c / 336
def clusterOf (c : Nat) : Nat := posY c / 8 * 126 + posX c / 8

/-- The package position of partition coordinates. -/
def Part.pos (p : Part) (x y : Nat) : Nat := (p.y0 + y) * 1008 + (p.x0 + x)

/-- Current position of the core of a field with a logical core number (R263, R352). -/
def State.lcnPos (s : State) (f : Field) (lcn : Nat) : Nat :=
  match tfind f.moved lcn with
  | some c => c
  | none => (s.part f.part).pos (f.x0 + lcn % f.fw) (f.y0 + lcn / f.fw)

/-- Positions of all cores of a field, in lcn order. -/
def State.fieldCores (s : State) (f : Field) : List Nat := (upto (f.fw * f.fh)).map (s.lcnPos f)

/-! ## General registers (R23, R24) -/

/-- Index of a register in its bank. -/
def idx8 (r : Reg) : Fin 8 := ⟨r.toNat % 8, Nat.mod_lt _ (by decide)⟩

/-- The value of a register: g0 reads zero. -/
def Thread.reg (h : Thread) (r : Reg) : Word :=
  if r = 0 then 0 else if r.toNat < 8 then h.g.get (idx8 r) else h.win.get (idx8 r)

/-- Write a register: a write to g0 is discarded. -/
def Thread.setReg (h : Thread) (r : Reg) (v : Word) : Thread :=
  if r = 0 then h
  else if r.toNat < 8 then { h with g := h.g.set (idx8 r).val v (idx8 r).isLt }
  else { h with win := h.win.set (idx8 r).val v (idx8 r).isLt }

/-- Write several registers in order. -/
def Thread.setRegs (h : Thread) : List (Reg × Word) → Thread
  | [] => h
  | (r, v) :: t => (h.setReg r v).setRegs t

/-- The registers as an instruction reads them now (R142). -/
def Thread.operands (h : Thread) : Operands := match h.opnd with | some o => o | none => { g := h.g, win := h.win, pc := h.pc }

/-- A register as the instruction read it at its issue. -/
def Operands.reg (o : Operands) (r : Reg) : Word :=
  if r = 0 then 0 else if r.toNat < 8 then o.g.get (idx8 r) else o.win.get (idx8 r)

/-- A source register of a thread's instruction: as read at issue (R105, R142). -/
def Thread.src (h : Thread) (r : Reg) : Word := h.operands.reg r

/-- The address P of a thread's instruction. -/
def Thread.at' (h : Thread) : BitVec 48 := h.operands.pc

/-- Read a source register of the issuing thread. -/
def State.readReg (s : State) (r : Reg) : Word := s.th.src r

/-- Write a register of the issuing thread. -/
def State.writeReg (s : State) (r : Reg) (v : Word) : State := s.modTh (fun h => h.setReg r v)

/-! ## Completing an instruction (R29, R33, R131) -/

/-- No prefix pending (R33). -/
def Thread.clearPfx (h : Thread) : Thread :=
  { h with hints := [], mRound := none, mSr := false, mScope := none, mLanes := none, srLast := false, pfxAt := none }

/-- The address after P: bits(P + 4, 47, 0) (R131). -/
def nextPc (p : BitVec 48) : BitVec 48 := p + 4

/-- The loop step of R29 at an address: counts, and where fetch goes. The instruction address in a loop register is its bits
47 to 0 (log 30). -/
def Thread.loopStep (h : Thread) (p : BitVec 48) : Thread × BitVec 48 :=
  let hit0 : Bool := h.lc0 ≠ 0 && h.le0.setWidth 48 = p
  let h0 := if hit0 then { h with lc0 := h.lc0 - 1 } else h
  if hit0 && h0.lc0 ≠ 0 then (h0, h0.ls0.setWidth 48)
  else
    let hit1 : Bool := h0.lc1 ≠ 0 && h0.le1.setWidth 48 = p
    let h1 := if hit1 then { h0 with lc1 := h0.lc1 - 1 } else h0
    if hit1 && h1.lc1 ≠ 0 then (h1, h1.ls1.setWidth 48) else (h1, nextPc p)

/-- Move to the next word in execution order. -/
def Thread.advance (h : Thread) : Thread := let (h', p) := h.loopStep h.at'; { h' with pc := p }

/-- Ready again, no wait, no repeat of a trap counted (R19, R394). -/
def Thread.run (h : Thread) : Thread :=
  { h with st := .ready, wait := .none, opnd := none, limit := none, repCause := 0, repCount := 0 }

/-- The instruction completes: prefixes are consumed, the loop step or the next word follows. -/
def Thread.retire (h : Thread) : Thread := h.clearPfx.advance.run

/-- The instruction completes by a transfer of control: no loop register changes (R29). -/
def Thread.jump (h : Thread) (p : BitVec 48) : Thread := { h.clearPfx.run with pc := p }

/-- Complete the issuing thread's instruction. -/
def State.retire (s : State) : State := s.modTh Thread.retire

/-- Complete with a register result. -/
def State.retireWith (s : State) (r : Reg) (v : Word) : State := (s.writeReg r v).retire

/-- Complete by a transfer. -/
def State.jump (s : State) (p : BitVec 48) : State := s.modTh (fun h => h.jump p)

/-- The current instruction address P. -/
def State.pc (s : State) : BitVec 48 := s.th.at'

/-! ## Messages and waits -/

/-- Put an action in flight; it does not land before the tick given. -/
def State.push (s : State) (a : Action) (t : Nat := 0) : State := { s with inflight := s.inflight ++ [(t, a)] }

/-- Put a step in flight. -/
def State.post (s : State) (e : Ev) (t : Nat := 0) : State := s.push (.ev e) t

/-- Put an action in flight unless the same is already there. -/
def State.push1 (s : State) (a : Action) (t : Nat := 0) : State :=
  if s.inflight.any (fun x => decide (x.2 = a)) then s else s.push a t

/-- Put a step in flight unless the same step is already there. -/
def State.post1 (s : State) (e : Ev) : State :=
  if s.inflight.any (fun x => decide (x.2 = .ev e)) then s else s.post e

/-- Post a step when it is due. -/
def State.postIf (s : State) (b : Bool) (e : Ev) : State := if b then s.post1 e else s

/-- A fresh identity. -/
def Core.fresh (k : Core) : Nat × Core := (k.nextId, { k with nextId := k.nextId + 1 })

/-- Off the wheel in state waiting (R19), keeping what the instruction read at its issue (R142). -/
def Thread.await (h : Thread) (w : Wait) : Thread := { h with st := .waiting, wait := w, opnd := some h.operands }

/-- The issuing thread waits. -/
def State.await (s : State) (w : Wait) : State := s.modTh (fun h => h.await w)

/-- The issuing thread waits for a resource and then performs the instruction whole. -/
def State.block (s : State) (i : Instr) : State := s.await (.retry i)

/-- A reply sent to a slot of a core, as it was started. -/
def State.reply (s : State) (c slot inc : Nat) (b : RBody) : State :=
  (s.modCore c (fun k => { k with replies := k.replies ++ [{ slot := slot, inc := inc, body := b }] })).post
    (.remoteReply c slot)

/-- The issuing thread has been served at once but leaves the wheel until its reply arrives (R142). -/
def State.replied (s : State) (ws : List (Reg × Word)) : State :=
  (s.await (.reply ws)).reply s.cur.1 s.cur.2 s.th.inc .ok

/-- True of a thread that waits for a resource: to perform its instruction, or to enter its stores. -/
def Thread.retries (h : Thread) : Bool := match h.wait with | .retry _ => true | .room .. => true | _ => false

/-- Insert a slot by issue stamp, oldest first. -/
def insertStamp (k : Core) (t : Nat) : List Nat → List Nat
  | [] => [t]
  | u :: r => if (k.thr t).stamp < (k.thr u).stamp then t :: u :: r else u :: insertStamp k t r

/-- Slots waiting for a resource, in issue order. -/
def Core.retriers (k : Core) : List Nat :=
  (k.threads.filter (fun e => e.2.retries)).foldl (fun l e => insertStamp k e.1 l) []

/-- The bench cell a core is while frozen (R304). -/
def Core.frozen (k : Core) : Bool := match k.cell with | some x => x.frozen | none => false

/-- A resource of core c has freed: its waiting threads perform their instructions again, in issue order. -/
def State.wake (s : State) (c : Nat) : State :=
  (s.core c).retriers.foldl (fun a t => a.push (.resume c t)) s

/-- State as the debugger shows it (R436): frozen and halted overlay the underlying state. -/
def Thread.code (h : Thread) : Nat :=
  match h.st with | .empty => 0 | .ready => 1 | .waiting => 2 | .sleeping => 3 | .parked => 6

/-- Threads of core c that wait in a TPLAY with something still to perform go on. -/
def State.wakePlays (s : State) (c : Nat) : State :=
  ((s.core c).threads.filter (fun e => match e.2.wait with | .tplay _ (_ :: _) => true | _ => false)).foldl
    (fun a e => a.push1 (.resume c e.1)) s

/-! ## Taking an exception (R388 to R391) -/

/-- Code of a cause (R388). -/
def Cause.code : Cause → Nat
  | .illegal => 1 | .priv => 2 | .window => 3 | .align => 4 | .page => 5 | .prot => 6 | .collapse => 7 | .keyrev => 8
  | .ue => 9 | .copyue => 10 | .fetime => 11 | .cnttime => 12 | .patinv => 13 | .patfault => 14 | .tapefault => 15
  | .benchlink => 16 | .wstack => 17 | .brk => 18 | .trapi => 19

/-- The instruction address a trap records: the first pending prefix, or the instruction (R34). -/
def Thread.iaddr (h : Thread) : BitVec 48 := match h.pfxAt with | some p => p | none => h.at'

/-- The address in a loop register as a signed word offset from iaddr, 0x8000_0000 outside 32 bits (R389; log 30). -/
def loopOff (r : Word) (iaddr : BitVec 48) : Nat :=
  let q := (((r.setWidth 48).toNat : Int) - iaddr.toNat) / 4
  if -2147483648 ≤ q ∧ q ≤ 2147483647 then low q 32 else 0x80000000

/-- dw7 of an instruction record (R389). -/
def recWindow (k : Core) (h : Thread) : Word :=
  wordN (k.cy % 1024 * 2 ^ 50 + k.cx % 1024 * 2 ^ 40 + h.annul % 4 * 2 ^ 36 + h.wsl.toNat / 64 * 2 ^ 26 +
    h.wsp.toNat / 64 * 2 ^ 16 + h.wdp.toNat)

/-- The record of a slot as it stands, before its sequence number. -/
def mkRec (k : Core) (t : Nat) (org : Nat) (c : Cause) (fa : Word) (iword : BitVec 32) (e : Bool) (dw7 : Word) : TrapRec :=
  let h := k.thr t
  let ia := h.iaddr
  { seq := 0, e := e, org := org, slot := t, cause := c, iaddr := if e then 0 else ia.toNat, faddr := fa, lcn := k.lcn,
    ctx := k.ctx, iword := iword, ls0 := if e then 0 else loopOff h.ls0 ia, le0 := if e then 0 else loopOff h.le0 ia,
    ls1 := if e then 0 else loopOff h.ls1 ia, le1 := if e then 0 else loopOff h.le1 ia,
    lc0 := if e then 0 else h.lc0, lc1 := if e then 0 else h.lc1, dw7 := dw7, field := k.field.getD 0, inc := h.inc }

/-- The eight doublewords of a record (R389). -/
def TrapRec.words (r : TrapRec) : List Word :=
  [wordN r.seq,
   wordN (b2n r.rpt * 2 ^ 61 + b2n r.e * 2 ^ 60 + r.org * 2 ^ 58 + r.slot * 2 ^ 54 + r.cause.code * 2 ^ 48 + r.iaddr),
   r.faddr,
   wordN (r.lcn * 2 ^ 44 + r.ctx * 2 ^ 32 + r.iword.toNat),
   wordN (r.le0 * 2 ^ 32 + r.ls0), wordN (r.le1 * 2 ^ 32 + r.ls1),
   wordN (r.lc1.toNat * 2 ^ 32 + r.lc0.toNat), r.dw7]

/-- Send a record to the agent of the die that holds the core: it takes the next sequence number (R359, R391), and will be
served in the modes its partition has now (15 R355). -/
def State.sendRec (s : State) (c : Nat) (r : TrapRec) : State :=
  let n := s.seqNo
  let d := dieOf c
  let r := { r with seq := n, modes := (s.part (s.core c).part).modes }
  ({ s.modDie d (fun x => { x with recs := x.recs ++ [r] }) with seqNo := n + 1 }).post (.trapService d n)

/-- What a thread that parks keeps of its wait: the scheduler's TPLAY in slot 0 is to be performed again whole (15 R349,
R394). -/
def Wait.kept : Wait → Wait
  | .tplay Option.none _ => .tplay Option.none [{ idx := 0, word := 0, vals := [], sq0 := 0, sqr := 0, ver := 0 }]
  | .took ws => .took ws
  | _ => .none

/-- What the instruction of a thread took of a generator when it issued, before it was held back or parked (R316). -/
def Thread.took (h : Thread) : Option (List Word) :=
  match h.operands.gen, h.wait with
  | some ws, _ => some ws
  | none, .took ws => some ws
  | none, _ => none

/-- What a thread keeps of its wait when an engine fault parks it. -/
def Thread.keptWait (h : Thread) : Wait := match h.took with | some ws => .took ws | none => h.wait.kept

/-- The issuing thread's write waits for the scoreboard with what the instruction took of its generator (R269, R316). -/
def State.blockTook (s : State) (i : Instr) (ws : List Word) : State :=
  s.modTh (fun h => { h.await (.retry i) with opnd := some { h.operands with gen := some ws } })

/-- True of a slot that performs a TPLAY for the scheduler. -/
def Thread.plays (h : Thread) : Bool := match h.wait with | .tplay none _ => true | _ => false

/-- Park a thread at iaddr with a record outstanding, its remaining limit held (R330); a trap at the address and with the
cause of the last replayed trap, nothing completed since, counts as a repeat (R394). -/
def Thread.park (h : Thread) (c : Cause) : Thread :=
  let ia := h.iaddr
  let same : Bool := h.repCause = c.code && h.repAt = ia.toNat
  { h.clearPfx with
    st := .parked, wait := h.wait.kept, opnd := none, pc := ia, recs := h.recs + 1,
    repCause := c.code, repAt := ia.toNat, repCount := if same then h.repCount + 1 else 0 }

/-- A thread of a core traps: it parks and its record goes to the die's agent. Nothing else changes (R142); what waited behind
its instruction for a resource goes on. -/
def State.trapOf (s : State) (c t : Nat) (cause : Cause) (fa : Word) (reg : Bool := false) : State :=
  let k := s.core c
  let r := mkRec k t 0 cause fa (k.thr t).iw false (recWindow k (k.thr t))
  let s := (s.modThr c t (fun h => h.park cause)).sendRec c { r with reg := reg }
  if (k.thr t).retries then s.wake c else s

/-- TRAP(cause) of R10: the issuing thread traps. Address 0 stands in the record of a PROT that no access raises, as of a port,
EVT or BAR (log 96). -/
def State.trap (s : State) (cause : Cause) (fa : Word := 0) : State := s.trapOf s.cur.1 s.cur.2 cause fa

/-- Replay settles one record of a slot: when none is left the thread is ready at iaddr (R394, R396); the scheduler's TPLAY
waits as it did. -/
def Thread.replay (h : Thread) : Thread :=
  if h.recs ≤ 1 then { h with recs := 0, st := if h.plays then .waiting else .ready } else { h with recs := h.recs - 1 }

/-- Replay of BRK and TRAP: the word counts as completed, so no repeat is counted over it (R173, R394). -/
def Thread.replayPast (h : Thread) : Thread := { h.advance.replay with repCause := 0, repAt := 0, repCount := 0 }

/-! ## Synchronisation events (R43) -/

/-- Set a bit of evp; a thread sleeping for it wakes (R19): WAIT and SLEEP then complete (R166). -/
def Thread.event (h : Thread) (bit : Nat) : Thread :=
  if h.st = .empty then h else
  let h := { h with evp := h.evp ||| BitVec.ofNat 16 (2 ^ bit) }
  match h.wait with
  | .sleep rd =>
    if h.st = .sleeping && h.evm &&& h.evp ≠ 0 then
      let m := h.evm &&& h.evp
      ({ h with evp := h.evp &&& ~~~ m }.setReg rd (m.setWidth 64)).retire
    else h
  | _ => h

end Sys2Proof.Machine
end

