-- ==== Sys2Proof/Machine/Flags.lean ====
section
/-! DEFINITION. Flags and rounding of the issuing thread: fxf (01 R40), the effective rounding mode (04 R108), the
effective lane format (06 R178), and the commit of results with their flags and generator steps (R60, R180). -/

namespace Sys2Proof.Machine

/-- The effective mode of R108. -/
def Thread.mode (h : Thread) : Nat :=
  let m := match h.mRound with | some x => x.toNat | none => h.rnd.toNat
  if h.mSr && (h.srLast || h.mRound = none) then 5 else m

/-- The effective lane format (R178). -/
def Thread.lanes (h : Thread) : Nat := match h.mLanes with | some x => x.toNat | none => h.efr.toNat

/-- The rounding state an instruction of the issuing thread starts with. -/
def State.rc (s : State) : Rc := { mode := s.th.mode, seed := s.th.seed }

/-- A rounding state that never rounds stochastically or in a selected mode. -/
def State.rcFixed (s : State) : Rc := { mode := 0, seed := s.th.seed }

/-- Commit a result with its flags and generator state, and retire (R105, R180). -/
def State.commit (s : State) (rd : Reg) (r : Rc × Word) : State :=
  (s.modTh (fun h => ({ h with fxf := h.fxf ||| r.1.fl, seed := r.1.seed }.setReg rd r.2))).retire

/-- The FP32 operand in a register: bits 31 to 0 (R123). -/
def lo32 (x : Word) : Nat := x.toNat % 2 ^ 32

/-- The value of an FP32 operand. -/
def f32 (x : Word) : Val := fp32.val (lo32 x)

end Sys2Proof.Machine
end

