-- ==== Sys2Proof/Machine/Operands.lean ====
section
/-! DEFINITION. Operand forms: immediates under extension prefixes (01 R31, 03 R76, 04 R117), code addresses (R132),
scopes (05 R143), directions and offsets (R6, 08 R226). -/

namespace Sys2Proof.Machine

/-- The operand of an I- or S-family instruction: 18 bits, 44 bits with one HINT, 64 bits with two (R31, R76). -/
def Thread.imm (h : Thread) (signed : Bool) (i : BitVec 18) : Word :=
  match h.hints with
  | [] => if signed then i.signExtend 64 else i.setWidth 64
  | [x] => let v : BitVec 44 := (x ++ i); if signed then v.signExtend 64 else v.setWidth 64
  | x1 :: x2 :: _ => wordN (x1.toNat * 2 ^ 44 + x2.toNat * 2 ^ 18 + i.toNat)

/-- A sign-extended immediate of the issuing thread. -/
def State.immS (s : State) (i : BitVec 18) : Word := s.th.imm true i

/-- A zero-extended immediate of the issuing thread. -/
def State.immU (s : State) (i : BitVec 18) : Word := s.th.imm false i

/-- A pending scope modifier replaces the scope field (R32, R143). -/
def State.scope (s : State) (field : Nat) : Nat := match s.th.mScope with | some x => x.toNat | none => field

/-- Check of a code address (R132): a fault, or the virtual address. -/
def codeAddr (t : Word) : Except Cause (BitVec 48) :=
  if wbits t 1 0 ≠ 0 then .error .align else if wbits t 63 48 ≠ 0x2000 then .error .window else .ok (t.setWidth 48)

/-- The generic address in window 0x2 of a virtual address. -/
def codeWord (p : BitVec 48) : Word := 0x2000000000000000 + p.setWidth 64

/-- The opposite direction (R6). -/
def opposite (d : Nat) : Nat := (d + 2) % 4

/-- An own-local-store offset operand (R226): a multiple of `al`, and n bytes within 0x0000 to 0x5FFF. -/
def offsetFault (a : Word) (al n : Nat) : Option Cause :=
  if a.toNat % al ≠ 0 then some .align else if 0x6000 < a.toNat + n then some .prot else none

end Sys2Proof.Machine
end

