-- ==== Sys2Proof/Machine/Crypto.lean ====
section
/-! DEFINITION. The published algorithms the manual names: AES-256 (FIPS 197), XTS over a 32-byte data unit (IEEE 1619; 16
R380), the AES key wrap of RFC 3394 (16 R381), SHA-256 (FIPS 180-4; 16 R376, 19 R427, R432) and RSASSA-PSS verification (RFC 8017; 19 R427). Bytes are numbers below
256, strings of them lists. The algorithms themselves stand outside the manual (log 17). -/

namespace Sys2Proof.Machine

/-- The bytes of a number, lowest first, as numbers; the number of such bytes. -/
def natBytes (v : Nat) : Nat → List Nat
  | 0 => []
  | n + 1 => v % 256 :: natBytes (v / 256) n
def ofNatBytes : List Nat → Nat
  | [] => 0
  | b :: t => b + 256 * ofNatBytes t

/-- The exclusive or of two byte strings. -/
def xorBytes (a b : List Nat) : List Nat := List.zipWith (fun x y => x ^^^ y) a b

/-! ## AES-256 -/

/-- The substitution box and its inverse, entry i in byte i. -/
def sboxTable : Nat :=
  0x16bb54b00f2d99416842e6bf0d89a18cdf2855cee9871e9b948ed9691198f8e19e1dc186b95735610ef6034866b53e708a8bbd4b1f74dde8c6b4a61c2e2578ba08ae7a65eaf4566ca94ed58d6d37c8e779e4959162acd3c25c2406490a3a32e0db0b5ede14b8ee4688902a22dc4f816073195d643d7ea7c41744975fec130ccdd2f3ff1021dab6bcf5389d928f40a351a89f3c507f02f94585334d43fbaaefd0cf584c4a39becb6a5bb1fc20ed00d153842fe329b3d63b52a05a6e1b1a2c830975b227ebe28012079a059618c323c7041531d871f1e5a534ccf73f362693fdb7c072a49cafa2d4adf04759fa7dc982ca76abd7fe2b670130c56f6bf27b777c63
def sboxInverse : Nat :=
  0x7d0c2155631469e126d677ba7e042b17619953833cbbebc8b0f52aae4d3be0a0ef9cc9939f7ae52d0d4ab519a97f51605fec8027591012b131c7078833a8dd1ff45acd78fec0db9a2079d2c64b3e56fc1bbe18aa0e62b76f89c5291d711af1476edf751ce837f9e28535ade72274ac9673e6b4f0cecff297eadc674f4111913a6b8a130103bdafc1020f3fca8f1e2cd00645b3b80558e4f70ad3bc8c00abd890849d8da75746155edab9edfd5048706c92b6655dcc5ca4d41698688664f6f87225d18b6d49a25b76b224d92866a12e084ec3fa420b954cee3d23c2a632947b54cbe9dec444438e3487ff2f9b8239e37cfbd7f3819ea340bf38a53630d56a0952

/-- Byte i of a table. -/
def tableByte (t i : Nat) : Nat := t / 2 ^ (8 * i) % 256

/-- Multiplication by x, and by an element of four bits, in the field of 256 elements. -/
def xtime (a : Nat) : Nat := if a < 128 then 2 * a else (2 * a) ^^^ 0x11B
def gfMul (a b : Nat) : Nat :=
  let (a2, a4) := (xtime a, xtime (xtime a))
  (if b % 2 = 1 then a else 0) ^^^ (if b / 2 % 2 = 1 then a2 else 0) ^^^ (if b / 4 % 2 = 1 then a4 else 0) ^^^
    (if b / 8 % 2 = 1 then xtime a4 else 0)

/-- Word i of a key schedule from the words before it, newest first. -/
def keyWord (i : Nat) (l : List (List Nat)) : List Nat :=
  let t := l.headD []
  let t := if i % 8 = 0 then
      xorBytes ((t.drop 1 ++ t.take 1).map (tableByte sboxTable)) [2 ^ (i / 8 - 1), 0, 0, 0]
    else if i % 8 = 4 then t.map (tableByte sboxTable) else t
  xorBytes (l.getD 7 []) t

/-- The words after the first eight, newest first. -/
def keyWords : (n : Nat) → (i : Nat) → List (List Nat) → List (List Nat)
  | 0, _, l => l
  | n + 1, i, l => keyWords n (i + 1) (keyWord i l :: l)

/-- A string in pieces of n. -/
def pieces (n : Nat) : (count : Nat) → List Nat → List (List Nat)
  | 0, _ => []
  | c + 1, l => l.take n :: pieces n c (l.drop n)

/-- The fifteen round keys of a 32-byte key. -/
def roundKeys (key : List Nat) : List (List Nat) :=
  pieces 16 15 ((keyWords 52 8 (pieces 4 8 key).reverse).reverse.flatten)

/-- The bytes of a state moved: byte r + 4c comes from column c + r, or c − r (mod 4). -/
def shiftRows (l : List Nat) : List Nat := (upto 16).map (fun i => l.getD (i % 4 + 4 * ((i / 4 + i % 4) % 4)) 0)
def unshiftRows (l : List Nat) : List Nat := (upto 16).map (fun i => l.getD (i % 4 + 4 * ((i / 4 + 4 - i % 4) % 4)) 0)

/-- Every column of a state times a matrix given by its first row. -/
def mixWith (m l : List Nat) : List Nat :=
  (upto 16).map (fun i => (upto 4).foldl (fun a j => a ^^^ gfMul (l.getD (i / 4 * 4 + j) 0) (m.getD ((j + 4 - i % 4) % 4) 0)) 0)

/-- The rounds of the cipher after the first key. -/
def encRounds : List (List Nat) → List Nat → List Nat
  | [], l => l
  | [k], l => xorBytes (shiftRows (l.map (tableByte sboxTable))) k
  | k :: r, l => encRounds r (xorBytes (mixWith [2, 3, 1, 1] (shiftRows (l.map (tableByte sboxTable)))) k)

/-- The rounds of the inverse cipher after the last key. -/
def decRounds : List (List Nat) → List Nat → List Nat
  | [], l => l
  | [k], l => xorBytes ((unshiftRows l).map (tableByte sboxInverse)) k
  | k :: r, l => decRounds r (mixWith [14, 11, 13, 9] (xorBytes ((unshiftRows l).map (tableByte sboxInverse)) k))

/-- One block under a 32-byte key. -/
def aesEnc (key blk : List Nat) : List Nat :=
  match roundKeys key with | k :: r => encRounds r (xorBytes blk k) | [] => blk
def aesDec (key blk : List Nat) : List Nat :=
  match (roundKeys key).reverse with | k :: r => decRounds r (xorBytes blk k) | [] => blk

/-! ## XTS over 32 bytes -/

/-- The tweak of the next block. -/
def nextTweak (t : Nat) : Nat := let d := 2 * t; if d < 2 ^ 128 then d else (d % 2 ^ 128) ^^^ 0x87

/-- The two blocks of a data unit through a block function under the first key, with the tweaks of the second. -/
def xtsWith (f : List Nat → List Nat → List Nat) (pair : BitVec 512) (tweak v : Nat) : Nat :=
  let k1 := natBytes pair.toNat 32
  let t0 := aesEnc (natBytes (pair.toNat / 2 ^ 256) 32) (natBytes tweak 16)
  let t1 := natBytes (nextTweak (ofNatBytes t0)) 16
  let one := fun (t b : List Nat) => ofNatBytes (xorBytes (f k1 (xorBytes b t)) t)
  one t0 (natBytes v 16) + one t1 (natBytes (v / 2 ^ 128) 16) * 2 ^ 128

/-- AES-256-XTS of the 32 bytes of a data unit, as a little-endian number, under a key pair and a tweak. -/
def xtsEnc (pair : BitVec 512) (tweak v : Nat) : Nat := xtsWith aesEnc pair tweak v
def xtsDec (pair : BitVec 512) (tweak v : Nat) : Nat := xtsWith aesDec pair tweak v

/-! ## The key wrap of RFC 3394 -/

/-- One step of unwrapping: register a and blocks r, at step t for block i. -/
def unwrapStep (kek : List Nat) (x : List Nat × List (List Nat)) (t i : Nat) : List Nat × List (List Nat) :=
  let b := aesDec kek (xorBytes x.1 (natBytes t 8).reverse ++ x.2.getD i [])
  (b.take 8, x.2.set i (b.drop 8))

/-- The 64-byte key pair of a 72-byte blob wrapped under a key; none when its check value is wrong. -/
def keyUnwrap (kek : BitVec 256) (blob : List Byte) : Option (BitVec 512) :=
  let l := blob.map (fun b => b.toNat)
  let k := natBytes kek.toNat 32
  let order := (upto 48).map (fun n => 48 - n)
  let x := order.foldl (fun x t => unwrapStep k x t ((t - 1) % 8)) (l.take 8, pieces 8 8 (l.drop 8))
  if x.1 = List.replicate 8 0xA6 then some (BitVec.ofNat 512 (ofNatBytes x.2.flatten)) else none

/-! ## SHA-256 -/

/-- The 64 round constants, constant i in bits 32i + 31 to 32i. -/
def shaTable : Nat :=
  0xc67178f2bef9a3f7a4506ceb90befffa8cc7020884c8781478a5636f748f82ee682e6ff35b9cca4f4ed8aa4a391c0cb334b0bcb52748774c1e376c0819a4c116106aa070f40e3585d6990624d192e819c76c51a3c24b8b70a81a664ba2bfe8a192722c8581c2c92e766a0abb650a735453380d134d2c6dfc2e1b213827b70a851429296706ca6351d5a79147c6e00bf3bf597fc7b00327c8a831c66d983e515276f988da5cb0a9dc4a7484aa2de92c6f240ca1cc0fc19dc6efbe4786e49b69c1c19bf1749bdc06a780deb1fe72be5d74550c7dc3243185be12835b01d807aa98ab1c5ed5923f82a459f111f13956c25be9b5dba5b5c0fbcf71374491428a2f98

/-- A 32-bit word rotated right. -/
def rotr32 (x n : Nat) : Nat := x / 2 ^ n + x % 2 ^ n * 2 ^ (32 - n)

/-- The message schedule: words still to make, from those made, newest first. -/
def shaSchedule : Nat → List Nat → List Nat
  | 0, l => l
  | n + 1, l =>
    let (a, b) := (l.getD 1 0, l.getD 14 0)
    let s1 := rotr32 a 17 ^^^ rotr32 a 19 ^^^ a / 2 ^ 10
    let s0 := rotr32 b 7 ^^^ rotr32 b 18 ^^^ b / 2 ^ 3
    shaSchedule n ((s1 + l.getD 6 0 + s0 + l.getD 15 0) % 2 ^ 32 :: l)

/-- The rounds of one block on the words a to h. -/
def shaRounds : List Nat → Nat → List Nat → List Nat
  | [], _, v => v
  | w :: r, i, v =>
    let x := fun j => v.getD j 0
    let (a, b, c, e) := (x 0, x 1, x 2, x 4)
    let t1 := x 7 + (rotr32 e 6 ^^^ rotr32 e 11 ^^^ rotr32 e 25) + ((e &&& x 5) ^^^ ((2 ^ 32 - 1 - e) &&& x 6)) +
      shaTable / 2 ^ (32 * i) % 2 ^ 32 + w
    let t2 := (rotr32 a 2 ^^^ rotr32 a 13 ^^^ rotr32 a 22) + ((a &&& b) ^^^ (a &&& c) ^^^ (b &&& c))
    shaRounds r (i + 1) [(t1 + t2) % 2 ^ 32, a, b, c, (x 3 + t1) % 2 ^ 32, e, x 5, x 6]

/-- A big-endian word of bytes. -/
def wordBE (l : List Nat) : Nat := l.foldl (fun a b => a * 256 + b) 0

/-- One block of 64 bytes. -/
def shaBlock (v : List Nat) (blk : List Nat) : List Nat :=
  let w := (shaSchedule 48 ((pieces 4 16 blk).map wordBE).reverse).reverse
  List.zipWith (fun a b => (a + b) % 2 ^ 32) v (shaRounds w 0 v)

/-- The SHA-256 of a string of bytes, as the little-endian number of its 32 bytes. -/
def sha256 (msg : List Byte) : BitVec 256 :=
  let n := msg.length
  let l := msg.map (fun b => b.toNat) ++ 0x80 :: List.replicate ((119 - n % 64) % 64) 0 ++ (natBytes (8 * n) 8).reverse
  let h := (pieces 64 (l.length / 64) l).foldl shaBlock
    [0x6A09E667, 0xBB67AE85, 0x3C6EF372, 0xA54FF53A, 0x510E527F, 0x9B05688C, 0x1F83D9AB, 0x5BE0CD19]
  BitVec.ofNat 256 (ofNatBytes (h.flatMap (fun w => (natBytes w 4).reverse)))

/-- The bytes of a digest as numbers. -/
def digest (l : List Nat) : List Nat := natBytes (sha256 (l.map (fun b => BitVec.ofNat 8 b))).toNat 32

/-! ## RSASSA-PSS of RFC 8017 with RSA-3072, SHA-256, MGF1 with SHA-256 and a 32-byte salt -/

/-- The n-th square of a square of x, modulo m. -/
def squares (m : Nat) : Nat → Nat → Nat
  | 0, x => x
  | n + 1, x => squares m n (x * x % m)

/-- The first n bytes of MGF1 of a seed. -/
def mgf1 (seed : List Nat) (n : Nat) : List Nat :=
  ((upto (ceilDiv n 32)).flatMap (fun i => digest (seed ++ (natBytes i 4).reverse))).take n

/-- A signature verifies over a message under a modulus with exponent 65,537; both are big-endian strings of 384 bytes. -/
def pssVerify (modulus msg sig : List Byte) : Bool :=
  let num := fun (l : List Byte) => ofNatBytes (l.map (fun b => b.toNat)).reverse
  let (n, s) := (num modulus, num sig)
  let em := (natBytes (squares n 16 s * s % n) 384).reverse
  let h := (em.drop 351).take 32
  let db := ofNatBytes (xorBytes (em.take 351) (mgf1 h 351)).reverse % 2 ^ 2807
  let salt := (natBytes db 32).reverse
  decide (modulus.length = 384) && decide (sig.length = 384) && decide (s < n) && em.getD 383 0 = 0xBC &&
    decide (em.getD 0 0 < 128) && decide (db / 2 ^ 256 = 1) &&
    digest (List.replicate 8 0 ++ digest (msg.map (fun b => b.toNat)) ++ salt) = h

end Sys2Proof.Machine
end

