-- ==== Sys2Proof/Machine/Report.lean ====
section
/-! DEFINITION. Records the device writes to host memory: rings (16 R370), reports (R382 to R384). -/

namespace Sys2Proof.Machine

/-- The leader of the firmware cores runs; otherwise its duties wait (19 R419, R422). -/
def State.leaderUp (s : State) : Bool := !s.fwStopped.contains s.leaseHolder

/-- A ring that cannot take a record: unset, or full (R370). -/
def HostRing.full (r : HostRing) : Bool := !r.isSet || decide (2 ^ r.size ≤ r.wix - r.rix)

/-- Raise an MSI-X vector of a function; a masked one is pending (R357). -/
def State.raiseVector (s : State) (fn vec : Nat) : State :=
  if s.msixMask.contains (fn, vec) then { s with msixPend := s.msixPend.filter (fun x => x ≠ (fn, vec)) ++ [(fn, vec)] }
  else { s with msix := s.msix ++ [(fn, vec)] }

/-- The host masks or unmasks a vector: one pending behind its mask is raised (R357). -/
def State.maskVector (s : State) (fn vec : Nat) (on : Bool) : State :=
  if on then { s with msixMask := s.msixMask.filter (fun x => x ≠ (fn, vec)) ++ [(fn, vec)] }
  else
    let s' := { s with msixMask := s.msixMask.filter (fun x => x ≠ (fn, vec)), msixPend := s.msixPend.filter (fun x => x ≠ (fn, vec)) }
    if s.msixPend.contains (fn, vec) then { s' with msix := s'.msix ++ [(fn, vec)] } else s'

/-- Advanced Error Reporting of a function on a port records an error of the link or of the transaction layer (R357): 0 a
link error, 1 an Unsupported Request, 2 a Completer Abort, 3 a request beyond the size limits (log 77). -/
def State.aerRecord (s : State) (port fn kind : Nat) : State := { s with aer := s.aer ++ [(port, fn, kind)] }

/-- Write a record at a ring's write index, then advance it (R370). -/
def State.ringWrite (s : State) (r : HostRing) (fn vec : Nat) (rec : List Byte) : State × HostRing :=
  (({ s with hostMem := mwriteBytes s.hostMem (r.base + rec.length * (r.wix % 2 ^ r.size)) rec } : State).raiseVector fn vec,
   { r with wix := r.wix + 1 })

/-- The 64 bytes of a report on the ring of function part + 1, or of function 0 for the package (R382). -/
def Report.bytes (r : Report) (lost : Nat) : List Byte :=
  bytesLE r.seq 8 ++ bytesLE r.cls 1 ++ bytesLE (r.part.getD 255) 1 ++ bytesLE r.flags 2 ++ bytesLE r.count 4 ++ bytesLE r.loc 8 ++
    bytesLE r.syn 8 ++ bytesLE lost 4 ++ bytesLE r.ctx 2 ++ bytesLE 0 26

/-- Deliver a report on one ring, or drop it and count it as lost (R370, R384). -/
def State.reportOn (s : State) (g : HostRing) (fn : Nat) (r : Report) : State × HostRing :=
  if g.full then (s, { g with lost := g.lost + 1 })
  else
    let (s, g) := s.ringWrite g fn 1 (r.bytes g.lost)
    (s, { g with lost := 0 })

/-- Deliver a report: on its partition's ring with a copy on function 0, or on function 0 alone when no partition has it
(R384). -/
def State.deliver (s : State) (r : Report) : State :=
  let s := match r.part with
    | none => s
    | some p => match tfind s.parts p with
      | none => s
      | some x =>
        let (s, g) := s.reportOn x.rring (p + 1) r
        s.modPart p (fun x => { x with rring := g })
  let (s, g) := s.reportOn s.pring 0 r
  { s with pring := g }

/-- Deliver every waiting report, oldest first. -/
def State.deliverReports (s : State) : State := s.reports.foldl (fun s r => s.deliver r) { s with reports := [] }

/-- True of two reports of one location and class (R384). A telemetry record stands for its die and counter alone. -/
def Report.coalesces (r q : Report) : Bool :=
  decide (r.cls ≠ 14) && decide (r.cls = q.cls) && decide (r.part = q.part) && decide (r.loc = q.loc)

/-- Raise a report: it waits in the ring hardware until the tick ends, and coalesces with one of its location and class that
waits there (R384; log 78). The event takes a number (R359). -/
def State.report (s : State) (part : Option Nat) (cls flags loc syn ctx : Nat) : State :=
  let r : Report := { seq := s.seqNo, cls := cls, part := part.bind (fun p => (tfind s.parts p).map (fun _ => p)), flags := flags,
                      count := 1, loc := loc, syn := syn, ctx := ctx }
  { s with seqNo := s.seqNo + 1,
           reports := if s.reports.any r.coalesces
             then s.reports.map (fun q => if r.coalesces q then { q with count := q.count + 1 } else q)
             else s.reports ++ [r] }

/-- The partition that owns a die, a stack, a haul port (R375). -/
def State.dieOwner (s : State) (d : Nat) : Option Nat := (s.parts.find? (fun e => bits e.2.dies d d = 1)).map (·.1)
def State.stackOwner (s : State) (h : Nat) : Option Nat := (s.parts.find? (fun e => bits e.2.stackSet h h = 1)).map (·.1)
def State.portOwner (s : State) (i : Nat) : Option Nat := (s.parts.find? (fun e => bits e.2.ports i i = 1)).map (·.1)

/-- The partition that owns a core's die, and the core's coordinates in it (R6, R383). Of a die that no partition owns the
coordinates are those of partition 0's origin, where R6 gives none (log 94). -/
def State.coreAt (s : State) (c : Nat) : Option Nat × Nat × Nat :=
  let o := s.dieOwner (dieOf c)
  let p := s.part (o.getD 0)
  (o, posX c - p.x0, posY c - p.y0)

end Sys2Proof.Machine
end

