-- ==== Sys2Proof/Machine/Space.lean ====
section
/-! DEFINITION. What lies behind the address windows: homes and their bytes (10 R280), HBM under keys (16 R380), the
undo log (18 R406), page tables and translation (09 R273, 16 R377, R378), and the decoding of generic addresses with
their faults (05 R144 to R146). -/

namespace Sys2Proof.Machine

/-! ## HBM (R377, R380, R406) -/

/-- The key pair of a slot. -/
def State.keyPair (s : State) (slot : Nat) : BitVec 512 :=
  match tget KeySlot.empty s.keys slot with | .loaded k => k | .revoking k => k | _ => 0

/-- The tweak of a sector (R380). -/
def sectorTweak (sec : Nat) : Nat := sec / 2 ^ 35 * 2 ^ 64 + sec % 2 ^ 35

/-- A byte of HBM read under a key. A sector the partition last wrote under another pair decrypts to something else (R380);
one it has not written since its creation holds what another left there, when its stacks were another's before (log 15). -/
def State.hbmGet (s : State) (key : BitVec 512) (pa : Nat) : Byte :=
  let p := s.part (pa / 2 ^ 40)
  match tfind s.hbmKey (pa / 32) with
  | none => if p.usedBefore then Config.foreignByte key pa p.era else mget s.hbm pa
  | some (k, e) =>
    if e ≠ p.era then Config.foreignByte key pa p.era
    else if k = key then mget s.hbm pa
    else
      let t := sectorTweak (pa / 32)
      BitVec.ofNat 8 (xtsDec key t (xtsEnc k t (mread s.hbm (pa / 32 * 32) 32)) / 256 ^ (pa % 32))

/-- n bytes of HBM under a key, little-endian. -/
def State.hbmRead (s : State) (key : BitVec 512) (pa : Nat) : Nat → Nat
  | 0 => 0
  | n + 1 => (s.hbmGet key pa).toNat + 256 * s.hbmRead key (pa + 1) n

/-- Bytes a sector decrypts to under a key. -/
def State.sectorBytes (s : State) (key : BitVec 512) (sec : Nat) : List Byte :=
  (upto 32).map (fun i => s.hbmGet key (sec * 32 + i))

/-- Bring a sector under a key before a write: the bytes not written are what the old data decrypts to (R380). -/
def State.rekey (s : State) (key : BitVec 512) (sec : Nat) : State :=
  let p := s.part (sec / 2 ^ 35)
  if tfind s.hbmKey sec = some (key, p.era) then s
  else if tfind s.hbmKey sec = none && !p.usedBefore then { s with hbmKey := tset s.hbmKey sec (key, p.era) }
  else { s with hbm := mwriteBytes s.hbm (sec * 32) (s.sectorBytes key sec), hbmKey := tset s.hbmKey sec (key, p.era) }

/-- Put the masked bytes of v at pa under a key. -/
def State.hbmPut (s : State) (key : BitVec 512) (pa v mask : Nat) : Nat → State
  | 0 => s
  | n + 1 =>
    let s := if mask % 2 = 1 then
        let s := s.rekey key (pa / 32)
        { s with hbm := mset s.hbm pa (BitVec.ofNat 8 v) }
      else s
    s.hbmPut key (pa + 1) (v / 256) (mask / 2) n

/-- The masked bytes of a write of n bytes at a cover doubleword w whole (18 R417; log 31). -/
def covers (a mask n w : Nat) : Bool :=
  (upto 8).all (fun i => decide (a ≤ 8 * w + i) && decide (8 * w + i < a + n) && bits mask (8 * w + i - a) (8 * w + i - a) = 1)

/-- Write the masked bytes of v at pa under a key; an uncorrectable doubleword written whole is clear again (R417). -/
def State.hbmWrite (s : State) (key : BitVec 512) (pa v mask n : Nat) : State :=
  { s.hbmPut key pa v mask n with hbmUe := s.hbmUe.filter (fun w => !covers pa mask n w) }

/-- True when a range of HBM holds an uncorrectable doubleword. -/
def State.hbmBad (s : State) (pa n : Nat) : Bool := s.hbmUe.any (fun w => w * 8 < pa + n && pa < w * 8 + 8)

/-! ## Pages (R377, R378) -/

/-- Stacks of a partition in an affinity group (R277). -/
def Part.groupStacks (p : Part) (g : Nat) : Nat := if g < 3 then popcount (p.stackSet / 2 ^ (4 * g)) 4 else 0

/-- A partition physical address the partition has (R377). -/
def Part.ppaOk (p : Part) (ppa : Nat) : Bool := decide (ppa % 2 ^ 38 < 48 * 2 ^ 30 * p.groupStacks (ppa / 2 ^ 38))

/-- The group that serves a die: the nearest with stacks, a tie to the lower number (R277). -/
def Part.nearGroup (p : Part) (d : Nat) : Nat :=
  let g := d % 3
  let order := match g with | 0 => [0, 1, 2] | 1 => [1, 0, 2] | _ => [2, 1, 0]
  match order.find? (fun x => decide (0 < p.groupStacks x)) with | some x => x | none => 0

/-- Shift and index width of a level of the walk (R377). -/
def levelShift : Nat → Nat | 0 => 39 | 1 => 30 | 2 => 21 | _ => 16
def levelBits : Nat → Nat | 3 => 5 | _ => 9

/-- What a walk ends with (R378): a leaf, a cause with the level of a malformed entry, or an entry that is uncorrectable, at a
physical address under a key slot (18 R417). -/
inductive WalkEnd where
  | leaf (x : Xlate)
  | stop (c : Cause) (malformed : Option Nat)
  | bad (pa slot : Nat)
  deriving DecidableEq, Repr

/-- The translation a walk found, or the cause it meets. -/
def WalkEnd.found : WalkEnd → Except Cause Xlate | .leaf x => .ok x | .stop c _ => .error c | .bad _ _ => .error .ue

/-- A leaf entry's result at a level. -/
def leafEnd (p : Part) (part va level e : Nat) : WalkEnd :=
  let frame := bits e 39 16 * 2 ^ 16
  let sh := levelShift level
  let off := frame % 2 ^ 38
  let rep := bits e 5 5 = 1
  let bad : Bool := bits e 63 40 ≠ 0 || bits e 15 13 ≠ 0 || bits e 4 4 ≠ 0 || level = 0 || frame % 2 ^ sh ≠ 0 ||
    !p.ppaOk frame || (rep && (upto 3).any (fun g => decide (p.groupStacks g ≠ 0) && !p.ppaOk (g * 2 ^ 38 + off)))
  if bad then .stop .prot (some level)
  else .leaf { unit' := 0, part := part, base := va / 2 ^ sh * 2 ^ sh, bits := sh, frame := frame, key := bits e 12 7,
               r := bits e 2 2 = 1, w := bits e 3 3 = 1, rep := rep }

/-- The entry of a table at a level for a virtual address. -/
def pteAddr (table level va : Nat) : Nat := table + 8 * (va / 2 ^ levelShift level % 2 ^ levelBits level)

/-- The walk of R377 from a level's table, with the levels left to go. -/
def State.walkFrom (s : State) (part va : Nat) (key : BitVec 512) : (left : Nat) → (level table : Nat) → WalkEnd
  | 0, _, _ => .stop .page none
  | n + 1, level, table =>
    let p := s.part part
    let a := part * 2 ^ 40 + pteAddr table level va
    if s.hbmBad a 8 then .bad a (wbits p.ptroot 5 0)
    else
      let e := s.hbmRead key a 8
      if bits e 0 0 = 0 then .stop .page none
      else if bits e 1 1 = 1 then leafEnd p part va level e
      else if level = 3 || bits e 7 2 ≠ 0 || bits e 63 40 ≠ 0 || !p.ppaOk (bits e 39 8 * 256) then
        .stop .prot (some level)
      else s.walkFrom part va key n (level + 1) (bits e 39 8 * 256)

/-- The key fault of a slot (R378): not held or empty before revoked. -/
def State.keyFault (s : State) (part slot : Nat) : Option Cause :=
  if bits (s.part part).keys slot slot = 0 then some .prot
  else match tget KeySlot.empty s.keys slot with
    | .empty => some .prot
    | .loaded _ => none
    | .revoking _ => some .keyrev
    | .revoked => some .keyrev

/-- The walk from PTROOT; the tables' own slot is checked as a page's slot is. -/
def State.walk (s : State) (part va : Nat) : WalkEnd :=
  let p := s.part part
  let slot := wbits p.ptroot 5 0
  let root := wbits p.ptroot 39 12 * 2 ^ 12
  match s.keyFault part slot with
  | some c => .stop c none
  | none => if !p.ppaOk root then .stop .prot (some 0) else s.walkFrom part va (s.keyPair slot) 4 0 root

/-- Permission faults of an access (bit 0 read, bit 1 write) to a page, without its key (R145, R278). -/
def Xlate.denies (x : Xlate) (acc : Nat) : Option Cause :=
  if (acc % 2 = 1 && !x.r) || (acc / 2 % 2 = 1 && !x.w) then some .prot
  else if acc / 2 % 2 = 1 && x.rep then some .collapse else none

/-- A COLLAPSE whose change of translation is not complete covers a page (R279). -/
def State.collapsing (s : State) (x : Xlate) : Bool :=
  (s.part x.part).changes.any (fun q => decide (q.then' = 3) && decide (q.base < x.base + 2 ^ x.bits) && decide (x.base < q.base + q.len))

/-- As `Xlate.denies`; no write to a page is performed before its collapse is complete (R279). -/
def State.denies (s : State) (x : Xlate) (acc : Nat) : Option Cause :=
  match x.denies acc with
  | some c => some c
  | none => if acc / 2 % 2 = 1 && s.collapsing x then some .collapse else none

/-- Faults of a page found by a walk, in the order of R145: no slot held or empty, permission, revoked key, collapse. -/
def State.walkDenies (s : State) (x : Xlate) (acc : Nat) : Option Cause :=
  match s.keyFault x.part x.key with
  | some .prot => some .prot
  | kf => match s.denies x acc with
    | some .prot => some .prot
    | d => match kf with | some c => some c | none => d

/-! ## Translation units (R273): stations, walker complexes, micro-TLBs, gather engines -/

def stationUnit (c : Nat) : Nat := clusterOf c
def walkerUnit (d : Nat) : Nat := 20000 + d
def gatherUnit (e : Nat) : Nat := 30000 + e
def microUnit (c pipe : Nat) : Nat := 100000 + 2 * c + pipe

/-- Entries a unit holds. -/
def unitSize (u : Nat) : Nat := if u < 20000 then 64 else if u < 30000 then 16384 else if u < 100000 then 256 else 4

/-- The units a requester looks in before the walker complex (R273): a micro-TLB has its cluster's station behind it. -/
def unitPath (u : Nat) : List Nat := if 100000 ≤ u then [u, stationUnit ((u - 100000) / 2)] else [u]

/-- The cached entry of a unit for an address. -/
def State.cached (s : State) (u part va : Nat) : Option Xlate :=
  s.xlate.find? (fun x => decide (x.unit' = u) && decide (x.part = part) && decide (x.base = va / 2 ^ x.bits * 2 ^ x.bits))

/-- Units forget the translations a test selects; what the cores hold under them is remembered (R275; log 23). -/
def State.forget (s : State) (p : Xlate → Bool) : State :=
  let past := (s.xlate.filter p).foldl (fun (l : List Xlate) x =>
    let y := { x with unit' := 0 }; if l.contains y then l else l ++ [y]) s.xpast
  { s with xlate := s.xlate.filter (fun x => !p x), xpast := past }

/-- Install an entry in a unit, replacing its oldest when it is full. -/
def State.install (s : State) (u : Nat) (x : Xlate) : State :=
  let mine := s.xlate.filter (fun y => y.unit' = u)
  let s := if unitSize u ≤ mine.length then s.forget (fun y => mine.head? = some y) else s
  { s with xlate := s.xlate ++ [{ x with unit' := u }] }

/-- The physical address of a virtual one under an entry, for a core's die (R277). -/
def State.physical (s : State) (x : Xlate) (d va : Nat) : Nat :=
  let ppa := x.frame + va % 2 ^ x.bits
  let ppa := if x.rep then (s.part x.part).nearGroup d * 2 ^ 38 + ppa % 2 ^ 38 else ppa
  x.part * 2 ^ 40 + ppa

/-- The first unit of a path that holds an entry: the entry, and the units that missed. -/
def State.lookup (s : State) (part va : Nat) : List Nat → Option (Xlate × List Nat)
  | [] => none
  | u :: r =>
    match s.cached u part va with
    | some x => some (x, [])
    | none => (s.lookup part va r).map (fun y => (y.1, u :: y.2))

/-- The stack of a granule (R360, R377): a group's space is spread over its stacks, how the manual does not say (log 28). -/
def State.stackOf (s : State) (p ppa : Nat) : Nat :=
  let g := ppa % 2 ^ 40 / 2 ^ 38
  let l := (upto 4).filter (fun i => bits (s.part p).stackSet (4 * g + i) (4 * g + i) = 1)
  l.getD (Config.granule (ppa % 2 ^ 40 / 256) % max 1 l.length) 0 + 4 * g

/-- Report of a word in error, corrected (1) or not (2): classes 1 and 2 in a local store, 3 and 4 in HBM (R383, 18 R417). -/
def State.eccReport (s : State) (d : Dest) (flag ctx : Nat) : State :=
  match d with
  | .ls pos off =>
    let (o, x, y) := s.coreAt pos
    s.report o flag flag (x * 2 ^ 16 + y + off * 2 ^ 32) (Config.syndrome (pos * 2 ^ 15 + off)).toNat ctx
  | .hbm pa _ =>
    let p := pa / 2 ^ 40
    s.report (some p) (2 + flag) flag (s.stackOf p pa + (Config.hbmPlace pa).toNat * 2 ^ 8) (Config.syndrome pa).toNat ctx
  | .imp .. => s

/-- Report of an uncorrectable word met at a home. -/
def State.ueReport (s : State) (d : Dest) (ctx : Nat) : State := s.eccReport d 2 ctx

/-- The report a walk leaves: of a malformed entry (R378, R383), or of one that is uncorrectable (18 R417). -/
def State.walkSaid (s : State) (part : Nat) : WalkEnd → State
  | .stop _ (some level) => s.report (some part) 12 0 level 0 0
  | .bad pa slot => s.ueReport (.hbm pa slot) 0
  | _ => s

/-- A walk, with its report. -/
def State.walkTold (s : State) (part va : Nat) : State × Except Cause Xlate :=
  let w := s.walk part va
  (s.walkSaid part w, w.found)

/-- What a walk that a duty or the scheduler makes leaves on the report ring. -/
def State.walkReport (s : State) (p va : Nat) : State := s.walkSaid p (s.walk p va)

/-- A translation along a path of units and the die's walker complex, with its walk: the entry or the cause, and the state
with the entry in the units that missed. A walk that ends in a fault installs nothing (20 R441); one to a replicated page
does. -/
def State.translate (s : State) (u d part va acc : Nat) : State × Except Cause Xlate :=
  let path := unitPath u ++ [walkerUnit d]
  match s.lookup part va path with
  | some (x, missed) =>
    (missed.foldl (fun s u => s.install u x) s, match s.denies x acc with | some c => .error c | none => .ok x)
  | none =>
    match s.walkTold part va with
    | (s, .error c) => (s, .error c)
    | (s, .ok x) =>
      let s' := path.foldl (fun s u => s.install u x) s
      match s.walkDenies x acc with
      | some .collapse => (s', .error .collapse)
      | some c => (s, .error c)
      | none => (s', .ok x)

/-! ## Homes (R280) -/

/-- The core that serves a position: the one its forwarder names, or the core there (R265). -/
def State.locate (s : State) (pos : Nat) : Nat := match (s.core pos).fwdTo with | some c => c | none => pos

/-- True when a local-store range holds an uncorrectable doubleword. -/
def Core.lsBad (k : Core) (off n : Nat) : Bool := k.lsUe.any (fun w => w * 8 < off + n && off < w * 8 + 8)

/-- Write the masked bytes of a local store; an uncorrectable doubleword written whole is clear again (R417; log 31). -/
def Core.lsWrite (k : Core) (off v mask n : Nat) : Core :=
  { k with ls := mwriteMask k.ls off v mask n,
           lsUe := k.lsUe.filter (fun w => !covers off mask n w) }

/-- True of an import of kind host (R373). -/
def Import.host (i : Import) : Bool := wbits i.dw0 3 2 = 1

/-- The import entry as it is now (R373). -/
def State.import' (s : State) (part h : Nat) : Import := tget ⟨0, 0, 0⟩ (s.part part).imports h

/-- An access that is not a thread's own cannot be performed at a peer: no port of the partition is left, or the peer does not
serve it or does not answer (R374; log 19). -/
def State.peerFails (s : State) (part h off : Nat) : Bool := (s.part part).ports = 0 || !Config.peerServes part h off s.cyc

/-- n bytes at a home, and whether a doubleword of them is uncorrectable. A free core reads zero (R265). -/
def State.homeRead (s : State) (d : Dest) (n : Nat) : Nat × Bool :=
  match d with
  | .ls pos off =>
    let k := s.core (s.locate pos)
    if k.field = none then (0, false) else (mread k.ls off n, k.lsBad off n)
  | .hbm pa slot => (s.hbmRead (s.keyPair slot) pa n, s.hbmBad pa n)
  | .imp part h off i =>
    if i.host then (mread s.hostMem (i.dw1.toNat + off) n, false)
    else (ofBytesLE ((upto n).map (fun j => Config.peerByte part h (off + j) s.cyc)), s.peerFails part h off)

/-- The 32-byte sector of a destination, and the offset in it. -/
def Dest.sector : Dest → Dest
  | .ls p o => .ls p (o / 32 * 32)
  | .hbm a k => .hbm (a / 32 * 32) k
  | .imp p h o i => .imp p h (o / 32 * 32) i
def Dest.off5 : Dest → Nat
  | .ls _ o => o % 32
  | .hbm a _ => a % 32
  | .imp _ _ o _ => o % 32

/-- A destination moved by some bytes. -/
def Dest.plus (d : Dest) (n : Nat) : Dest :=
  match d with | .ls p o => .ls p (o + n) | .hbm a k => .hbm (a + n) k | .imp p h o i => .imp p h (o + n) i

/-- n bytes at an offset of a 32-byte value. -/
def sectorPart (v off n : Nat) : Nat := v / 256 ^ off % 256 ^ n

/-- Bytes of a sector overwritten by the written bytes of every entry for it, oldest first (R283); not by those of an entry drained
before a read-set clear, which its home has (log 102). -/
def Core.overwritten (k : Core) (d : Dest) (v : Nat) : Nat :=
  (k.pbuf.filter (fun e => decide (e.dst = d) && !e.past)).foldl (fun a e => overlay a e.data e.mask 32) v

/-- A sector as the core's own STREL leaves it: bytes and mask, none of another sector (R151). -/
def ReqKind.strelBytes (k : ReqKind) (d : Dest) : Nat × Nat :=
  match k with
  | .strel x n v => if x.sector = d then (v * 256 ^ x.off5, maskAt x.off5 n) else (0, 0)
  | _ => (0, 0)

/-- Bytes fetched for a sector as the core's loads see them: under the STREL writes sent and not yet acknowledged (R151), and
those of its entries (R283). -/
def Core.overlaid (k : Core) (d : Dest) (v : Nat) : Nat :=
  k.overwritten d (k.reqs.foldl (fun a r => let (x, m) := r.k.strelBytes d; overlay a x m 32) v)

/-- Bytes at a home as LDA and WAITGE see them: those in the core's write set are taken from it (R150). -/
def Core.merged (k : Core) (d : Dest) (v n : Nat) : Nat :=
  sectorPart (k.overwritten d.sector (v * 256 ^ d.off5)) d.off5 n

/-- A home that cannot serve yet: a core being placed holds what reaches it (09 R265). -/
def State.held (s : State) (d : Dest) : Bool :=
  match d with | .ls pos _ => (s.core (s.locate pos)).placing | _ => false

/-- A message for a core, or for the forwarder it is addressed to, is tagged with a context whose kill message the core has taken in
the last 8,192 ticks: its network interface discards it (18 R398). -/
def State.swept (s : State) (d : Dest) (ctx : Nat) : Bool :=
  match d with
  | .ls pos _ => [pos, s.locate pos].any (fun c => (s.core c).sweeps.any (fun w => decide (w.1 = ctx) && decide (s.cyc < w.2)))
  | _ => false

/-- True of a core's own local store, whether named by its position or the one it was placed at (R264). -/
def State.ownHome (s : State) (c : Nat) (d : Dest) : Bool :=
  match d with | .ls p _ => decide (p = c) || decide (p = (s.core c).place) | _ => false

/-- No longer watching a counter. -/
def State.unwatch (s : State) (c t : Nat) : State :=
  { s with watches := s.watches.filter (fun w => !(decide (w.core = c) && decide (w.slot = t))) }

/-- What a WAITGE of core c sees of its counter at home, and whether it is uncorrectable (R168). -/
def State.counterSeen (s : State) (c : Nat) (d : Dest) : Nat × Bool :=
  let (v, bad) := s.homeRead d 8
  (if s.ownHome c d then v else (s.core c).merged d v 8, bad)

/-- Home examines a waiting WAITGE (R168): its reply leaves when the counter has reached the target. -/
def State.examine (s : State) (w : Watch) : State :=
  match (s.thr w.core w.slot).wait with
  | .home _ (.waitge d target) _ =>
    let (v, bad) := s.counterSeen w.core d
    if bad then (s.unwatch w.core w.slot).reply w.core w.slot w.inc .ue
    else if target ≤ v then (s.unwatch w.core w.slot).reply w.core w.slot w.inc (.val v)
    else s
  | _ => s

/-- True when n bytes at one destination overlap the 8 bytes at another. -/
def State.overlaps (s : State) (d : Dest) (n : Nat) (w : Dest) : Bool :=
  match d, w with
  | .ls p o, .ls q o' => s.locate p = s.locate q && o < o' + 8 && o' < o + n
  | .hbm a _, .hbm b _ => a < b + 8 && b < a + n
  | _, _ => false

/-- Home examines again every WAITGE whose counter a write touched, at that update (R168). -/
def State.notify (s : State) (d : Dest) (n : Nat) : State :=
  (s.watches.filter (fun w => s.overlaps d n w.dst)).foldl (fun a w => a.examine w) s

/-- A field's checkpoint sub-area: its base and size, none when it does not hold the images (R402). -/
def Field.ckArea (f : Field) : Option (Nat × Nat) :=
  if f.ckb = 0 ∨ f.cks < 0x1000 + 2 * (f.fw * f.fh) * 0x10000 + 0x10000 then none else some (f.ckb + f.ctx * f.cks, f.cks)

/-- Set a bit of evp in the ganger of every core of a field. -/
def State.eventAll (s : State) (f : Field) (bit : Nat) : State :=
  (s.fieldCores f).foldl (fun a c => a.modThr c 0 (fun h => h.event bit)) s

/-- Write pieces of 16 bytes of a log entry through the partition's translation: a page boundary may lie between two of them;
false when a page cannot be written (log 79). -/
def State.putUndo (s : State) (p va v : Nat) : (pieces : Nat) → State × Bool
  | 0 => (s, true)
  | n + 1 =>
    match s.walkTold p va with
    | (s, .error _) => (s, false)
    | (s, .ok x) =>
      match s.walkDenies x 2 with
      | some _ => (s, false)
      | none => (s.hbmWrite (s.keyPair x.key) (s.physical x 0 va) v (2 ^ 16 - 1) 16).putUndo p (va + 16) (v / 2 ^ 128) n

/-- Log the pre-image of the first write by a field to a sector in its interval, and its thresholds (R406, R407). -/
def State.logUndo (s : State) (fid : Option Nat) (pa : Nat) : State :=
  match fid with
  | none => s
  | some i =>
    match tfind s.fields i with
    | none => s
    | some f =>
      let sec := pa / 32
      match f.ckArea with
      | none => s
      | some (base, size) =>
        if f.unrest || f.undo.any (fun u => u.pa = sec * 32) then s
        else
          let logBase := base + 0x1000 + 2 * (f.fw * f.fh) * 0x10000
          let space := size - (0x1000 + 2 * (f.fw * f.fh) * 0x10000)
          let cnt := f.undo.length
          if space < 48 * (cnt + 1) then s.modField i (fun f => { f with unrest := true })
          else
            let e : Undo := { pa := sec * 32, seq := s.seqNo, pre := mread s.hbm (sec * 32) 32, key := tfind s.hbmKey sec }
            match s.putUndo f.part (logBase + 48 * cnt) (e.pa % 2 ^ 40 + e.seq * 2 ^ 64 + e.pre * 2 ^ 128) 3 with
            | (s, false) => s.modField i (fun f => { f with unrest := true })
            | (s, true) =>
            let s := { s with seqNo := s.seqNo + 1 }
            let ask : Bool := !f.ckAsked && 3 * space ≤ 4 * (48 * (cnt + 1))
            let s := s.modField i (fun f => { f with undo := f.undo ++ [e], ckAsked := f.ckAsked || ask })
            if ask then s.eventAll f 2 else s

/-- The bytes v of an access selected by mask are performed at their home, for a field's context (R280, R286). -/
def State.homeWrite (s : State) (fid : Option Nat) (d : Dest) (v mask n : Nat) : State :=
  match d with
  | .ls pos off =>
    let c := s.locate pos
    if (s.core c).field = none then s else (s.modCore c (fun k => k.lsWrite off v mask n)).notify d n
  | .hbm pa slot => ((s.logUndo fid pa).hbmWrite (s.keyPair slot) pa v mask n).notify d n
  | .imp part h off i =>
    if i.host then { s with hostMem := mwriteMask s.hostMem (i.dw1.toNat + off) v mask n }
    else if s.peerFails part h off then
      s.report (some part) 11 0 h 1 (match fid.bind (tfind s.fields) with | some f => f.ctx | none => 0)
    else s

/-- The die whose counter of corrected errors counts a word: a stack stands beside the die of its number's group (log 28). -/
def Dest.dieAt : Dest → Nat
  | .ls pos _ => dieOf pos
  | .hbm pa _ => pa / 2 ^ 38 % 4 % 3
  | .imp .. => 0

/-- A single-bit error is corrected silently, counted and reported (18 R417, R383). -/
def State.softFixed (s : State) (d : Dest) : State :=
  (s.modDie d.dieAt (fun x => { x with nCorr := x.nCorr + 1 })).eccReport d 1 0

/-! ## Generic addresses (R144 to R146) -/

/-- Where an access goes, or the fault it meets at issue. -/
inductive Place where
  | trap (c : Cause) (a : Word)
  /-- No translation cached: a walk is needed. -/
  | miss (va acc : Nat)
  /-- The issuing core's own local store, implemented offset. -/
  | own (off : Nat)
  /-- The own local store's offsets 0x6000 to 0x7FFF. -/
  | high (off : Nat)
  | far (d : Dest)
  deriving DecidableEq, Repr

/-- The window test of R144 for one byte address. -/
def passes (a : Nat) : Bool :=
  match bits a 63 60 with
  | 0 => bits a 59 15 = 0
  | 1 => bits a 59 35 = 0
  | 2 => bits a 59 48 = 0
  | 3 => true
  | _ => false

/-- The position a window 0x1 address names, none outside the partition's mesh. -/
def Part.named (p : Part) (a : Nat) : Option Nat :=
  let x := bits a 24 15
  let y := bits a 34 25
  if x < p.w ∧ y < p.h then some (p.pos x y) else none

/-- Steps 1 and 2 of R145. -/
def windowAlign (a : Word) (n : Nat) : Option Cause :=
  let x := a.toNat
  if !passes x || !passes (x + (n - 1)) || bits x 63 60 ≠ (x + (n - 1)) / 2 ^ 60 then some .window
  else if x % n ≠ 0 then some .align else none

/-- Steps 1 to 3 of R145 for an access of n bytes by core c (acc: bit 0 read, bit 1 write), and where it is performed. -/
def State.place (s : State) (c : Nat) (a : Word) (n acc : Nat) : Place :=
  match windowAlign a n with
  | some e => .trap e a
  | none =>
    let k := s.core c
    let p := s.part k.part
    let x := a.toNat
    match bits x 63 60 with
    | 0 => if x < 0x6000 then .own x else .high x
    | 1 =>
      let off := bits x 14 0
      match p.named x with
      | none => .trap .prot a
      | some pos =>
        if 0x6000 ≤ off then .trap .prot a
        else if pos = c ∨ pos = k.place then .own off else .far (.ls pos off)
    | 2 =>
      let va := bits x 47 0
      match s.cached (stationUnit c) k.part va with
      | none => .miss va acc
      | some e =>
        match s.denies e acc with
        | some e => .trap e a
        | none => .far (.hbm (s.physical e (dieOf c) va) e.key)
    | _ =>
      let h := bits x 59 48
      let off := bits x 47 0
      let i := s.import' k.part h
      if wbits i.dw0 0 0 = 0 ∨ 2 ≤ wbits i.dw0 3 2 ∨ i.dw2.toNat < off + n ∨ (acc / 2 % 2 = 1 ∧ wbits i.dw0 1 1 = 0)
      then .trap .prot a else .far (.imp k.part h off i)

/-- As `place`, for an engine: a window 0x2 address is translated through its own unit, a walk made at once (R229, R273). -/
def State.placeNow (s : State) (c u : Nat) (a : Word) (n acc : Nat) : State × Place :=
  if windowAlign a n = none ∧ wbits a 63 60 = 2 then
    let va := wbits a 47 0
    match s.translate u (dieOf c) (s.core c).part va acc with
    | (s, .ok x) => (s, .far (.hbm (s.physical x (dieOf c) va) x.key))
    | (s, .error e) => (s, .trap e a)
  else (s, s.place c a n acc)

/-- An engine's access to an address is held: it names a core being placed (R265). -/
def State.heldAt (s : State) (c : Nat) (a : Word) : Bool :=
  wbits a 63 60 = 1 && (match (s.part (s.core c).part).named a.toNat with
    | some pos => !s.ownHome c (.ls pos 0) && s.held (.ls pos 0)
    | none => false)

/-- spoil records the first out-of-range access (R41, R146). -/
def Core.spoiled (k : Core) (slot off : Nat) (w : Bool) : Core :=
  if k.spoil = 0 then { k with spoil := wordN (2 ^ 63 + b2n w * 2 ^ 62 + slot * 2 ^ 16 + off) } else k

/-- True when an own access overlaps a range of the scoreboard (R146, R269). -/
def Core.scbHit (k : Core) (off n : Nat) : Bool := k.scb.any (fun e => e.lo < off + n && off ≤ e.hi)

/-- The issuing thread waits for a translation. -/
def State.awaitWalk (s : State) (i : Option Instr) (va acc : Nat) : State :=
  (s.await (.walk i va acc)).post (.translationWalk s.cur.1 s.cur.2)

/-- Access of an instruction i to address a, n bytes: faults of steps 1 to 3, then `own`, `high` (after spoil is
recorded) or `far`. An own access under the scoreboard waits (R146). What spoil has recorded stays when the instruction then traps, as a TLD
of what reads as zeros does (log 104). -/
def State.access (s : State) (i : Instr) (a : Word) (n acc : Nat) (own high : Nat → State → State)
    (far : Dest → State → State) : State :=
  match s.place s.cur.1 a n acc with
  | .trap c fa => s.trap c fa
  | .miss va acc => s.awaitWalk (some i) va acc
  | .own off => if s.me.scbHit off n then s.block i else own off s
  | .high off => high off (s.modMe (fun k => k.spoiled s.cur.2 off (acc / 2 % 2 = 1)))
  | .far d => far d s

end Sys2Proof.Machine
end

