-- ==== Sys2Proof/Machine/Phase.lean ====
section
/-! DEFINITION. The phase buffer (10 R281 to R287): entries, allocation, loads served from it, stores entered in it,
drains, clears and removals; and what a thread does when the acknowledgements it awaits have arrived. -/

namespace Sys2Proof.Machine

/-- The value a load writes: extension from n bytes (R148, R149). -/
def loadExt (v n : Nat) (u : Bool) : Word := if u || n = 8 then wordN v else wordI (sx v (8 * n))

/-- A load served by the buffer: from a read copy, or from the newest entry that has all its bytes (R283), unless its drain was
performed before a read-set clear (log 102). -/
def Core.served (k : Core) (d : Dest) (n : Nat) : Option Nat :=
  let es := k.pbuf.filter (fun e => e.dst = d.sector)
  match es.find? (fun e => e.r) with
  | some e => some (sectorPart e.copy d.off5 n)
  | none =>
    match es.getLast? with
    | some e => if !e.past && bits e.mask (d.off5 + n - 1) d.off5 = 2 ^ n - 1 then some (sectorPart e.data d.off5 n) else none
    | none => none

/-- A load served from a read copy meets a doubleword that came uncorrectable (R145, 18 R417). -/
def Core.servedBad (k : Core) (d : Dest) (n : Nat) : Bool :=
  match k.pbuf.find? (fun e => decide (e.dst = d.sector) && e.r) with
  | some e => bits e.bad ((d.off5 + n - 1) / 8) (d.off5 / 8) ≠ 0
  | none => false

/-- Bar the fetches that a test selects from installing (R283). -/
def Core.bar (k : Core) (p : Dest → Bool) : Core :=
  { k with fetches := k.fetches.map (fun f => if p f.dst then { f with barred := true } else f) }

/-- Remove R from the entries a test selects; entries left with an empty mask are free. -/
def Core.dropR (k : Core) (p : Dest → Bool) : Core :=
  { k with pbuf := (k.pbuf.map (fun e => if p e.dst then { e with r := false } else e)).filter
             (fun e => e.r || e.mask ≠ 0) }

/-- The entries whose drains have been performed, at a read-set clear: what the core loads after it is no older than what the
homes held then (17 R386; log 102). -/
def Core.passed (k : Core) : Core :=
  { k with pbuf := k.pbuf.map (fun e => if e.sent && e.sentAt.isNone then { e with past := true } else e) }

/-- A read-set clear (R287). -/
def Core.clearR (k : Core) : Core := ((k.bar (fun _ => true)).dropR (fun _ => true)).passed

/-- A removal of one sector (R287). -/
def Core.removeR (k : Core) (d : Dest) : Core := (k.bar (fun x => x = d.sector)).dropR (fun x => x = d.sector)

/-- psr (R42): rsc and wsc count the entries of each set. -/
def Core.psr (k : Core) : Word :=
  wordN (k.phase.toNat * 2 ^ 32 + (k.pbuf.filter (fun e => e.r)).length % 128 * 2 ^ 16 +
    (k.pbuf.filter (fun e => e.mask ≠ 0)).length % 128 * 2 ^ 8 + b2n k.evict * 2 + b2n k.spill)

/-- An entry is free, or step 1 of R282 frees one: none when neither. -/
def Core.makeRoom (k : Core) : Option Core :=
  if k.pbuf.length < 64 then some k
  else match takeFirst (fun e => e.r && decide (e.mask = 0)) k.pbuf with
    | some (e, rest) => some (({ k with pbuf := rest, evict := true }).bar (fun x => x = e.dst))
    | none => none

/-- Step 2 of R282: the oldest write-set entry not marked for draining is marked to be freed, and named; its sector is removed
from the read set (R287). -/
def Core.drainOldest (k : Core) : Core × Option Nat :=
  match k.pbuf.find? (fun e => decide (e.mask ≠ 0) && !e.d) with
  | some e =>
    let k := k.bar (fun x => x = e.dst)
    ({ k with pbuf := k.pbuf.map (fun x => if x.id = e.id then { x with d := true, r := false, room := true } else x),
              spill := true, evict := k.evict || e.r }, some e.id)
  | none => (k, none)

/-- Add a new entry for a sector: R and the read copy of a draining entry move to it (R281). -/
def Core.addEntry (k : Core) (d : Dest) (tick : Nat) : Core × Nat :=
  let (id, k) := k.fresh
  let old := k.pbuf.find? (fun e => decide (e.dst = d) && e.r)
  let l := k.pbuf.map (fun e => if e.dst = d then { e with r := false } else e)
  let e : Entry := match old with
    | some o => { id := id, dst := d, r := true, copy := o.copy, bad := o.bad, age := tick }
    | none => { id := id, dst := d, age := tick }
  ({ k with pbuf := l ++ [e] }, id)

/-- Uncorrectable doublewords of a copy left when masked bytes are written: one written whole is clear (18 R417). -/
def badLeft (bad m : Nat) : Nat :=
  (upto 4).foldl (fun a i => if bits bad i i = 1 && bits m (8 * i + 7) (8 * i) ≠ 255 then a + 2 ^ i else a) 0

/-- Put bytes into an entry's written bytes, and into the read copy the sector has (R284). -/
def Core.enter (k : Core) (id : Nat) (d : Dest) (v mask : Nat) : Core :=
  let sh := v * 256 ^ d.off5
  let m := mask * 2 ^ d.off5
  { k with pbuf := k.pbuf.map (fun e =>
      if e.dst = d.sector then
        let e := if e.r then { e with copy := overlay e.copy sh m 32, bad := badLeft e.bad m } else e
        if e.id = id then { e with data := overlay e.data sh m 32, mask := e.mask ||| m } else e
      else e) }

/-- Enter a store of n bytes (R284): the core with it, or what it waits for: the acknowledgement of an entry named, a sector
having at most two entries (R281), or room for an entry (R282). -/
def Core.store (k : Core) (d : Dest) (v n tick : Nat) : Except (Option Nat) Core :=
  let m := 2 ^ n - 1
  match k.pbuf.filter (fun e => e.dst = d.sector) with
  | es =>
    match es.find? (fun e => !e.d) with
    | some e => .ok (k.enter e.id d v m)
    | none =>
      match es with
      | e :: _ :: _ => .error (some e.id)
      | _ => match k.makeRoom with
        | some k => let (k, id) := k.addEntry d.sector tick; .ok (k.enter id d v m)
        | none => .error none

/-- Send the drain of an entry, if one is named. -/
def State.postDrain (s : State) (c : Nat) : Option Nat → State
  | some id => s.post (.sectorDrain c id)
  | none => s

/-- Stores of one instruction in order, or what the first that cannot be entered waits for. -/
def Core.stores (k : Core) (tick : Nat) : List (Dest × Nat × Nat) → Except (Option Nat) Core
  | [] => .ok k
  | (d, v, n) :: r => match k.store d v n tick with | .ok k => k.stores tick r | .error e => .error e

/-- The stores of an instruction enter a core's buffer together (R284), or none does and room is made: the entry whose
drain is then awaited, none for the first acknowledgement (R282). -/
def State.enterStores (s : State) (c : Nat) (l : List (Dest × Nat × Nat)) : State × Option (Option Nat) :=
  match (s.core c).stores s.cyc l with
  | .ok k => (s.setCore c k, none)
  | .error (some e) => (s, some (some e))
  | .error none => let (k, e) := (s.core c).drainOldest; ((s.setCore c k).postDrain c e, some e)

/-- Identities of the write-set entries a test selects. -/
def Core.writeSet (k : Core) (p : Dest → Bool) : List Nat :=
  (k.pbuf.filter (fun e => decide (e.mask ≠ 0) && p e.dst)).map (·.id)

/-- Mark the write-set entries a test selects for draining and send those not marked before (R286). -/
def State.drain (s : State) (c : Nat) (p : Dest → Bool) : State :=
  let k := s.core c
  let new := (k.pbuf.filter (fun e => decide (e.mask ≠ 0) && !e.d && p e.dst)).map (·.id)
  let k := { k with pbuf := k.pbuf.map (fun e => if decide (e.mask ≠ 0) && p e.dst then { e with d := true } else e) }
  new.foldl (fun a id => a.post (.sectorDrain c id)) (s.setCore c k)

/-- Start an ordinary load of n bytes at a remote destination (R283). -/
def State.remoteLoad (s : State) (rd : Reg) (d : Dest) (n : Nat) (u : Bool) (a : Word) : State :=
  match s.me.served d n with
  | some v => if s.me.servedBad d n then s.trap .ue a else s.replied [(rd, loadExt v n u)]
  | none =>
    let (id, k) := s.me.fresh
    let k := { k with fetches := k.fetches ++ [{ id := id, dst := d.sector, slot := s.cur.2, inc := s.th.inc }] }
    ((s.setCore s.cur.1 k).await (.load id rd n u d.off5 a)).post (.sectorFetch s.cur.1 id)

/-! ## Barriers (R165) -/

/-- The region of a core at a scope: the core, its cluster or die at placement, or the field. -/
def Core.region (k : Core) (scope : Nat) : Nat :=
  match scope with | 0 => k.place | 1 => clusterOf k.place | 2 => dieOf k.place | _ => 0

/-- True of an episode in whose region a core of its field lies. -/
def Core.inEpisode (k : Core) (e : Episode) : Bool :=
  decide (k.field = some e.field) && decide (k.region e.scope = e.region)

/-- A core has arrived in barrier k: every slot not empty waits in it, or every slot is empty. -/
def Core.arrived (k : Core) (b : Nat) : Bool :=
  k.threads.all (fun e => match e.2.wait with
    | .bar j _ => e.2.st = .waiting && j = b
    | _ => e.2.st = .empty)

/-- Cores of an episode's region. -/
def State.regionCores (s : State) (e : Episode) : List Nat :=
  match tfind s.fields e.field with
  | some f => (s.fieldCores f).filter (fun c => (s.core c).inEpisode e)
  | none => []

/-- The open episode of barrier b in which a core takes part. -/
def State.episodeOf (s : State) (c b : Nat) : Option (Nat × Episode) :=
  s.episodes.find? (fun e => decide (e.2.k = b) && (s.core c).inEpisode e.2)

/-- Complete every episode of a core's field whose region has arrived: the step is put in flight. -/
def State.checkBarriers (s : State) (c : Nat) : State :=
  s.episodes.foldl (fun a e =>
    if (s.core c).field = some e.2.field && (s.regionCores e.2).all (fun x => (s.core x).arrived e.2.k)
    then a.post1 (.barrierEpisodeComplete e.1) else a) s

/-- A BAR arrives after its fence (R165). -/
def State.barArrive (s : State) (c t b scope : Nat) : State :=
  match s.episodeOf c b with
  | some (_, e) =>
    if e.scope = scope then (s.modThr c t (fun h => h.await (.bar b scope))).checkBarriers c else s.trapOf c t .prot 0
  | none =>
    let k := s.core c
    let id := s.nextId
    let e : Episode := { field := k.field.getD 0, k := b, scope := scope, region := k.region scope }
    ({ (s.modThr c t (fun h => h.await (.bar b scope))) with
        episodes := tset s.episodes id e, nextId := id + 1 }).checkBarriers c

/-! ## The checkpoint collective (R172) -/

/-- A core has arrived at a CKPT: its ganger waits in one, or all its slots are empty. -/
def Core.ckptArrived (k : Core) : Bool :=
  (match (k.thr 0).wait with | .ckpt _ => true | _ => false) || k.threads.all (fun e => e.2.st = .empty)

/-- Begin the collective of a field when every core has arrived and a ganger waits. -/
def State.checkCkptField (s : State) (i : Nat) : State :=
  match tfind s.fields i with
  | none => s
  | some f =>
    let cs := s.fieldCores f
    if cs.all (fun x => (s.core x).ckptArrived) &&
        cs.any (fun x => (match (s.thr x 0).wait with | .ckpt _ => true | _ => false))
    then s.post1 (.ckptCollective i) else s

/-- As above, for the field of a core. -/
def State.checkCkpt (s : State) (c : Nat) : State :=
  match (s.core c).field with
  | none => s
  | some i => s.checkCkptField i

/-! ## Order tokens (R153) -/

/-- The serialiser of a scope that contains a core: the cluster's atomic engine, the die's scheduler agent, the
partition's weighbridge directory, the ordering point. -/
def State.serialiser (s : State) (c scope : Nat) : Nat :=
  match scope with
  | 1 => 8 * clusterOf c + 1
  | 2 => 8 * dieOf c + 2
  | 3 => 8 * (s.core c).part + 3
  | _ => 4

/-- The fence of a thread arrives at a serialiser: it is granted in its turn. -/
def State.joinSerial (s : State) (c t scope : Nat) : State :=
  let q := tget [] s.serial (s.serialiser c scope)
  let s := { s with serial := tset s.serial (s.serialiser c scope) (q ++ [(c, t, (s.thr c t).inc)]) }
  if q = [] then s.post (.orderTokenGrant c t) else s

/-- A fence before a serialiser is still awaited by its thread. -/
def State.fenceLives (s : State) (f : Nat × Nat × Nat) : Bool :=
  let h := s.thr f.1 f.2.1
  decide (h.inc = f.2.2) && (match h.wait with | .token .. => true | _ => false)

/-- Fences whose threads are gone leave their queues; the heads left are to be granted. -/
def State.pruneSerial (s : State) : State :=
  let l := (tmap (fun _ q => q.filter s.fenceLives) s.serial).filter (fun e => e.2 ≠ [])
  l.foldl (fun a e => match e.2 with | f :: _ => a.post1 (.orderTokenGrant f.1 f.2.1) | [] => a) { s with serial := l }

/-! ## After the acknowledgements (R152 to R155) -/

/-- The step that carries a request to its home. -/
def ReqKind.step (k : ReqKind) (c t : Nat) : Ev :=
  match k with
  | .lda .. => .ldaAtHome c t
  | .strel .. => .strelAtHome c t
  | .atomic .. => .atomicAtHome c t
  | .fe .. => .feAtHome c t
  | .waitge .. => .waitgeAtHome c t
  | .steal _ => .stealRequest c t

/-- STREL's own write is sent: the read copy of its sector takes the bytes and fetches of it are barred (R151). -/
def Core.strelSent (k : Core) (d : Dest) (n v : Nat) : Core :=
  let k := k.bar (fun x => x = d.sector)
  { k with pbuf := k.pbuf.map (fun e =>
      if e.dst = d.sector && e.r then
        { e with copy := overlay e.copy (v * 256 ^ d.off5) (maskAt d.off5 n) 32, bad := badLeft e.bad (maskAt d.off5 n) }
      else e) }

/-- A thread sends a request and waits for its reply. -/
def State.request (s : State) (c t : Nat) (rd : Reg) (k : ReqKind) (a : Word) : State :=
  let s := s.modCore c (fun x =>
    let x : Core := { x with reqs := x.reqs ++ [{ slot := t, inc := (x.thr t).inc, k := k }] }
    let x := match k with | .strel d n v => x.strelSent d n v | _ => x
    x.modThr t (fun h => h.await (.home rd k a)))
  s.post (k.step c t)

/-- What a thread does once its drains are acknowledged. -/
def State.afterDrains (s : State) (c t : Nat) (k : After) : State :=
  match k with
  | .pend => s.modCore c (fun x => Core.modThr { x with phase := x.phase + 1 } t Thread.retire)
  | .rel => s.modThr c t Thread.retire
  | .sc scope => (s.modThr c t (fun h => h.await (.token ((upto scope).map (· + 1)) k))).joinSerial c t 1
  | .bar b scope =>
    if scope = 0 then s.barArrive c t b 0
    else (s.modThr c t (fun h => h.await (.token ((upto scope).map (· + 1)) k))).joinSerial c t 1
  | .req rd q a => s.request c t rd q a

/-- The issuing thread waits for the drains named and then goes on. -/
def State.awaitDrains (s : State) (ids : List Nat) (k : After) : State :=
  if ids = [] then s.afterDrains s.cur.1 s.cur.2 k else s.await (.drains ids k)

/-- Drain the sectors a test selects, wait for them, go on (R286). -/
def State.drainThen (s : State) (p : Dest → Bool) (k : After) : State :=
  let ids := s.me.writeSet p
  (s.drain s.cur.1 p).awaitDrains ids k

end Sys2Proof.Machine
end

