-- ==== Sys2Proof/Machine/Control.lean ====
section
/-! DEFINITION. Transfers of control, loops, EXIT and NOP (04 R131 to R141), windows (01 R24 to R27), prefixes (R31,
R32), and what follows when a slot becomes empty (R22, R165, R170). -/

namespace Sys2Proof.Machine

/-! ## Slots becoming empty -/

/-- An empty slot: nothing of the thread is left but the count of its starts (R140). -/
def Thread.emptied (h : Thread) : Thread := { inc := h.inc + 1 }

/-- Every slot but the ganger's is empty. -/
def Core.othersEmpty (k : Core) : Bool := k.threads.all (fun e => e.1 = 0 || e.2.st = .empty)

/-- True of the ganger waiting in EXIT (R22). -/
def Core.gangerExits (k : Core) : Bool := (k.thr 0).wait = .exit

/-- All engine commands accepted by a core have completed or been discarded (R337). A ring is completed when RINGADV or a kill
has ended it (log 111). -/
def Core.enginesIdle (k : Core) : Bool := k.copyQ = [] && k.gatQ = [] && k.ring = none && k.joins = [] && k.seqq = []

/-- A core whose ganger is gone is ready to report the end of its part (R286, R337). -/
def Core.partDone (k : Core) : Bool :=
  k.field ≠ none && !k.placing && !k.ended && (k.thr 0).st = .empty && k.writeSet (fun _ => true) = [] && k.enginesIdle

/-- The ganger of a placed core is gone: its part is over but for what it still has to drain (R286). -/
def Core.partOver (k : Core) : Bool := k.field.isSome && !k.placing && !k.ended && (k.thr 0).st = .empty

/-- Report the end of a core's part when nothing is left to wait for. -/
def State.checkEnd (s : State) (c : Nat) : State := if (s.core c).partDone then s.post1 (.corePartEnd c) else s

/-- The final drain of the core's part is complete: the phase advances (R42, R286). -/
def Core.lastDrain (k : Core) : Core :=
  if k.partOver && k.writeSet (fun _ => true) = [] then { k with phase := k.phase + 1 } else k

/-- The ganger is gone: exit records are discarded and every write-set entry drains (R22, R286). -/
def State.gangerGone (s : State) (c : Nat) : State :=
  ((s.modCore c (fun k => Core.lastDrain { (k.modThr 0 Thread.emptied) with exits := [] })).drain c (fun _ => true)).checkEnd c

/-- What follows when a slot of core c has become empty: a TREAP, an EXIT of the ganger, an episode may go on. -/
def State.slotFreed (s : State) (c : Nat) : State :=
  let k := s.core c
  let s := if k.gangerExits && k.othersEmpty then s.post1 (.gangerExitComplete c) else s
  ((s.wake c).checkBarriers c).checkCkpt c

/-! ## Branches (R133, R134) -/

/-- The target of a signed word offset. -/
def target (p : BitVec 48) (off : Int) : BitVec 48 := p + BitVec.ofInt 48 (4 * off)

def execBr (o : BitVec 26) (s : State) : Out := .next (s.jump (target s.pc o.toInt))
def execBz (a : Reg) (o : BitVec 18) (s : State) : Out :=
  .next (if s.readReg a = 0 then s.jump (target s.pc o.toInt) else s.retire)
def execBnz (a : Reg) (o : BitVec 18) (s : State) : Out :=
  .next (if s.readReg a = 0 then s.retire else s.jump (target s.pc o.toInt))
def execBrr (a : Reg) (s : State) : Out :=
  .next (match codeAddr (s.readReg a) with | .error c => s.trap c (s.readReg a) | .ok t => s.jump t)

/-! ## Calls and returns (R24, R25, R27, R135, R136) -/

/-- A spill is possible (R27). -/
def Thread.canSpill (h : Thread) : Bool :=
  decide (h.wsp.toNat + 64 ≤ h.wsl.toNat) && decide (h.wsp.toNat + 64 ≤ 0x6000)

/-- Windows of the thread that have been spilled: d + 1 windows, those resident aside. -/
def Thread.spilled (h : Thread) : Nat := h.wdp.toNat - h.olds.length

/-- A fill is possible (R27): a frame at 0x6000 or above is never read (09 R266; log 80). -/
def Thread.canFill (h : Thread) : Bool := decide (64 ≤ h.wsp.toNat) && decide (h.wsp.toNat ≤ 0x6000)

/-- Open a fresh window and link (R135). -/
def Thread.callTo (h : Thread) (t : BitVec 48) : Thread :=
  let h' := (h.setReg 7 (codeWord (nextPc h.at')))
  Thread.jump { h' with wdp := h.wdp + 1, olds := h'.win :: h'.olds, win := Vector.replicate 8 0 } t

/-- CALL and CALLR after the target is known (R135). -/
def State.call (s : State) (i : Instr) (t : BitVec 48) : State :=
  let h := s.th
  if h.wdp = 0xFFFF then s.trap .wstack
  else if 2 ≤ h.olds.length then (if h.canSpill then s.block i else s.trap .wstack)
  else s.modTh (fun h => h.callTo t)

def execCall (o : BitVec 26) (s : State) : Out := .next (s.call (.call o) (target s.pc o.toInt))
def execCallr (a : Reg) (s : State) : Out :=
  .next (match codeAddr (s.readReg a) with | .error c => s.trap c (s.readReg a) | .ok t => s.call (.callr a) t)

/-- The caller's window is current again (R136). -/
def Thread.returnTo (h : Thread) (w : Vector Word 8) (r : List (Vector Word 8)) (t : BitVec 48) : Thread :=
  Thread.jump { h with wdp := h.wdp - 1, win := w, olds := r } t

def execRet (a : Reg) (s : State) : Out :=
  .next (match codeAddr (s.readReg a) with
    | .error c => s.trap c (s.readReg a)
    | .ok t =>
      let h := s.th
      if h.wdp = 0 then s.trap .wstack
      else match h.olds with
        | [] => if h.canFill then s.block (.ret a) else s.trap .wstack
        | w :: r => s.modTh (fun h => h.returnTo w r t))

/-! ## Loops (R137 to R139) -/

/-- The count a LOOP takes: the signed value clamped to 0 to 2^32 − 1. -/
def loopCount (a : Word) : BitVec 32 :=
  if a.toInt < 0 then 0 else if 0xFFFFFFFF < a.toInt then 0xFFFFFFFF else a.setWidth 32

/-- Load a loop set and go into the body, or past it with a zero count; the loop step of the LOOP's own word uses the
registers as it leaves them (R139). -/
def Thread.enterLoop (h : Thread) (set : BitVec 1) (n : BitVec 32) (le : BitVec 48) : Thread :=
  let ls : Word := (nextPc h.at').setWidth 64
  let h := if set = 0 then { h with ls0 := ls, le0 := le.setWidth 64, lc0 := n }
           else { h with ls1 := ls, le1 := le.setWidth 64, lc1 := n }
  if n = 0 then h.jump (nextPc le) else h.retire

def execLoopSet (set : BitVec 1) (a : Reg) (o : BitVec 17) (s : State) : Out :=
  .next (if o = 0 then s.trap .illegal
    else s.modTh (fun h => h.enterLoop set (loopCount (s.readReg a)) (target s.pc o.toNat)))

def execLoopr (set : BitVec 1) (a b : Reg) (s : State) : Out :=
  .next (match codeAddr (s.readReg b) with
    | .error c => s.trap c (s.readReg b)
    | .ok t =>
      if t.toNat < (nextPc s.pc).toNat then s.trap .illegal
      else s.modTh (fun h => h.enterLoop set (loopCount (s.readReg a)) t))

/-! ## EXIT and NOP (R22, R140, R141) -/

def execExitThread (s : State) : Out :=
  let (c, t) := s.cur
  .next (if t = 0 then
      if s.me.othersEmpty && s.me.exits = [] then (s.gangerGone c).slotFreed c
      else
        let s := s.await .exit
        if s.me.othersEmpty then s.post1 (.gangerExitComplete c) else s
    else
      let v := s.readReg 1
      (s.modMe (fun k => { (k.modThr t Thread.emptied) with exits := tset k.exits t v })).slotFreed c)

def execNop (s : State) : Out := .next s.retire

/-! ## Prefixes (R31, R32, R176, R177) -/

/-- A prefix completes: it stays pending, and its address is kept when it is the first (R34). -/
def Thread.prefixed (h : Thread) (f : Thread → Thread) : Thread :=
  (f { h with pfxAt := some h.iaddr }).advance

def execHint (p : BitVec 26) (s : State) : Out :=
  .next (if 2 ≤ s.th.hints.length then s.trap .illegal
    else s.modTh (fun h => h.prefixed (fun h => { h with hints := h.hints ++ [p] })))
def execHmodRound (m : BitVec 3) (s : State) : Out :=
  .next (s.modTh (fun h => h.prefixed (fun h => { h with mRound := some m, srLast := false })))
def execHmodSr (s : State) : Out :=
  .next (s.modTh (fun h => h.prefixed (fun h => { h with mSr := true, srLast := true })))
def execHmodScope (x : BitVec 3) (s : State) : Out :=
  .next (s.modTh (fun h => h.prefixed (fun h => { h with mScope := some x })))
def execHmodLanes (f : BitVec 5) (s : State) : Out :=
  .next (s.modTh (fun h => h.prefixed (fun h => { h with mLanes := some f })))

end Sys2Proof.Machine
end

