-- ==== Sys2Proof/Machine/Memory.lean ====
section
/-! DEFINITION. Loads and stores (05 R148, R149), ordered accesses, phases and fences (R150 to R154), atomics (R155 to
R157) and full-or-empty operations (R158 to R160) as their threads issue them. -/

namespace Sys2Proof.Machine

/-! ## Ordinary loads and stores -/

/-- A load from the own local store, in the pipeline (R146). -/
def State.ownLoad (s : State) (d : Reg) (a : Word) (n : Nat) (u : Bool) (off : Nat) : State :=
  if s.me.lsBad off n then s.trap .ue a else s.retireWith d (loadExt (mread s.me.ls off n) n u)

/-- Write the own local store; waiters on a counter in it are told (R168). -/
def State.ownWrite (s : State) (off v n : Nat) : State :=
  (s.modMe (fun k => k.lsWrite off v (2 ^ n - 1) n)).notify (.ls s.cur.1 off) n

/-- Count element writes dropped beyond an extent (R203, 08 R234). -/
def Core.dropped (k : Core) (n : Nat) : Core := { k with drop := min 0xFFFF (k.drop + n) }

/-- The remote stores among an instruction's accesses. -/
def farPieces (l : List Piece) : List (Dest × Nat × Nat) :=
  l.filterMap (fun p => match p with | .far d v n => some (d, v, n) | _ => none)

/-- The other accesses, in order. -/
def State.ownPieces (s : State) (l : List Piece) : State :=
  l.foldl (fun s p => match p with
    | .own off v n => s.ownWrite off v n
    | .high off => s.modMe (fun k => k.spoiled s.cur.2 off true)
    | .drop => s.modMe (fun k => k.dropped 1)
    | .far .. => s) s

/-- The checked accesses of the issuing thread's instruction take place together (R142), or it waits for room (R282); the
flags are added to its own, the seed becomes the one given. -/
def State.enter (s : State) (l : List Piece) (fl : BitVec 5) (seed : Word) : State :=
  match s.enterStores s.cur.1 (farPieces l) with
  | (s, none) =>
    let s := (s.ownPieces l).modTh (fun h => { h with fxf := h.fxf ||| fl, seed := seed })
    if farPieces l = [] then s.retire else s.replied []
  | (s, some on) => s.await (.room l fl seed on)

/-- A thread that waits for room tries again once the drain it awaits is acknowledged (R282). -/
def State.roomNow (s : State) : State :=
  match s.th.wait with
  | .room l fl seed on => if s.me.pbuf.any (fun e => e.d && decide (on = some e.id)) then s else s.enter l fl seed
  | _ => s

/-- An ordinary remote store (R284): accepted, or waiting for room. -/
def State.remoteStore (s : State) (d : Dest) (v n : Nat) : State := s.enter [.far d v n] 0 s.th.seed

/-- A load of n bytes at address a (R148). -/
def State.load (s : State) (i : Instr) (d : Reg) (a : Word) (n : Nat) (u : Bool) : Out :=
  .next (s.access i a n 1 (fun off s => s.ownLoad d a n u off) (fun _ s => s.retireWith d 0)
    (fun dst s => s.remoteLoad d dst n u a))

/-- A store of the low n bytes of v at address a (R148). -/
def State.store (s : State) (i : Instr) (v a : Word) (n : Nat) : Out :=
  .next (s.access i a n 2 (fun off s => (s.ownWrite off v.toNat n).retire) (fun _ s => s.retire)
    (fun dst s => s.remoteStore dst (v.toNat % 256 ^ n) n))

def execLdb (d a : Reg) (i : BitVec 18) (s : State) : Out := s.load (.ldb d a i) d (s.readReg a + s.immS i) 1 false
def execLdbu (d a : Reg) (i : BitVec 18) (s : State) : Out := s.load (.ldbu d a i) d (s.readReg a + s.immS i) 1 true
def execLdh (d a : Reg) (i : BitVec 18) (s : State) : Out := s.load (.ldh d a i) d (s.readReg a + s.immS i) 2 false
def execLdhu (d a : Reg) (i : BitVec 18) (s : State) : Out := s.load (.ldhu d a i) d (s.readReg a + s.immS i) 2 true
def execLdw (d a : Reg) (i : BitVec 18) (s : State) : Out := s.load (.ldw d a i) d (s.readReg a + s.immS i) 4 false
def execLdwu (d a : Reg) (i : BitVec 18) (s : State) : Out := s.load (.ldwu d a i) d (s.readReg a + s.immS i) 4 true
def execLdd (d a : Reg) (i : BitVec 18) (s : State) : Out := s.load (.ldd d a i) d (s.readReg a + s.immS i) 8 true
def execStb (r a : Reg) (i : BitVec 18) (s : State) : Out := s.store (.stb r a i) (s.readReg r) (s.readReg a + s.immS i) 1
def execSth (r a : Reg) (i : BitVec 18) (s : State) : Out := s.store (.sth r a i) (s.readReg r) (s.readReg a + s.immS i) 2
def execStw (r a : Reg) (i : BitVec 18) (s : State) : Out := s.store (.stw r a i) (s.readReg r) (s.readReg a + s.immS i) 4
def execStd (r a : Reg) (i : BitVec 18) (s : State) : Out := s.store (.std r a i) (s.readReg r) (s.readReg a + s.immS i) 8

/-- The address of LDX and STX (R149). -/
def State.indexed (s : State) (a b : Reg) (x : BitVec 1) (n : Nat) : Word :=
  s.readReg a + s.readReg b * wordN (if x = 1 then n else 1)

def execLdx (d a b : Reg) (x u : BitVec 1) (w : BitVec 2) (s : State) : Out :=
  let n := 2 ^ w.toNat
  s.load (.ldx d a b x u w) d (s.indexed a b x n) n (u = 1)

def execStx (d a b : Reg) (x : BitVec 1) (w : BitVec 2) (s : State) : Out :=
  let n := 2 ^ w.toNat
  s.store (.stx d a b x w) (s.readReg d) (s.indexed a b x n) n

/-! ## Ordered accesses (R150, R151) -/

/-- A read-set clear of the issuing core. -/
def State.clearReads (s : State) : State := s.modMe Core.clearR

def execLda (d a : Reg) (sc : BitVec 3) (u : BitVec 1) (w : BitVec 2) (s : State) : Out :=
  let n := 2 ^ w.toNat
  let ad := s.readReg a
  let scope := s.scope sc.toNat
  let clear := fun (s : State) => if 1 ≤ scope then s.clearReads else s
  .next (s.access (.lda d a sc u w) ad n 1 (fun off s => (clear s).ownLoad d ad n (u = 1) off)
    (fun _ s => (clear s).retireWith d 0)
    (fun dst s => (clear s).request s.cur.1 s.cur.2 d (.lda dst n (u = 1) scope) ad))

def execStrel (d a : Reg) (sc : BitVec 3) (w : BitVec 2) (s : State) : Out :=
  let n := 2 ^ w.toNat
  let ad := s.readReg a
  let v := s.readReg d
  if s.scope sc.toNat = 0 then s.store (.strel d a sc w) v ad n
  else
    .next (s.access (.strel d a sc w) ad n 2 (fun off s => (s.ownWrite off v.toNat n).retire) (fun _ s => s.retire)
      (fun dst s => s.drainThen (fun _ => true) (.req 0 (.strel dst n (v.toNat % 256 ^ n)) ad)))

/-! ## Phases and fences (R152, R153) -/

def execPend (s : State) : Out := .next (s.clearReads.drainThen (fun _ => true) .pend)

def execFence (sc : BitVec 3) (kind : BitVec 2) (s : State) : Out :=
  let scope := s.scope sc.toNat
  .next (if scope = 0 then s.retire
    else if kind = 0 then s.clearReads.retire
    else if kind = 1 then s.drainThen (fun _ => true) .rel
    else s.drainThen (fun _ => true) (.sc scope))

def execBar (sc : BitVec 3) (k : BitVec 2) (s : State) : Out :=
  let scope := s.scope sc.toNat
  .next (if scope = 0 then s.barArrive s.cur.1 s.cur.2 k.toNat 0
    else s.drainThen (fun _ => true) (.bar k.toNat scope))

/-! ## Atomics (R155 to R157) -/

/-- The new value of an atomic (R156, R157). -/
def atomicNew (op n x y e : Nat) : Nat :=
  match op with
  | 0 => (x + y) % 2 ^ n
  | 1 => x &&& y
  | 2 => x ||| y
  | 3 => x ^^^ y
  | 4 => if sx x n ≤ sx y n then x else y
  | 5 => if sx x n ≤ sx y n then y else x
  | 6 => min x y
  | 7 => max x y
  | 8 => y
  | 9 => if x = e then y else x
  | 10 => (fp32.add 0 0 (fp32.val x) (fp32.val y)).1
  | 11 => (fp32.minMax false x y).1
  | _ => (fp32.minMax true x y).1

/-- What rd receives (R156). -/
def atomicRes (op n x : Nat) : Word := if op = 6 ∨ op = 7 ∨ 10 ≤ op then wordN x else wordI (sx x n)

/-- An atomic on the own local store, in the pipeline (R155). -/
def State.ownAtomic (s : State) (d : Reg) (a : Word) (op n y e off : Nat) : State :=
  if s.me.lsBad off (n / 8) then s.trap .ue a
  else
    let x := mread s.me.ls off (n / 8)
    (s.ownWrite off (atomicNew op n x y e) (n / 8)).retireWith d (atomicRes op n x)

/-- An atomic as its thread issues it: its sector alone drains before the request leaves (R155). -/
def State.atomic (s : State) (i : Instr) (op : Nat) (d a b : Reg) (z : BitVec 1) : Out :=
  let n := if z = 1 then 64 else 32
  let ad := s.readReg a
  let y := (s.readReg b).toNat % 2 ^ n
  let e := (s.readReg d).toNat % 2 ^ n
  .next (s.access i ad (n / 8) 3 (fun off s => s.ownAtomic d ad op n y e off) (fun _ s => s.retireWith d 0)
    (fun dst s => match dst with
      | .imp .. => s.trap .prot ad
      | dst => s.drainThen (fun x => x = dst.sector) (.req d (.atomic op (z = 1) dst y e) ad)))

def execAadd (d a b : Reg) (z : BitVec 1) (s : State) : Out := s.atomic (.aadd d a b z) 0 d a b z
def execAand (d a b : Reg) (z : BitVec 1) (s : State) : Out := s.atomic (.aand d a b z) 1 d a b z
def execAor (d a b : Reg) (z : BitVec 1) (s : State) : Out := s.atomic (.aor d a b z) 2 d a b z
def execAxor (d a b : Reg) (z : BitVec 1) (s : State) : Out := s.atomic (.axor d a b z) 3 d a b z
def execAmin (d a b : Reg) (z : BitVec 1) (s : State) : Out := s.atomic (.amin d a b z) 4 d a b z
def execAmax (d a b : Reg) (z : BitVec 1) (s : State) : Out := s.atomic (.amax d a b z) 5 d a b z
def execAminu (d a b : Reg) (z : BitVec 1) (s : State) : Out := s.atomic (.aminu d a b z) 6 d a b z
def execAmaxu (d a b : Reg) (z : BitVec 1) (s : State) : Out := s.atomic (.amaxu d a b z) 7 d a b z
def execAswp (d a b : Reg) (z : BitVec 1) (s : State) : Out := s.atomic (.aswp d a b z) 8 d a b z
def execAcas (d a b : Reg) (z : BitVec 1) (s : State) : Out := s.atomic (.acas d a b z) 9 d a b z
def execAfadd (d a b : Reg) (s : State) : Out := s.atomic (.afadd d a b) 10 d a b 0
def execAfmin (d a b : Reg) (s : State) : Out := s.atomic (.afmin d a b) 11 d a b 0
def execAfmax (d a b : Reg) (s : State) : Out := s.atomic (.afmax d a b) 12 d a b 0

/-! ## Full-or-empty words (R158 to R160) -/

/-- The tag of the doubleword at an offset. -/
def Core.full (k : Core) (off : Nat) : Bool := k.tags.contains (off / 8)

/-- Insert a number in a rising list without repeats. -/
def insertNat (x : Nat) : List Nat → List Nat
  | [] => [x]
  | y :: t => if x < y then x :: y :: t else if x = y then y :: t else y :: insertNat x t

/-- Set the tag of the doubleword at an offset. -/
def Core.setTag (k : Core) (off : Nat) (full : Bool) : Core :=
  { k with tags := if full then insertNat (off / 8) k.tags else k.tags.filter (fun x => x ≠ off / 8) }

/-- One full-or-empty operation at its home: none when its condition does not hold; otherwise the home and the value
returned, none for an uncorrectable word (R159, R160). Ops: 0 LDFE, 1 LDFF, 2 STEF, 3 STFF, 4 FEPROBE, 5 FESET. -/
def Core.feTry (k : Core) (op off v : Nat) : Option (Core × Option Nat) :=
  let full := k.full off
  match op with
  | 0 => if !full then none
         else if k.lsBad off 8 then some (k, none) else some (k.setTag off false, some (mread k.ls off 8))
  | 1 => if !full then none else if k.lsBad off 8 then some (k, none) else some (k, some (mread k.ls off 8))
  | 2 => if full then none else some ((k.lsWrite off v 255 8).setTag off true, some 0)
  | 3 => some ((k.lsWrite off v 255 8).setTag off true, some 0)
  | 4 => some (k, some (b2n full))
  | _ => some (k.setTag off (v = 1), some 0)

/-- The queue's oldest operation whose condition holds, and the rest. -/
def Core.feNext (k : Core) : Option (FeOp × List FeOp) := takeFirst (fun q => (k.feTry q.op q.off q.v).isSome) k.feq

/-- The reply of a service: a value, or UE. -/
def feBody : Option Nat → RBody | some v => .val v | none => .ue

/-- The ring range of a core's channel, if its role has one (R343, R346). -/
def State.channel (s : State) (c : Nat) : Option Role :=
  match (s.core c).field with
  | none => none
  | some f => match tfind s.fields f with | none => none | some x => tfind x.roles (s.core c).role

/-- A tag set full within a core's ring channel is an arrival (R346). -/
def State.ringArrival (s : State) (c off : Nat) : State :=
  match s.channel c with
  | some r =>
    if r.chan = 2 && r.roff ≤ off && off < r.roff + 8 * r.rwords then
      s.modCore c (fun k => { k with dry := 0, dryHeld := false }) else s
  | none => s

/-- True of an operation that sets its tag full (R159). -/
def feFills (op v : Nat) : Bool := op = 2 || op = 3 || (op = 5 && v = 1)

/-- What follows a service at an offset of core c: a counter that was written is examined (R168), a tag set full may be an
arrival. -/
def State.feDone (s : State) (c op off v : Nat) : State :=
  let s := if op = 2 ∨ op = 3 then s.notify (.ls c off) 8 else s
  if feFills op v then s.ringArrival c off else s

/-- Home scans its queue until no condition holds (R160); the fuel is the queue's length. -/
def State.feScan (s : State) (c : Nat) : Nat → State
  | 0 => s
  | n + 1 =>
    match (s.core c).feNext with
    | none => s
    | some (q, rest) =>
      match (s.core c).feTry q.op q.off q.v with
      | none => s
      | some (k, v) => (((s.setCore c { k with feq := rest }).reply q.core q.slot q.inc (feBody v)).feDone c q.op q.off q.v).feScan c n

/-- After a service at an offset of core c: what follows it, then the wait queue. -/
def State.feServed (s : State) (c op off v : Nat) : State :=
  (s.feDone c op off v).feScan c (s.core c).feq.length

/-- The limit a register names: none for 0xFFFF_FFFF (R158). -/
def limitOf (w : Word) : Option Nat := if wbits w 31 0 = 0xFFFFFFFF then none else some (wbits w 31 0)

/-- A full-or-empty operation on the own local store: served in the pipeline, or queued (R158 to R160). -/
def State.ownFe (s : State) (op : Nat) (d : Reg) (a : Word) (v : Nat) (lim : Option Nat) (off : Nat) : State :=
  match s.me.feTry op off v with
  | some (k, some x) =>
    let s := (s.setCore s.cur.1 k).feServed s.cur.1 op off v
    if op = 0 ∨ op = 1 ∨ op = 4 then s.retireWith d (wordN x) else s.retire
  | some (_, none) => s.trap .ue a
  | none =>
    if lim = some 0 then s.trap .fetime a
    else
      (s.modMe (fun k => { k with feq := k.feq ++
          [{ off := off, op := op, v := v, core := s.cur.1, slot := s.cur.2, inc := s.th.inc, ctx := k.ctx }] })).modTh
        (fun h => { h.await (.home d (.fe op (.ls s.cur.1 off) v) a) with limit := lim })

/-- A full-or-empty operation as its thread issues it (R158). -/
def State.fe (s : State) (i : Instr) (op : Nat) (d a : Reg) (v : Word) (lim : Option Nat) : Out :=
  let ad := s.readReg a
  let acc := if op = 2 ∨ op = 3 then 2 else 1
  .next (match s.place s.cur.1 ad 8 acc with
    | .trap c fa => s.trap c fa
    | .miss va acc => s.awaitWalk (some i) va acc
    | .own off => if s.me.scbHit off 8 then s.block i else s.ownFe op d ad v.toNat lim off
    | .high _ => s.trap .prot ad
    | .far (.ls p off) =>
      (s.drainThen (fun x => x = .ls p (off / 32 * 32)) (.req d (.fe op (.ls p off) v.toNat) ad)).modTh
        (fun h => { h with limit := lim })
    | .far _ => s.trap .prot ad)

def execLdfe (d a b : Reg) (s : State) : Out := s.fe (.ldfe d a b) 0 d a 0 (limitOf (s.readReg b))
def execLdff (d a b : Reg) (s : State) : Out := s.fe (.ldff d a b) 1 d a 0 (limitOf (s.readReg b))
def execStef (d a b : Reg) (s : State) : Out := s.fe (.stef d a b) 2 0 a (s.readReg d) (limitOf (s.readReg b))
def execStff (d a : Reg) (s : State) : Out := s.fe (.stff d a) 3 0 a (s.readReg d) none
def execFeprobe (d a : Reg) (s : State) : Out := s.fe (.feprobe d a) 4 d a 0 none
def execFeset (a : Reg) (f : BitVec 1) (s : State) : Out := s.fe (.feset a f) 5 0 a (f.setWidth 64) none

/-! ## Counters (R168) -/

/-- A WAITGE watches its counter. -/
def State.watch (s : State) (d : Dest) (c t inc : Nat) : State :=
  if s.watches.any (fun w => w.core = c && w.slot = t && w.inc = inc) then s
  else { s with watches := s.watches ++ [{ dst := d, core := c, slot := t, inc := inc }] }

def execWaitge (d a b : Reg) (s : State) : Out :=
  let ad := s.readReg a
  let target := (s.readReg b).toNat
  let lim := limitOf (s.readReg d)
  .next (s.access (.waitge d a b) ad 8 1
    (fun off s =>
      let s := s.clearReads
      if s.me.lsBad off 8 then s.trap .ue ad
      else if target ≤ mread s.me.ls off 8 then s.retire
      else if lim = some 0 then s.trap .cnttime ad
      else (s.watch (.ls s.cur.1 off) s.cur.1 s.cur.2 s.th.inc).modTh
        (fun h => { h.await (.home 0 (.waitge (.ls s.cur.1 off) target) ad) with limit := lim }))
    (fun _ s => if target = 0 then s.clearReads.retire
      else if lim = some 0 then s.clearReads.trap .cnttime ad
      else s.clearReads.modTh (fun h => { h.await (.home 0 (.waitge (.ls s.cur.1 0x6000) target) ad) with limit := lim }))
    (fun dst s => match dst with
      | .imp .. => s.trap .prot ad
      | dst => (s.clearReads.request s.cur.1 s.cur.2 0 (.waitge dst target) ad).modTh (fun h => { h with limit := lim })))

end Sys2Proof.Machine
end

