-- ==== Sys2Proof/Machine/Ports.lean ====
section
/-! DEFINITION. Neighbour ports (05 R162 to R164), waiting for events and raising them (R166, R167), and the deliberate
traps (R173). -/

namespace Sys2Proof.Machine

/-! ## Ports -/

/-- Position of the neighbour of a core in a direction, within its field (R162). -/
def State.neighbour (s : State) (c d : Nat) : Option Nat :=
  let k := s.core c
  match k.field with
  | none => none
  | some i =>
    match tfind s.fields i with
    | none => none
    | some f =>
      match d with
      | 0 => if k.cy = 0 then none else some (s.lcnPos f ((k.cy - 1) * k.fw + k.cx))
      | 1 => if k.cx + 1 < k.fw then some (s.lcnPos f (k.cy * k.fw + k.cx + 1)) else none
      | 2 => if k.cy + 1 < k.fh then some (s.lcnPos f ((k.cy + 1) * k.fw + k.cx)) else none
      | _ => if k.cx = 0 then none else some (s.lcnPos f (k.cy * k.fw + k.cx - 1))

/-- A thread issued earlier waits to perform an instruction of a kind (R164). -/
def Core.ahead (k : Core) (t : Nat) (p : Instr → Bool) : Bool :=
  k.threads.any (fun e => e.1 ≠ t && (match e.2.wait with
    | .retry i => p i && decide (e.2.stamp < (k.thr t).stamp)
    | _ => false))

/-- The engine commands of R228. -/
def isEngine : Instr → Bool
  | .copyElems .. => true | .copy2 .. => true | .copyring .. => true | .gather .. => true | .scatter .. => true
  | .scatadd .. => true | .qjoin .. => true | .feeds .. => true | _ => false

/-- An engine command issued before a stamp still waits for the translation of its counter (R228). -/
def Core.commandAhead (k : Core) (stamp : Nat) : Bool :=
  k.threads.any (fun e => decide (e.2.stamp < stamp) && (match e.2.wait with
    | .walk (some i) _ _ => isEngine i
    | .retry i => isEngine i
    | _ => false))

/-- PSEND and PSENDQ of one port; PRECV and PRECVQ of one port. -/
def sendsTo (d : BitVec 2) : Instr → Bool
  | .psend _ e => e = d
  | .psendq _ _ e => e = d
  | _ => false
def recvsFrom (d : BitVec 2) : Instr → Bool
  | .precv _ e => e = d
  | .precvq _ _ e => e = d
  | _ => false

/-- Inbound entries of a core from a direction, and those sent toward a direction. -/
def Core.inbound (k : Core) (d : Nat) : List Word := tget [] k.portIn d
def Core.outbound (k : Core) (d : Nat) : List Word := tget [] k.portOut d

/-- Free entries in the neighbour's inbound queue toward a core: entries on their way hold theirs (R163). -/
def State.portRoom (s : State) (c d n : Nat) : Nat :=
  8 - ((s.core n).inbound (opposite d)).length - ((s.core c).outbound d).length

/-- Send entries through a port, or wait for room (R163). -/
def State.portSend (s : State) (i : Instr) (k : BitVec 2) (vs : List Word) : State :=
  let c := s.cur.1
  match s.neighbour c k.toNat with
  | none => s.trap .prot
  | some n =>
    if s.me.ahead s.cur.2 (sendsTo k) || decide (s.portRoom c k.toNat n < vs.length) then s.block i
    else
      let s := s.modMe (fun x => { x with portOut := tset x.portOut k.toNat (x.outbound k.toNat ++ vs) })
      (vs.foldl (fun a _ => a.post (.portEntryArrival c k.toNat)) s).retire.wake c

/-- Receive n entries through a port, or wait for them (R163). -/
def State.portRecv (s : State) (i : Instr) (k : BitVec 2) (rs : List Reg) : State :=
  let c := s.cur.1
  match s.neighbour c k.toNat with
  | none => s.trap .prot
  | some n =>
    let q := s.me.inbound k.toNat
    if s.me.ahead s.cur.2 (recvsFrom k) || decide (q.length < rs.length) then s.block i
    else
      let s := s.modMe (fun x => { x with portIn := tset x.portIn k.toNat (q.drop rs.length) })
      ((s.modTh (fun h => h.setRegs (rs.zip q))).retire.wake n).wake c

def execPsend (a : Reg) (k : BitVec 2) (s : State) : Out := .next (s.portSend (.psend a k) k [s.readReg a])
def execPsendq (a b : Reg) (k : BitVec 2) (s : State) : Out :=
  .next (s.portSend (.psendq a b k) k [s.readReg a, s.readReg b])
def execPrecv (d : Reg) (k : BitVec 2) (s : State) : Out := .next (s.portRecv (.precv d k) k [d])
def execPrecvq (d b : Reg) (k : BitVec 2) (s : State) : Out := .next (s.portRecv (.precvq d b k) k [d, b])
def execPpeek (d : Reg) (k : BitVec 2) (s : State) : Out :=
  .next (match s.neighbour s.cur.1 k.toNat with
    | none => s.trap .prot
    | some n => s.retireWith d (wordN ((s.me.inbound k.toNat).length + 256 * s.portRoom s.cur.1 k.toNat n)))

/-- An arrival on a core's channel ends its dry spell (R346). -/
def Core.arrival (k : Core) : Core := { k with dry := 0, dryHeld := false }

/-- PORT_ENTRY_ARRIVAL (R164): the oldest entry core c sent toward direction d is appended to the neighbour's queue. -/
def execPortEntryArrival (c d : Nat) (s : State) : Out :=
  .next (match s.neighbour c d, (s.core c).outbound d with
    | some n, v :: r =>
      let s := s.modCore c (fun x => { x with portOut := tset x.portOut d r })
      if s.swept (.ls n 0) (s.core c).ctx then s
      else
      let s := s.modCore n (fun x => { x with portIn := tset x.portIn (opposite d) (x.inbound (opposite d) ++ [v]) })
      let s := match s.channel n with
        | some role => if role.chan = 1 && role.dir = opposite d then s.modCore n Core.arrival else s
        | none => s
      s.wake n
    | _, _ => s)

/-! ## Events (R166, R167) -/

/-- Enabled pending events are taken (R166). -/
def Thread.takeEvents (h : Thread) (rd : Reg) : Thread :=
  let m := h.evm &&& h.evp
  Thread.retire ({ h with evp := h.evp &&& ~~~ m }.setReg rd (m.setWidth 64))

/-- Sleep for an enabled event (R19, R166). -/
def Thread.sleepFor (h : Thread) (rd : Reg) (limit : Option Nat) : Thread :=
  { h with st := .sleeping, wait := .sleep rd, opnd := some h.operands, limit := limit }

def execWait (d : Reg) (s : State) : Out :=
  .next (s.modTh (fun h => if h.evm &&& h.evp = 0 then h.sleepFor d none else h.takeEvents d))
def execSleep (d a : Reg) (s : State) : Out :=
  .next (s.modTh (fun h =>
    if h.evm &&& h.evp = 0 && limitOf (h.src a) ≠ some 0 then h.sleepFor d (limitOf (h.src a)) else h.takeEvents d))

/-- SLEEP_TIMEOUT (R166): the SLEEP completes with no event. Its limit does not end it while the core is frozen (R304). -/
def execSleepTimeout (c t : Nat) (s : State) : Out :=
  .next (if (s.core c).frozen then s
    else s.modThr c t (fun h => match h.wait with
      | .sleep rd => if h.st = .sleeping && h.limit = some 0 then h.takeEvents rd else h
      | _ => h))

def execEvt (a b : Reg) (e : BitVec 3) (s : State) : Out :=
  let x := s.readReg a
  .next (if s.me.fw * s.me.fh ≤ x.toNat then s.trap .prot
    else
      let m : EvMsg := { slot := s.cur.2, lcn := x.toNat, mask := (s.readReg b).toNat % 65536, e := e.toNat }
      ((s.modMe (fun k => { k with evOut := k.evOut ++ [m] })).post (.eventArrival s.cur.1 s.cur.2)).retire)

/-- Set a bit of evp in the slots of a mask (R43, R167). -/
def State.raise (s : State) (c mask bit : Nat) : State :=
  s.modCore c (fun k => { k with threads := tmap (fun i h => if bits mask i i = 1 then h.event bit else h) k.threads })

/-- EVENT_ARRIVAL (R167): the oldest event slot t of core c sent reaches its target. -/
def execEventArrival (c t : Nat) (s : State) : Out :=
  .next (match takeFirst (fun m => decide (m.slot = t)) (s.core c).evOut, (s.core c).field with
    | some (m, r), some i =>
      let s := s.modCore c (fun k => { k with evOut := r })
      match tfind s.fields i with
      | some f => if s.swept (.ls (s.lcnPos f m.lcn) 0) (s.core c).ctx then s else s.raise (s.lcnPos f m.lcn) m.mask (8 + m.e)
      | none => s
    | _, _ => s)

/-! ## Deliberate traps (R173): the record's address is the word itself, prefixes or not -/

def execBrk (c : BitVec 6) (s : State) : Out := .next ((s.modTh Thread.clearPfx).trap .brk (c.setWidth 64))
def execTrapCode (c : BitVec 6) (s : State) : Out := .next ((s.modTh Thread.clearPfx).trap .trapi (c.setWidth 64))

end Sys2Proof.Machine
end

