-- ==== Sys2Proof/Machine/Leave.lean ====
section
/-! DEFINITION. Leave and the die's governor (11 R300 to R303; host caps 19 R433), and a thread's end (05 R171). -/

namespace Sys2Proof.Machine

/-- Class of a format (R300): 0 four-bit, 1 eight-bit, 2 sixteen-bit, 3 FP32. -/
def leaveClass (fmt : Nat) : Nat :=
  if fmt = 1 ∨ fmt = 12 ∨ fmt = 14 then 0 else if fmt = 8 ∨ fmt = 9 then 2 else if fmt = 10 then 3 else 1

/-- Microwatts of one bench cell, and of one MTILE (R300). -/
def cellLeave (ws : Bool) (fmt : Nat) : Nat :=
  match leaveClass fmt with | 0 => 3600 | 1 => 3800 | 2 => 3400 | _ => if ws then 3600 else 2600
def mtileLeave (fmt : Nat) : Nat := if leaveClass fmt ≤ 1 then 1000 else 1200

/-- A request joins a governor's queue; an empty queue is examined at the tick of arrival (R301). -/
def State.askLeave (s : State) (d c t inc w : Nat) : State :=
  (s.modDie d (fun x => { x with queue := x.queue ++ [{ core := c, slot := t, inc := inc, w := w, left := w }] })).post1
    (.leaveGrant d)

/-- Leave on its way back to its governor (R302). -/
def State.returnLeave (s : State) (d w : Nat) : State :=
  (s.modDie d (fun x => { x with back := x.back ++ [w] })).post (.leaveReturn d)

/-- Several returns. -/
def State.returnAll (s : State) (l : List (Nat × Nat)) : State := l.foldl (fun a e => a.returnLeave e.1 e.2) s

/-- A request is withdrawn: its thread is gone. -/
def State.withdrawLeave (s : State) (c t inc : Nat) : State :=
  let keep := fun (r : LeaveReq) => !(decide (r.core = c) && decide (r.slot = t) && decide (r.inc = inc))
  { s with dieTab := tmap (fun _ x => { x with queue := x.queue.filter keep }) s.dieTab }

/-- LEAVE_RETURN (R302). -/
def execLeaveReturn (d : Nat) (s : State) : Out :=
  .next (match (s.die d).back with
    | [] => s
    | w :: r => (s.modDie d (fun x => { x with back := r, held := x.held - w })).post1 (.leaveGrant d))

/-- RAMP_CREDIT_REFILL (R301). -/
def execRampCreditRefill (d : Nat) (s : State) : Out := .next (s.modDie d (fun x => { x with credit := 200000 }))

/-- The grant goes to its claim, or to the MTILE in the core's cell (R301, R214, R208). -/
def State.granted (s : State) (d : Nat) (r : LeaveReq) : State :=
  match s.claims.find? (fun q => decide (q.core = r.core) && decide (q.slot = r.slot) && decide (q.inc = r.inc)) with
  | some q =>
    let q' := { q with ask := q.ask.drop 1, held := q.held ++ [(d, r.w)] }
    let s := { s with claims := s.claims.map (fun x => if x = q then q' else x) }
    match q'.ask with
    | [] => s.post (.claim q.core q.slot)
    | (d', w) :: _ => s.askLeave d' q.core q.slot q.inc w
  | none =>
    match (s.core r.core).mtile with
    | some m =>
      if m.slot = r.slot && m.inc = r.inc then
        (s.modCore r.core (fun k => { k with mtile := some { m with granted := true } })).post (.kStep r.core)
      else s.returnLeave d r.w
    | none => s.returnLeave d r.w

/-- LEAVE_GRANT (R301): the head request draws from the credit, once in a tick, and is granted when it has drawn all. -/
def execLeaveGrant (d : Nat) (s : State) : Out :=
  let x := s.die d
  .next (match x.queue with
    | [] => s
    | r :: rest =>
      if x.lastGrant = s.cyc + 1 || !(r.started || decide (x.held + r.w ≤ x.cap)) then s
      else
        let take := min x.credit r.left
        let x := { x with credit := x.credit - take, lastGrant := s.cyc + 1 }
        if r.left ≤ take then
          ({ s with dieTab := tset s.dieTab d { x with queue := rest, held := x.held + r.w } }).granted d r
        else { s with dieTab := tset s.dieTab d { x with queue := { r with left := r.left - take, started := true } :: rest } })

/-- The MTILE of a core is over: its leave goes back, or its request is withdrawn, and the cell is free for what waits
behind it (R20). -/
def State.endMtile (s : State) (c : Nat) : State :=
  match (s.core c).mtile with
  | none => s
  | some m =>
    let w := mtileLeave (wbits (m.desA.headD 0) 4 0)
    let s := s.modCore c (fun k => { k with mtile := none })
    (if m.granted then s.returnLeave (dieOf c) w else s.withdrawLeave c m.slot m.inc).wake c

/-- A claim is dropped with the leave it holds (R302). -/
def State.dropClaim (s : State) (c t inc : Nat) : State :=
  match s.claims.find? (fun q => decide (q.core = c) && decide (q.slot = t) && decide (q.inc = inc)) with
  | none => s
  | some q => (({ s with claims := s.claims.filter (fun x => x ≠ q) }).withdrawLeave c t inc).returnAll q.held

/-! ## A thread's end by kill (R171) -/

/-- A barrier arrival is withdrawn: an episode in which nobody waits any more is not open (R165). -/
def State.dropEpisodes (s : State) : State :=
  let waits := fun (e : Nat × Episode) => (s.regionCores e.2).any (fun c =>
    (s.core c).threads.any (fun h => match h.2.wait with | .bar j _ => j = e.2.k | _ => false))
  { s with episodes := s.episodes.filter waits }

/-- The waits of a thread that is killed are withdrawn. -/
def State.withdrawWaits (s : State) (c t : Nat) : State :=
  let h := s.thr c t
  let keep := fun (w : Watch) => !(decide (w.core = c) && decide (w.slot = t) && decide (w.inc = h.inc))
  let s := { s with watches := s.watches.filter keep }
  match h.wait with
  | .home _ (.fe _ (.ls pos _) _) _ =>
    let home := s.locate pos
    (s.modCore home (fun k => { k with withdraw := k.withdraw ++ [(c, t, h.inc)] })).post (.feWithdrawal home c)
  | .seq => s.modCore c (fun k => { k with seqq := k.seqq.filter (fun q => !(decide (q.slot = t) && decide (q.inc = h.inc))) })
  | .tplay _ _ =>
    s.modCore c (fun k => { k with seqq := k.seqq.filter (fun q => !(decide (q.slot = t) && decide (q.inc = h.inc))) })
  | .mtile => s.endMtile c
  | .gang _ => s.dropClaim c t h.inc
  | _ => s

/-- Take the sequencer up again. -/
def State.kickSeq (s : State) (c : Nat) : State :=
  if (s.core c).seqq = [] then s else s.post1 (.sequencerAccept c)

/-- A slot becomes empty with no exit record (R171). -/
def State.killSlot (s : State) (c t : Nat) : State :=
  let s := s.withdrawWaits c t
  let s := s.modCore c (fun k => { (k.modThr t Thread.emptied) with exits := tdel k.exits t })
  ((s.dropEpisodes.pruneSerial).kickSeq c).slotFreed c

/-- FE_WITHDRAWAL (R161): home c drops the queued operations that core n withdrew. -/
def execFeWithdrawal (c n : Nat) (s : State) : Out :=
  .next (match takeFirst (fun (w : Nat × Nat × Nat) => decide (w.1 = n)) (s.core c).withdraw with
    | none => s
    | some (w, rest) =>
      let keep := fun (q : FeOp) => !(decide (q.core = w.1) && decide (q.slot = w.2.1) && decide (q.inc = w.2.2))
      s.modCore c (fun k => { k with withdraw := rest, feq := k.feq.filter keep }))

end Sys2Proof.Machine
end

