-- ==== Sys2Proof/Machine/Threads.lean ====
section
/-! DEFINITION. Threads of a core (05 R169 to R171), CKPT as issued (R172), special registers (01 R36 to R43, 05 R174) and
cell registers (R175). -/

namespace Sys2Proof.Machine

/-! ## TSTART, TREAP, TKILL, CKPT -/

/-- A thread as it begins (R169, R342): g registers given, everything else at its reset value, the seed of R59. -/
def Thread.start (h : Thread) (k : Core) (t : Nat) (pc : BitVec 48) (g : Vector Word 8) : Thread :=
  { inc := h.inc, st := .ready, pc := pc, g := g, seed := seedStart k.jseed k.lcn t }

def execTstart (d a b : Reg) (s : State) : Out :=
  .next (if s.cur.2 ≠ 0 then s.trap .priv
    else match codeAddr (s.readReg b) with
      | .error c => s.trap c (s.readReg b)
      | .ok pc =>
        let x := (s.readReg a).toNat
        if x = 0 ∨ 15 < x then s.retireWith d 2
        else if (s.me.thr x).st ≠ .empty ∨ (tfind s.me.exits x).isSome then s.retireWith d 1
        else
          let g := s.th.g.set 7 0
          (s.modMe (fun k => k.modThr x (fun h => h.start k x pc g))).retireWith d 0)

def execTreap (d a b : Reg) (s : State) : Out :=
  .next (if s.cur.2 ≠ 0 then s.trap .priv
    else
      let x := (s.readReg a).toNat
      if x = 0 ∨ 15 < x then s.retireWith d 2
      else if (s.me.thr x).st ≠ .empty then s.block (.treap d a b)
      else match tfind s.me.exits x with
        | some v => ((s.modMe (fun k => { k with exits := tdel k.exits x })).writeReg b v).retireWith d 0
        | none => s.retireWith d 1)

def execTkill (d a : Reg) (s : State) : Out :=
  .next (if s.cur.2 ≠ 0 then s.trap .priv
    else
      let x := (s.readReg a).toNat
      if x = 0 ∨ 15 < x then s.retireWith d 2
      else if (s.me.thr x).st = .empty ∧ tfind s.me.exits x = none then s.retireWith d 1
      else (s.retireWith d 0).killSlot s.cur.1 x)

/-- CKPT as issued (R172): the core's write set is marked for draining (10 R286), and its ganger waits for the collective. -/
def execCkpt (d : Reg) (s : State) : Out :=
  .next (if s.cur.2 ≠ 0 then s.trap .priv else ((s.drain s.cur.1 (fun _ => true)).await (.ckpt d)).checkCkpt s.cur.1)

/-! ## Special registers -/

/-- The value of a special register at service, none for a number not in R37. -/
def sprRead (k : Core) (h : Thread) (t cyc n : Nat) : Option Word :=
  match n with
  | 0x00 => some (wordN t)
  | 0x01 => some (wordN k.cx)
  | 0x02 => some (wordN k.cy)
  | 0x03 => some (wordN k.fw)
  | 0x04 => some (wordN k.fh)
  | 0x05 => some (wordN k.lcn)
  | 0x06 => some (wordN k.stage)
  | 0x07 => some (wordN k.role)
  | 0x08 => some (wordN k.ctx)
  | 0x09 => some (wordN cyc)
  | 0x10 => some (h.efr.setWidth 64)
  | 0x11 => some (h.rnd.setWidth 64)
  | 0x12 => some (h.fxf.setWidth 64)
  | 0x13 => some h.seed
  | 0x14 => some k.jseed
  | 0x18 => some k.geo
  | 0x19 => some k.gsm
  | 0x1A => some k.gsn
  | 0x1B => some k.gmk
  | 0x1C => some h.rowp
  | 0x20 => some (h.wsp.setWidth 64)
  | 0x21 => some (h.wsl.setWidth 64)
  | 0x22 => some (h.wdp.setWidth 64)
  | 0x24 => some h.ls0
  | 0x25 => some h.le0
  | 0x26 => some (h.lc0.setWidth 64)
  | 0x27 => some h.ls1
  | 0x28 => some h.le1
  | 0x29 => some (h.lc1.setWidth 64)
  | 0x30 => some k.sq0
  | 0x31 => some k.sq1
  | 0x32 => some k.sq2
  | 0x33 => some k.sq3
  | 0x34 => some (wordN k.qdepth)
  | 0x38 => some k.spoil
  | 0x39 => some k.psr
  | 0x3A => some k.gst
  | 0x3C => some (h.evm.setWidth 64)
  | 0x3D => some (h.evp.setWidth 64)
  | _ => none

/-- The value an MFS at a tick sees: of a core copy, the earlier value until eight ticks after a write (R38). -/
def Core.seen (k : Core) (cyc n : Nat) (now : Word) : Word :=
  match k.hist.find? (fun e => decide (e.2.1 = n) && decide (cyc < e.1 + 8)) with | some e => e.2.2 | none => now

/-- Keep the earlier value of a core copy about to be written (R38). -/
def Core.remember (k : Core) (cyc n : Nat) (old : Word) : Core :=
  { k with hist := k.hist.filter (fun e => decide (cyc < e.1 + 8)) ++ [(cyc, n, old)] }

/-- Window transfers of a thread still to do (R27). -/
def Thread.spillDue (h : Thread) : Bool := decide (2 ≤ h.olds.length) && h.canSpill
def Thread.fillDue (h : Thread) : Bool := decide (h.olds = []) && decide (0 < h.spilled) && h.canFill

/-- bits 15 to 0 with bits 5 to 0 forced to zero (R26). -/
def frameReg (v : Word) : BitVec 16 := v.setWidth 16 &&& 0xFFC0

/-- An instruction address written to a loop register: bits 1 and 0 are forced to zero (R28, R174; log 30). -/
def codeReg (v : Word) : Word := v &&& ~~~ 3

/-- An MTS to a thread copy (R174): none when it is not one that MTS writes; an error for ILLEGAL. -/
def Thread.mtsThread (h : Thread) (n : Nat) (v : Word) : Option (Except Unit Thread) :=
  match n with
  | 0x10 => some (if laneCode (wbits v 4 0) then .ok { h with efr := v.setWidth 5 } else .error ())
  | 0x11 => some (if wbits v 2 0 ≤ 5 then .ok { h with rnd := v.setWidth 3 } else .error ())
  | 0x12 => some (.ok { h with fxf := v.setWidth 5 })
  | 0x13 => some (.ok { h with seed := v })
  | 0x1C => some (.ok { h with rowp := v })
  | 0x20 => some (.ok { h with wsp := frameReg v })
  | 0x21 => some (.ok { h with wsl := frameReg v })
  | 0x24 => some (.ok { h with ls0 := codeReg v })
  | 0x25 => some (.ok { h with le0 := codeReg v })
  | 0x26 => some (.ok { h with lc0 := v.setWidth 32 })
  | 0x27 => some (.ok { h with ls1 := codeReg v })
  | 0x28 => some (.ok { h with le1 := codeReg v })
  | 0x29 => some (.ok { h with lc1 := v.setWidth 32 })
  | 0x3C => some (.ok { h with evm := v.setWidth 16 &&& 0xFF07 })
  | 0x3D => some (.ok { h with evp := h.evp &&& ~~~ (v.setWidth 16) })
  | _ => none

/-- An MTS to a core copy (R174, R41, R42). -/
def Core.mtsCore (k : Core) (n : Nat) (v : Word) : Option Core :=
  match n with
  | 0x30 => some { k with sq0 := v }
  | 0x31 => some { k with sq1 := v }
  | 0x32 => some { k with sq2 := v }
  | 0x33 => some { k with sq3 := v }
  | 0x38 => some { k with spoil := 0 }
  | 0x39 => some { k with evict := k.evict && !wbit v 1, spill := k.spill && !wbit v 0 }
  | _ => none

def execMfs (d : Reg) (n : BitVec 8) (s : State) : Out :=
  .next (match sprRead s.me s.th s.cur.2 s.cyc n.toNat with
    | none => s.trap .illegal
    | some v => s.retireWith d (s.me.seen s.cyc n.toNat v))

def execMts (a : Reg) (n : BitVec 8) (s : State) : Out :=
  let v := s.readReg a
  let x := n.toNat
  .next (match s.th.mtsThread x v with
    | some (.error _) => s.trap .illegal
    | some (.ok h) =>
      if (x = 0x20 || x = 0x21) && (s.th.spillDue || s.th.fillDue) then s.block (.mts a n)
      else (s.modTh (fun _ => h)).retire
    | none => match s.me.mtsCore x v, sprRead s.me s.th s.cur.2 s.cyc x with
      | some k, some old => (s.setCore s.cur.1 (k.remember s.cyc x old)).retire
      | _, _ => s.trap .illegal)

/-! ## Cell registers -/

/-- Index of a cell register in its bank of sixteen, or of four. -/
def idx16 (c : BitVec 6) : Fin 16 := ⟨c.toNat % 16, Nat.mod_lt _ (by decide)⟩
def idx4 (c : BitVec 6) : Fin 4 := ⟨c.toNat % 4, Nat.mod_lt _ (by decide)⟩

/-- The value MFA reads (R175, R82). -/
def Core.mfa (k : Core) (c : BitVec 6) : Word :=
  if c.toNat < 16 then (k.ac.get (idx16 c)).signExtend 64
  else if c.toNat < 32 then (k.fa.get (idx16 c)).setWidth 64
  else if c.toNat < 36 then (k.sa.get (idx4 c)).signExtend 64
  else (k.sb.get (idx4 c)).signExtend 64

/-- The write of MTA (R175, R82). -/
def Core.mta (k : Core) (c : BitVec 6) (v : BitVec 32) : Core :=
  if c.toNat < 16 then { k with ac := k.ac.set (idx16 c).val v (idx16 c).isLt }
  else if c.toNat < 32 then { k with fa := k.fa.set (idx16 c).val v (idx16 c).isLt }
  else if c.toNat < 36 then { k with sa := k.sa.set (idx4 c).val v (idx4 c).isLt }
  else { k with sb := k.sb.set (idx4 c).val v (idx4 c).isLt }

/-- Another thread's MTILE is in progress in the cell (R175, R207). -/
def Core.cellBusy (k : Core) : Bool := match k.mtile with | some m => m.granted | none => false

def execMfa (d : Reg) (c : BitVec 6) (s : State) : Out := .next (s.retireWith d (s.me.mfa c))
def execMta (a : Reg) (c : BitVec 6) (s : State) : Out :=
  .next (if s.me.cellBusy then s.block (.mta a c)
    else (s.modMe (fun k => k.mta c ((s.readReg a).setWidth 32))).retire)

end Sys2Proof.Machine
end

