-- ==== Sys2Proof/Machine/Desc.lean ====
section
/-! DEFINITION. Tensor descriptors (07 R201 to R203), their check (R204), element addresses, group parameters (02 R54,
R55), and reads and writes of elements by MTILE, MST and the engines (R202, 08 R229). A descriptor is its eight
doublewords. -/

namespace Sys2Proof.Machine

/-- A descriptor: eight doublewords. -/
abbrev Desc := List Word

namespace Desc

/-- Doubleword i. -/
def dw (t : Desc) (i : Nat) : Word := t.getD i 0

def fmt (t : Desc) : Nat := wbits (t.dw 0) 4 0
def grp (t : Desc) : Nat := wbits (t.dw 0) 6 5
/-- Number of dimensions. -/
def ndim (t : Desc) : Nat := wbits (t.dw 0) 8 7 + 1
/-- P: dw7 holds a pattern program. -/
def pat (t : Desc) : Bool := wbit (t.dw 0) 9
def version (t : Desc) : Nat := wbits (t.dw 0) 63 32
def base (t : Desc) : Word := t.dw 1
def strideBits (t : Desc) (d : Nat) : Nat :=
  match d with
  | 0 => wbits (t.dw 2) 31 0 | 1 => wbits (t.dw 2) 63 32 | 2 => wbits (t.dw 3) 31 0 | _ => wbits (t.dw 3) 63 32
def stride (t : Desc) (d : Nat) : Int := sx (t.strideBits d) 32
def gshape (t : Desc) (d : Nat) : Nat :=
  match d with
  | 0 => wbits (t.dw 4) 19 0 | 1 => wbits (t.dw 4) 39 20 | 2 => wbits (t.dw 4) 59 40 | _ => wbits (t.dw 5) 19 0
def shard (t : Desc) (d : Nat) : Nat :=
  match d with
  | 0 => wbits (t.dw 5) 41 20 | 1 => wbits (t.dw 5) 63 42 | 2 => wbits (t.dw 6) 21 0 | _ => wbits (t.dw 6) 43 22
def kind (t : Desc) (d : Nat) : Nat := bits (t.shard d) 1 0
def count (t : Desc) (d : Nat) : Nat := bits (t.shard d) 11 2 + 1
def index (t : Desc) (d : Nat) : Nat := bits (t.shard d) 21 12
def zpo (t : Desc) : Int := sx (wbits (t.dw 6) 63 44) 20
def aux (t : Desc) : Nat := wbits (t.dw 7) 47 0

/-- Width of an element in bits, and bytes an access takes (R202). -/
def bitsOf (t : Desc) : Nat := widthOf t.fmt
def bytesOf (t : Desc) : Nat := if t.bitsOf = 4 then 1 else t.bitsOf / 8

/-- A used dimension is ill formed (R204). -/
def badUsed (t : Desc) (d : Nat) : Bool :=
  t.gshape d = 0 || t.kind d = 3 || decide (t.count d ≤ t.index d) || (t.kind d = 0 && (t.count d ≠ 1 || t.index d ≠ 0))

/-- An unused dimension is ill formed (R204). -/
def badUnused (t : Desc) (d : Nat) : Bool := t.strideBits d ≠ 0 || t.gshape d ≠ 0 || t.shard d ≠ 0

/-- The check of R204: true when it raises ILLEGAL. -/
def illegal (t : Desc) : Bool :=
  let grouped := groupedCode t.fmt || blockCode t.fmt
  wbits (t.dw 0) 31 10 ≠ 0 || wbits (t.dw 4) 63 60 ≠ 0 || wbits (t.dw 7) 63 48 ≠ 0 ||
  !memCode t.fmt ||
  (grouped && t.grp = 0) || (!grouped && t.grp ≠ 0) || (blockCode t.fmt && t.grp ≠ 1) ||
  (upto 4).any (fun d => if d < t.ndim then t.badUsed d else t.badUnused d) ||
  decide (3 ≤ wbits t.base 63 60) ||
  (t.bitsOf = 4 && t.stride 0 ≠ 1) ||
  (t.pat && (grouped || t.aux % 16 ≠ 0))

/-- Local extent of a dimension (R202). -/
def extent (t : Desc) (d : Nat) : Nat :=
  if t.ndim ≤ d then 1
  else
    let g := t.gshape d
    let c := t.count d
    let x := t.index d
    match t.kind d with
    | 0 => g
    | 1 => let b := ceilDiv g c; min (g - x * b) b
    | _ => ceilDiv (g - x) c

/-- Global coordinate of a local index (R202). -/
def global (t : Desc) (d i : Nat) : Nat :=
  let c := t.count d
  let x := t.index d
  match t.kind d with
  | 0 => i
  | 1 => x * ceilDiv (t.gshape d) c + i
  | _ => i * c + x

/-- The tensor holds no element in the core's view (R203). -/
def empty (t : Desc) : Bool := (upto 4).any (fun d => t.extent d = 0)

/-- Elements of the tensor in the core's view. -/
def size (t : Desc) : Nat := t.extent 0 * t.extent 1 * t.extent 2 * t.extent 3

/-- Address of the element at local indices, with the base moved by some bytes (R202). -/
def addrAt (t : Desc) (moved : Int) (i0 i1 i2 i3 : Nat) : Word :=
  let low : Int := if t.bitsOf = 4 then ((i0 / 2 : Nat) : Int) else t.stride 0 * i0
  wordI (t.base.toNat + moved + t.stride 1 * i1 + t.stride 2 * i2 + t.stride 3 * i3 + low)

def addr (t : Desc) (i0 i1 i2 i3 : Nat) : Word := t.addrAt 0 i0 i1 i2 i3

/-- An index clamped to the last of a dimension (R203). -/
def clampTo (t : Desc) (d i : Nat) : Nat := min i (t.extent d - 1)

/-- Address of the element at indices, clamped. -/
def clamped (d : Desc) (x : Nat × Nat × Nat × Nat) : Word :=
  d.addr (d.clampTo 0 x.1) (d.clampTo 1 x.2.1) (d.clampTo 2 x.2.2.1) (d.clampTo 3 x.2.2.2)

/-- True when every index lies within its extent. -/
def inside (t : Desc) (i0 i1 i2 i3 : Nat) : Bool :=
  decide (i0 < t.extent 0) && decide (i1 < t.extent 1) && decide (i2 < t.extent 2) && decide (i3 < t.extent 3)

/-- Local indices of a linear index: every dimension but the highest used one is reduced (08 R235). -/
def linear (t : Desc) (l : Nat) : Nat × Nat × Nat × Nat :=
  let (e0, e1, e2) := (max 1 (t.extent 0), max 1 (t.extent 1), max 1 (t.extent 2))
  match t.ndim with
  | 1 => (l, 0, 0, 0)
  | 2 => (l % e0, l / e0, 0, 0)
  | 3 => (l % e0, l / e0 % e1, l / (e0 * e1), 0)
  | _ => (l % e0, l / e0 % e1, l / (e0 * e1) % e2, l / (e0 * e1 * e2))

/-- The group size (R201). -/
def group (t : Desc) : Nat := match t.grp with | 1 => 32 | 2 => 64 | 3 => 128 | _ => 1

/-- Groups per line along a contraction dimension (R54). -/
def groups (t : Desc) (kdim : Nat) : Nat := ceilDiv (t.gshape kdim) t.group

/-- The line of global coordinates over the used dimensions other than the contraction dimension (R54). -/
def lineOf (t : Desc) (kdim : Nat) (x : Nat → Nat) : Nat :=
  ((upto 4).filter (fun d => decide (d < t.ndim) && d ≠ kdim)).reverse.foldl (fun l d => l * t.gshape d + x d) 0

/-- The scale base of R201. -/
def scaleBase (t : Desc) : Nat := 0x2000000000000000 + t.aux

/-- The zero-point base of R201, none when zpo is 0. -/
def zeroBase (t : Desc) : Option Nat :=
  if t.zpo = 0 then none else some (wordI (t.scaleBase + 64 * t.zpo)).toNat

end Desc

/-- The descriptor of a loaded slot (R200). -/
def Core.slot (k : Core) (t : Nat) : Option Desc := tfind k.tens t

/-! ## Reads and writes of elements by a thread's cell or by an engine -/

/-- A fault met by an access: cause and address. -/
abbrev Flt := Cause × Word

/-- Read n bytes at an address for slot t of core c, through a translation unit: at home, with the bytes of the core's
own write set when `merge` (MTILE, MST; 10 R285), without for an engine (08 R229). -/
def State.fetchBytes (s : State) (c t u : Nat) (merge : Bool) (a : Word) (n : Nat) : State × Except Flt Nat :=
  match s.placeNow c u a n 1 with
  | (s, .trap e fa) => (s, .error (e, fa))
  | (s, .miss _ _) => (s, .error (.page, a))
  | (s, .own off) => if (s.core c).lsBad off n then (s, .error (.ue, a)) else (s, .ok (mread (s.core c).ls off n))
  | (s, .high off) => (s.modCore c (fun k => k.spoiled t off false), .ok 0)
  | (s, .far d) =>
    let (v, bad) := s.homeRead d n
    if bad then (s, .error (.ue, a)) else (s, .ok (if merge then (s.core c).merged d v n else v))

/-- A read of the element at indices, clamped, is held (R265). -/
def State.elemHeld (s : State) (c : Nat) (ds : Desc) (x : Nat × Nat × Nat × Nat) : Bool :=
  !ds.empty && s.heldAt c (ds.clamped x)

/-- An element of bits from its bytes: the nibble of a 4-bit format. -/
def Desc.part (t : Desc) (i0 v : Nat) : Nat := if t.bitsOf = 4 then v / 16 ^ (i0 % 2) % 16 else v

/-- Read an element at local indices, clamped; an empty tensor reads zero with no access (R203). -/
def State.readElem (s : State) (c t u : Nat) (merge : Bool) (ds : Desc) (i0 i1 i2 i3 : Nat) : State × Except Flt Nat :=
  if ds.empty then (s, .ok 0)
  else
    let i0 := ds.clampTo 0 i0
    match s.fetchBytes c t u merge (ds.addr i0 (ds.clampTo 1 i1) (ds.clampTo 2 i2) (ds.clampTo 3 i3)) ds.bytesOf with
    | (s, .ok v) => (s, .ok (ds.part i0 v))
    | r => r

/-- Read a list of elements in order, up to the first fault. -/
def State.readElems (s : State) (c t u : Nat) (ds : Desc) : List (Nat × Nat) → State × Except Flt (List Nat)
  | [] => (s, .ok [])
  | (i0, i1) :: r =>
    match s.readElem c t u true ds i0 i1 0 0 with
    | (s, .error e) => (s, .error e)
    | (s, .ok v) =>
      match s.readElems c t u ds r with
      | (s, .ok l) => (s, .ok (v :: l))
      | e => e

/-- The scale (FP16 or block exponent) and zero point of a group of a line (R54, R55). -/
def State.groupParams (s : State) (c t u : Nat) (ds : Desc) (kdim line g : Nat) : State × Except Flt (Nat × Int) :=
  let i := line * ds.groups kdim + g
  if blockCode ds.fmt then
    match s.fetchBytes c t u true (wordN (ds.scaleBase + i)) 1 with
    | (s, .ok v) => (s, .ok (v, 0))
    | (s, .error e) => (s, .error e)
  else
    match s.fetchBytes c t u true (wordN (ds.scaleBase + 2 * i)) 2 with
    | (s, .error e) => (s, .error e)
    | (s, .ok sc) =>
      match ds.zeroBase with
      | none => (s, .ok (sc, 0))
      | some zb =>
        let nib := ds.bitsOf = 4
        match s.fetchBytes c t u true (wordN (zb + (if nib then i / 2 else i))) 1 with
        | (s, .error e) => (s, .error e)
        | (s, .ok z) => (s, .ok (sc, if nib then sx (z / 16 ^ (i % 2)) 4 else sx z 8))

/-- The parameters of several lines. -/
def State.linesParams (s : State) (c t u : Nat) (ds : Desc) (kdim g : Nat) : List Nat → State × Except Flt (List (Nat × Int))
  | [] => (s, .ok [])
  | line :: r =>
    match s.groupParams c t u ds kdim line g with
    | (s, .error e) => (s, .error e)
    | (s, .ok p) =>
      match s.linesParams c t u ds kdim g r with
      | (s, .ok l) => (s, .ok (p :: l))
      | e => e

end Sys2Proof.Machine
end

