-- ==== Sys2Proof/Machine/Record.lean ====
section
/-! DEFINITION. Recording a tape: entries, references to the patch block, the append buffer and its housekeeping step
(08 R256 to R258); TREC, TGUARD, TEND (R256, R259 to R261). -/

namespace Sys2Proof.Machine

/-- An entry of a tape: its low doubleword and val (R258). -/
abbrev TEntry := Word × Word

/-- Lowest patch slot an operand refers to (R257). -/
def patchRef (patch : List Word) (v : Word) : Option Nat :=
  (upto patch.length).find? (fun i => decide (patch.getD i 0 ≠ 0) && decide (patch.getD i 0 ≤ v) &&
    decide ((v - patch.getD i 0).toNat < 2 ^ 24))

/-- An operand entry (R257, R258). -/
def operandEntry (patch : List Word) (pos : Nat) (v : Word) : TEntry :=
  match patchRef patch v with
  | some i => (wordN (pos * 2 ^ 46 + 2 ^ 45 + i * 2 ^ 40 + 2 * 2 ^ 32), v - patch.getD i 0)
  | none => (wordN (pos * 2 ^ 46 + 2 * 2 ^ 32), v)

/-- A command entry, a guard entry, a version entry. -/
def commandEntry (w : BitVec 32) : TEntry := (wordN (2 ^ 32 + w.toNat), 0)
def guardEntry (pslot : Nat) (v : Word) : TEntry := (wordN (pslot * 2 ^ 40 + 3 * 2 ^ 32), v)
def versionEntry (v : Nat) : TEntry := (wordN (4 * 2 ^ 32), wordN v)

/-- Fields of an entry's low doubleword (R258). -/
def entKind (e : TEntry) : Nat := wbits e.1 35 32
def entPslot (e : TEntry) : Nat := wbits e.1 44 40
def entP (e : TEntry) : Bool := wbit e.1 45
def entPos (e : TEntry) : Nat := wbits e.1 48 46

/-- Append one entry; beyond the capacity it is refused (R256). -/
def Tape.add (t : Tape) (e : TEntry) : Tape :=
  if t.written + t.buf.length < t.cap then
    { t with
      buf := t.buf ++ [e],
      npatch := if (entKind e = 2 && entP e) || entKind e = 3 then max t.npatch (entPslot e + 1) else t.npatch,
      nguard := if entKind e = 3 then t.nguard + 1 else t.nguard }
  else t

/-- The append buffer of eight has room for n more entries that the tape will take. -/
def Tape.room (t : Tape) (n : Nat) : Bool := decide (t.buf.length + min n (t.cap - t.written - t.buf.length) ≤ 8)

/-- A tape records and its buffer is full for n entries: the instruction or the sequencer waits. -/
def Core.tapeFull (k : Core) (n : Nat) : Bool := match k.tape with | some t => !t.room n | none => false

/-- Append entries when a tape records. -/
def Core.record (k : Core) (f : (patch : List Word) → List TEntry) : Core :=
  match k.tape with | some t => { k with tape := some ((f t.patch).foldl Tape.add t) } | none => k

/-- The recording in which a thread's instruction was issued (R256, R261). -/
def Core.tapeFor (k : Core) (t : Nat) : Option Nat := if (k.thr t).opnd.isSome then (k.thr t).tape else k.tape.map (·.id)

/-- What thread t's instruction is to append goes to the tape that records now. -/
def Core.tapes (k : Core) (t : Nat) : Bool := match k.tape with | some x => k.tapeFor t = some x.id | none => false

/-- A wait whose instruction has still to append its entries: a TLD or a TGUARD. -/
def Wait.appends : Wait → Bool
  | .tld .. => true
  | .retry (.tld ..) => true
  | .retry (.tguard ..) => true
  | .walk (some (.tld ..)) _ _ => true
  | _ => false

/-- A thread other than t waits with entries for a recording. -/
def Core.tapePending (k : Core) (t id : Nat) : Bool :=
  k.threads.any (fun e => decide (e.1 ≠ t) && e.2.st = .waiting && e.2.tape = some id && e.2.wait.appends)

/-- TAPE_APPEND (R256): the oldest entry in the buffer is written; with the k-th the tape is marked OVF; those that wait for
the buffer go on. -/
def execTapeAppend (c : Nat) (s : State) : Out :=
  .next (match (s.core c).tape with
    | some t =>
      match t.buf with
      | e :: r =>
        let a := t.area + 64 + 16 * t.written
        let s := s.modCore c (fun k =>
          { (k.lsWrite a (e.1.toNat + e.2.toNat * 2 ^ 64) (2 ^ 16 - 1) 16) with
            tape := some { t with buf := r, written := t.written + 1, ovf := decide (t.cap ≤ t.written + 1) } })
        ((s.notify (.ls c a) 16).wake c).kickSeq c
      | [] => s
    | none => s)

/-- Eight-byte words of the own local store. -/
def Core.dwords (k : Core) (off n : Nat) : List Word := (upto n).map (fun i => wordN (mread k.ls (off + 8 * i) 8))

/-- TREC (R256, R257): the patch block is read here, once (log 90). -/
def execTrec (c a b : Reg) (s : State) : Out :=
  let area := s.readReg a
  let k := wbits (s.readReg b) 16 0
  let p := s.readReg c
  .next (if s.me.tape.isSome ∨ k = 0 ∨ 65536 < k then s.trap .illegal
    else if area.toNat % 64 ≠ 0 then s.trap .align area
    else if p.toNat % 8 ≠ 0 then s.trap .align p
    else if 0x6000 < area.toNat + 64 + 16 * k then s.trap .prot area
    else if 0x6000 < p.toNat + 256 then s.trap .prot p
    else if s.me.scbHit p.toNat 256 then s.block (.trec c a b)
    else if s.me.lsBad p.toNat 256 then s.trap .ue p
    else (s.modMe (fun x => { x with
      tape := some { area := area.toNat, cap := k, patch := x.dwords p.toNat 32, id := x.nextId }, nextId := x.nextId + 1 })).retire)

def execTguard (a b : Reg) (s : State) : Out :=
  .next (if s.me.tapeFor s.cur.2 = none then s.trap .illegal
    else if !s.me.tapes s.cur.2 then s.retire
    else if s.me.tapeFull 1 then s.block (.tguard a b)
    else (s.modMe (fun k => k.record (fun _ => [guardEntry (wbits (s.readReg b) 4 0) (s.readReg a)]))).retire)

/-- One step of the CRC-32 of IEEE 802.3, reflected (R259). -/
def crcBit (c : Nat) : Nat → Nat
  | 0 => c
  | n + 1 => crcBit (if c % 2 = 1 then (c / 2) ^^^ 0xEDB88320 else c / 2) n

/-- The CRC-32 of bytes in ascending order. -/
def crc32 (bs : List Byte) : Nat := (bs.foldl (fun c b => crcBit (c ^^^ b.toNat) 8) 0xFFFFFFFF) ^^^ 0xFFFFFFFF

/-- The header TEND writes (R259). -/
def tapeHeader (t : Tape) (crc : Nat) : List Byte :=
  [0x54, 0x41, 0x50, 0x45] ++ bytesLE 1 2 ++ bytesLE (b2n t.ovf) 2 ++ bytesLE t.written 4 ++ bytesLE crc 4 ++
    bytesLE t.npatch 1 ++ bytesLE 0 3 ++ bytesLE t.nguard 4 ++ bytesLE 0 40

/-- A tape instruction of a kind waits (R261: TENDs are served in issue order). -/
def isTend : Instr → Bool | .tend _ => true | _ => false

/-- The status of a recording that has ended is kept while a thread may ask for it. -/
def Core.endTape (k : Core) (id : Nat) (v : Word) : Core :=
  { k with tape := none, lastTape := tset (k.lastTape.filter (fun e => k.threads.any (fun h => h.2.tape = some e.1))) id v }

/-- TEND (R259, R261): it ends the recording it was issued in, once every entry of it is written, those of TLDs and TGUARDs that
still wait included. -/
def execTend (d : Reg) (s : State) : Out :=
  .next (match s.me.tapeFor s.cur.2 with
    | none => s.trap .illegal
    | some id =>
      match s.me.tape.filter (fun t => t.id = id) with
      | none => s.retireWith d (tget 0 s.me.lastTape id)
      | some t =>
        if t.buf ≠ [] ∨ s.me.ahead s.cur.2 isTend ∨ s.me.scbHit t.area (64 + 16 * t.written) then s.block (.tend d)
        else if s.me.tapePending s.cur.2 id then (s.block (.tend d)).push1 (.resume s.cur.1 s.cur.2) (s.cyc + 1)
        else
          let hdr := tapeHeader t (crc32 (mreadBytes s.me.ls (t.area + 64) (16 * t.written)))
          let v := wordN (t.written + b2n t.ovf * 2 ^ 32)
          let s := s.modMe (fun k => (k.lsWrite t.area (ofBytesLE hdr) (2 ^ 64 - 1) 64).endTape id v)
          (((s.notify (.ls s.cur.1 t.area) 64).retireWith d v).wake s.cur.1).kickSeq s.cur.1)

end Sys2Proof.Machine
end

