-- ==== Sys2Proof/Machine/Pattern.lean ====
section
/-! DEFINITION. Pattern programs (08 R244 to R247) and the index generators (R248 to R252, 11 R316). -/

namespace Sys2Proof.Machine

/-! ## The static check (R246) -/

/-- Code and operand of an operation (R245). -/
def opCode (w : Nat) : Nat := bits w 15 12
def opArg (w : Nat) : Nat := bits w 11 0

/-- The position after n operations at one level: a LOOPP with its body is one. -/
def skipOps (ops : List Nat) (pos : Nat) : Nat → Nat
  | 0 => pos
  | n + 1 =>
    let w := ops.getD pos 0
    skipOps ops (if opCode w = 8 then pos + 1 + bits w 11 6 else pos + 1) n

/-- An operation that is malformed by itself. -/
def opBad (w : Nat) : Bool :=
  match opCode w with
  | 5 => decide (bits w 11 6 + 1 ≤ bits w 5 0)
  | 7 => bits w 11 8 = 0
  | 8 => bits w 11 6 = 0
  | 10 => opArg w ≠ 0
  | 11 => opArg w ≠ 0
  | n => decide (12 ≤ n)

/-- Scan from an operation, the ends of the enclosing loop bodies innermost first: the position of the ENDP that ends
the program and the farthest skip made outside loops, or none for a malformed program. -/
def patScan (ops : List Nat) : (fuel : Nat) → (pos : Nat) → (ends : List Nat) → (far : Nat) → Option Nat
  | 0, _, _, _ => none
  | n + 1, pos, ends, far =>
    let ends := ends.filter (fun e => decide (pos < e))
    if 64 ≤ pos then none
    else
      let w := ops.getD pos 0
      if opBad w then none
      else
        match opCode w with
        | 11 => if ends = [] then (if far ≤ pos then some pos else none) else patScan ops n (pos + 1) ends far
        | 7 =>
          let to' := skipOps ops (pos + 1) (bits w 11 8)
          match ends with
          | [] => patScan ops n (pos + 1) ends (max far to')
          | e :: _ => if e < to' then none else patScan ops n (pos + 1) ends far
        | 8 =>
          let e := pos + 1 + bits w 11 6
          if 4 ≤ ends.length then none
          else match ends with
            | [] => patScan ops n (pos + 1) [e] far
            | o :: _ => if o < e then none else patScan ops n (pos + 1) (e :: ends) far
        | _ => patScan ops n (pos + 1) ends far

/-- The program cut at its ENDP, none for PATFAULT at the static check. -/
def patCheck (ops : List Nat) : Option (List Nat) :=
  match patScan ops 65 0 [] 0 with | some p => some (ops.take (p + 1)) | none => none

/-- A transposed start of the program raises PATINV (R247). -/
def patInv (ops : List Nat) (rows cols : Nat) : Bool :=
  let hashes := ops.filter (fun w => opCode w = 4)
  hashes ≠ [] &&
    !(hashes.all (fun w => bits w 11 9 = 0) && cols = rows && decide (cols = 2 ^ Nat.log2 cols) &&
      ops.all (fun w => decide (opCode w ≠ 3) && decide (opCode w ≠ 9) && decide (opCode w ≠ 8)))

/-! ## Runs (R244 to R246) -/

/-- A stack entry of a run: a pushed c0, or a LOOPP with its body, passes left and c0 at its start. -/
inductive PStack where
  | push (c0 : Int)
  | loop (start stop left : Nat) (c0 : Int)
  deriving DecidableEq, Repr

/-- A run in progress. -/
structure PRun where
  pos : Nat := 0
  rho : Nat
  c0 : Int := 0
  d : Int := 1
  krons : List Nat := []
  stack : List PStack := []
  done : Nat := 0
  /-- Columns kept, newest first. -/
  out : List Nat := []
  deriving DecidableEq, Repr

/-- A column under the KRONs in force, earliest first. -/
def kronAll (c : Int) : List Nat → List Int
  | [] => [c]
  | q :: r => (upto q).flatMap (fun (j : Nat) => kronAll (c * q + (j : Int)) r)

/-- Emit columns: those outside the pattern are dropped, the kept must rise (R246). -/
def PRun.keep (x : PRun) (cols : Nat) : List Int → Option PRun
  | [] => some x
  | c :: r =>
    if c < 0 ∨ (cols : Int) ≤ c then x.keep cols r
    else
      match x.out with
      | l :: _ => if c.toNat ≤ l then none else { x with out := c.toNat :: x.out }.keep cols r
      | [] => { x with out := [c.toNat] }.keep cols r

/-- Emit a list of columns before the KRONs. -/
def PRun.emit (x : PRun) (cols : Nat) (l : List Int) : Option PRun :=
  x.keep cols (l.flatMap (fun c => kronAll c x.krons))

/-- Insert in a rising list without repeats. -/
def insertInt (x : Nat) : List Nat → List Nat
  | [] => [x]
  | y :: t => if x < y then x :: y :: t else if x = y then y :: t else y :: insertInt x t

/-- The hash columns of a row, distinct and ascending (R245). -/
def hashCols (k s rho cols : Nat) : List Nat :=
  (upto k).foldl (fun l j => insertInt ((0x9E3779B1 * (rho + 65536 * j) + s) % 2 ^ 32 % cols) l) []

/-- The innermost loop whose body ends at a position, with the entries above it. -/
def loopEnding (pos : Nat) : List PStack → Option (List PStack × PStack × List PStack)
  | [] => none
  | .push c :: r => match loopEnding pos r with | some (a, e, b) => some (.push c :: a, e, b) | none => none
  | .loop st sp l c :: r => if sp = pos then some ([], .loop st sp l c, r) else none

/-- What a step of a run leads to. -/
inductive PStep where
  | go (x : PRun)
  | stop (x : PRun)
  | bad
  deriving DecidableEq, Repr

/-- One operation. -/
def PRun.op (x : PRun) (ops : List Nat) (cols : Nat) : PStep :=
  let w := ops.getD x.pos 0xB000
  let y := { x with pos := x.pos + 1, done := x.done + 1 }
  let em := fun l => match y.emit cols l with | some z => PStep.go z | none => .bad
  match opCode w with
  | 0 => em ((upto (bits w 5 0 + 1)).map (fun (j : Nat) => x.c0 + x.rho + x.d * (sx (bits w 11 6) 6 + (j : Int))))
  | 1 => .go { y with d := (opArg w + 1 : Nat) }
  | 2 => let b := opArg w + 1; em ((upto b).map (fun (j : Nat) => x.c0 + ((x.rho / b * b : Nat) : Int) + (j : Int)))
  | 3 => .go { y with rho := x.rho / (bits w 11 6 + 1), krons := x.krons ++ [bits w 5 0 + 1] }
  | 4 => em ((hashCols (bits w 11 9 + 1) (bits w 8 0) x.rho cols).map (fun (h : Nat) => x.c0 + (h : Int)))
  | 5 => if x.rho % (bits w 11 6 + 1) ≠ bits w 5 0 then .stop y else .go y
  | 6 => em [x.c0 + (opArg w : Int)]
  | 7 => .go (if x.rho < bits w 7 0 then { y with pos := skipOps ops y.pos (bits w 11 8) } else y)
  | 8 =>
    if 4 ≤ x.stack.length then .bad
    else .go { y with stack := .loop y.pos (y.pos + bits w 11 6) (bits w 5 0 + 1) x.c0 :: x.stack }
  | 9 =>
    if 4 ≤ x.stack.length then .bad
    else .go { y with stack := .push x.c0 :: x.stack, c0 := x.c0 + sx (opArg w) 12 }
  | 10 => match x.stack with | .push c :: r => .go { y with c0 := c, stack := r } | _ => .bad
  | _ => .stop y

/-- The end of a loop's pass. -/
def PRun.pass (x : PRun) : Option PRun :=
  match loopEnding x.pos x.stack with
  | some (a, .loop st sp l c, b) =>
    some (if l ≤ 1 then { x with c0 := c, stack := a ++ b }
      else { x with c0 := x.c0 + x.d, pos := st, stack := a ++ .loop st sp (l - 1) c :: b })
  | _ => none

/-- A run to its end: the kept columns ascending, none for PATFAULT. -/
def PRun.go (ops : List Nat) (cols : Nat) : (fuel : Nat) → PRun → Option (List Nat)
  | 0, _ => none
  | n + 1, x =>
    match x.pass with
    | some y => PRun.go ops cols n y
    | none =>
      if 2 ^ 20 < x.done + 1 then none
      else match x.op ops cols with
        | .bad => none
        | .go y => PRun.go ops cols n y
        | .stop y =>
          if y.stack.any (fun e => match e with | .push _ => true | _ => false) then none else some y.out.reverse

/-- The columns of row r (R244). -/
def runRow (ops : List Nat) (cols r : Nat) : Option (List Nat) := PRun.go ops cols (6 * 2 ^ 20) { rho := r }

/-! ## Enumeration (R247, R249, R250) -/

/-- All rows' runs, none when one raises PATFAULT. -/
def runAll (ops : List Nat) (cols : Nat) : (rows : Nat) → Option (List (List Nat))
  | 0 => some []
  | n + 1 =>
    match runAll ops cols n, runRow ops cols n with
    | some l, some x => some (l ++ [x])
    | _, _ => none

/-- Rows whose run holds a column. -/
def rowsWith (all : List (List Nat)) (c : Nat) : List Nat := (upto all.length).filter (fun r => (all.getD r []).contains c)

/-- Draw up to n coordinates (i1, i0) forward, over the rows left up to rend, beyond R too where PGLOAD has set it so (R251; log
100). -/
def Gen.drawFwd (g : Gen) : (rows n : Nat) → Option (List (Nat × Nat) × Gen)
  | _, 0 => some ([], g)
  | 0, _ => some ([], g)
  | k + 1, n =>
    if g.rend ≤ g.row then some ([], g)
    else
      match runRow g.ops g.cols g.row with
      | none => none
      | some l =>
        let here := (l.drop g.done).take n
        if n ≤ here.length then some (here.map (fun c => (g.row, c)), { g with done := g.done + here.length })
        else
          match Gen.drawFwd { g with row := g.row + 1, done := 0 } k (n - here.length) with
          | some (r, g') => some (here.map (fun c => (g.row, c)) ++ r, g')
          | none => none

/-- Draw up to n coordinates (i1, i0) transposed, over the columns left. -/
def Gen.drawTr (g : Gen) (all : List (List Nat)) : (cols n : Nat) → List (Nat × Nat) × Gen
  | _, 0 => ([], g)
  | 0, _ => ([], g)
  | k + 1, n =>
    if g.rend ≤ g.row then ([], g)
    else
      let here := ((rowsWith all g.row).drop g.done).take n
      if n ≤ here.length then (here.map (fun r => (g.row, r)), { g with done := g.done + here.length })
      else
        let (l, g') := Gen.drawTr { g with row := g.row + 1, done := 0 } all k (n - here.length)
        (here.map (fun r => (g.row, r)) ++ l, g')

/-- Take the next n coordinates: none for PATFAULT; a generator not started, or exhausted, yields fewer (R249 to R251). -/
def Gen.draw (g : Gen) (n : Nat) : Option (List (Nat × Nat) × Gen) :=
  if !g.v || n = 0 then some ([], g)
  else if g.t then
    match runAll g.ops g.cols g.rows with
    | none => none
    | some all => some (g.drawTr all (g.rend - g.row + 1) n)
  else g.drawFwd (g.rend - g.row + 1) n

/-- A generator of the core. -/
def Core.gen (k : Core) (g : Nat) : Gen := if g = 0 then k.gen0 else k.gen1
def Core.setGen (k : Core) (g : Nat) (x : Gen) : Core := if g = 0 then { k with gen0 := x } else { k with gen1 := x }

/-! ## Reading a program (R248) -/

/-- Read the halfwords of a program from address a, each a value or a fault. -/
def State.readOps (s : State) (c t : Nat) (a : Nat) : Nat → State × List (Except Flt Nat)
  | 0 => (s, [])
  | n + 1 =>
    let (s, v) := s.fetchBytes c t (stationUnit c) false (wordN (0x2000000000000000 + a)) 2
    let (s, l) := s.readOps c t (a + 2) n
    (s, v :: l)

/-- The program of an address: a fault of a read that the check needs, PATFAULT, or the operations. -/
def State.readProgram (s : State) (c t prog : Nat) : State × Except Flt (List Nat) :=
  let (s', l) := s.readOps c t prog 64
  let vals := (l.takeWhile (fun x => match x with | .ok _ => true | _ => false)).map
    (fun x => match x with | .ok v => v | _ => 0)
  let pa : Word := wordN (0x2000000000000000 + prog)
  match patCheck (vals ++ [0xC000]) with
  | some ops => (s', .ok ops)
  | none =>
    -- a read that faults is raised when every operation before it is well formed
    match l.find? (fun x => match x with | .error _ => true | _ => false) with
    | some (.error e) => 
        if (patScan (vals ++ List.replicate (63 - vals.length) 0 ++ [0xB000]) 65 0 [] 0).isSome then (s', .error e)
        else (s', .error (.patfault, pa))
    | _ => (s', .error (.patfault, pa))

/-- A start on terms of R246 and R247: the program, or the trap it raises. -/
def State.startProgram (s : State) (c t prog rows cols : Nat) (tr : Bool) : State × Except Flt (List Nat) :=
  match s.readProgram c t prog with
  | (s, .ok ops) => if tr && patInv ops rows cols then (s, .error (.patinv, wordN (0x2000000000000000 + prog))) else (s, .ok ops)
  | r => r

/-! ## The generator instructions -/

/-- PGSTART (R248): the end of the rows named is clipped to R or W, not their count (log 88). -/
def execPgstart (a b : Reg) (t : Reg) (g : BitVec 1) (s : State) : Out :=
  .next (match s.me.slot t.toNat with
    | none => s.trap .illegal
    | some ds =>
      if !ds.pat then s.trap .illegal
      else
        let tr := wbit (s.readReg b) 0
        let (rows, cols) := (ds.extent 1, ds.extent 0)
        let (row, count) := (wbits (s.readReg a) 31 0, wbits (s.readReg a) 63 32)
        match s.startProgram s.cur.1 s.cur.2 ds.aux rows cols tr with
        | (s, .error (e, fa)) => s.trap e fa
        | (s, .ok ops) =>
          let x : Gen := { v := true, t := tr, prog := ds.aux, row := row,
                           rend := min (row + count) (if tr then cols else rows),
                           rows := rows, cols := cols, ops := ops }
          (s.modMe (fun k => k.setGen g.toNat x)).replied [])

/-- The address a PATFAULT names: the program's (18 R390). -/
def Gen.at' (g : Gen) : Word := wordN (0x2000000000000000 + g.prog)

/-- The bytes of doublewords, as a number. -/
def packWords (l : List Word) : Nat := ofBytesLE (l.flatMap (fun w => bytesLE w.toNat 8))

/-- The entries of a batch (R249): i0 in bits 31 to 0, i1 in bits 63 to 32. -/
def batchWords (l : List (Nat × Nat)) : List Word := l.map (fun p => wordN (p.2 % 2 ^ 32 + p.1 % 2 ^ 32 * 2 ^ 32))

/-- Take the next batch of a generator, once for an instruction, when it issues (R249, R316): its entries, none for PATFAULT. -/
def State.pgTake (s : State) (g : Nat) : Option (List Word × State) :=
  match s.th.took with
  | some ws => some (ws, s)
  | none => match (s.me.gen g).draw 8 with
    | none => none
    | some (l, x) => some (batchWords l, s.modMe (fun k => k.setGen g x))

/-- PGNEXT (R249): the batch is taken at issue (R250, R316); the write waits for the scoreboard (R269). -/
def execPgnext (d a : Reg) (g : BitVec 1) (s : State) : Out :=
  let off := s.readReg a
  .next (match offsetFault off 8 64 with
    | some e => s.trap e off
    | none =>
      match s.pgTake g.toNat with
      | none => s.trap .patfault (s.me.gen g.toNat).at'
      | some (ws, s) =>
        if ws ≠ [] && s.me.scbHit off.toNat (8 * ws.length) then s.blockTook (.pgnext d a g) ws
        else (if ws = [] then s else s.ownWrite off.toNat (packWords ws) (8 * ws.length)).retireWith d (wordN ws.length))

/-- The context of R251, as four doublewords. -/
def Gen.words (g : Gen) : List Word :=
  [wordN (b2n g.v * 2 ^ 49 + b2n g.t * 2 ^ 48 + g.prog), wordN (g.rend * 2 ^ 32 + g.row), wordN g.done,
   wordN (g.rows * 2 ^ 32 + g.cols)]

/-- PGSAVE (R251): the position is that of the issue (R316); the write waits for the scoreboard (R269). -/
def execPgsave (a : Reg) (g : BitVec 1) (s : State) : Out :=
  let off := s.readReg a
  .next (match offsetFault off 64 64 with
    | some e => s.trap e off
    | none =>
      let ws := s.th.took.getD (s.me.gen g.toNat).words
      if s.me.scbHit off.toNat 64 then s.blockTook (.pgsave a g) ws
      else (s.ownWrite off.toNat (packWords ws) 64).retire)

def execPgload (a : Reg) (g : BitVec 1) (s : State) : Out :=
  let off := s.readReg a
  .next (match offsetFault off 64 64 with
    | some e => s.trap e off
    | none =>
      if s.me.scbHit off.toNat 64 then s.block (.pgload a g)
      else if s.me.lsBad off.toNat 64 then s.trap .ue off
      else
        let w := s.me.dwords off.toNat 8
        let x : Gen := { v := wbit (w.getD 0 0) 49, t := wbit (w.getD 0 0) 48, prog := wbits (w.getD 0 0) 47 0,
                         rend := wbits (w.getD 1 0) 63 32, row := wbits (w.getD 1 0) 31 0, done := wbits (w.getD 2 0) 31 0,
                         rows := wbits (w.getD 3 0) 63 32, cols := wbits (w.getD 3 0) 31 0 }
        if wbits (w.getD 0 0) 63 50 ≠ 0 ∨ wbits (w.getD 2 0) 63 32 ≠ 0 ∨ (w.drop 4).any (fun v => v ≠ 0) ∨
            (x.v ∧ (x.rows = 0 ∨ x.cols = 0)) then s.trap .illegal
        else if !x.v then (s.modMe (fun k => k.setGen g.toNat x)).replied []
        else
          match s.startProgram s.cur.1 s.cur.2 x.prog x.rows x.cols x.t with
          | (s, .error (e, fa)) => s.trap e fa
          | (s, .ok ops) => (s.modMe (fun k => k.setGen g.toNat { x with ops := ops })).replied [])

/-- PGINV (R252): PATFAULT when the run of any row faults, whatever the column (log 99). -/
def execPginv (d a : Reg) (t : Reg) (s : State) : Out :=
  .next (match s.me.slot t.toNat with
    | none => s.trap .illegal
    | some ds =>
      if !ds.pat then s.trap .illegal
      else
        let (rows, cols, col) := (ds.extent 1, ds.extent 0, (s.readReg a).toNat)
        match s.startProgram s.cur.1 s.cur.2 ds.aux rows cols true with
        | (s, .error (e, fa)) => s.trap e fa
        | (s, .ok ops) =>
          match runAll ops cols rows with
          | none => s.trap .patfault (wordN (0x2000000000000000 + ds.aux))
          | some all => s.replied [(d, wordN (rowsWith all col).length)])

end Sys2Proof.Machine
end

