-- ==== Sys2Proof/Machine/Tensor.lean ====
section
/-! DEFINITION. The tensor table (07 R200, R204), geometry (R205, R206), and the cell under one thread: MZERO, MLATCH,
MTILE with its k-steps, MST (R207 to R210, 11 R317). -/

namespace Sys2Proof.Machine

/-! ## TLD, TST, TSETF -/

/-- The eight doublewords of 64 bytes. -/
def unpackWords (v : Nat) : Desc := (upto 8).map (fun i => wordN (v / 2 ^ (64 * i)))

/-- A TLD has its bytes: it checks and installs the descriptor (R204), and is recorded on a tape (08 R256, R257). -/
def State.finishTld (s : State) (c t slot : Nat) (a : Word) (v : Nat) : State :=
  let ds := unpackWords v
  let k := s.core c
  if ds.illegal then s.trapOf c t .illegal 0
  else if k.tapes t && k.tapeFull 3 then s.modThr c t (fun h => h.await (.retry (.tld (BitVec.ofNat 4 ((k.thr t).iw.toNat / 2 ^ 18)) (BitVec.ofNat 4 slot))))
  else
    let k := if k.tapes t then k.record (fun p => [commandEntry (k.thr t).iw, operandEntry p 0 a, versionEntry ds.version]) else k
    s.setCore c (Core.modThr { k with tens := tset k.tens slot ds } t Thread.retire)

/-- The bytes of a 32-byte half of a descriptor that loads of its doublewords would be served in the phase buffer. -/
def Core.servedHalf (k : Core) (d : Dest) : Option Nat :=
  match k.served d 8, k.served (d.plus 8) 8, k.served (d.plus 16) 8, k.served (d.plus 24) 8 with
  | some a, some b, some c, some e => some (a + b * 2 ^ 64 + c * 2 ^ 128 + e * 2 ^ 192)
  | _, _, _, _ => none

/-- A half of a remote TLD: served, or a fetch sent. -/
def State.tldHalf (s : State) (d : Dest) : State × Option Nat × Nat :=
  match s.me.servedHalf d with
  | some v => (s, none, v)
  | none =>
    let (id, k) := s.me.fresh
    let f : Fetch := { id := id, dst := d, slot := s.cur.2, inc := s.th.inc }
    ((s.setCore s.cur.1 { k with fetches := k.fetches ++ [f] }).post (.sectorFetch s.cur.1 id), some id, 0)

/-- A remote TLD waits for its halves; one served with an uncorrectable doubleword raises UE, as a load of it does (R145). -/
def State.remoteTld (s : State) (slot : Nat) (a : Word) (d : Dest) : State :=
  if s.me.servedBad d 32 || s.me.servedBad (d.plus 32) 32 then s.trap .ue a
  else
    let (s, f0, v0) := s.tldHalf d
    let (s, f1, v1) := s.tldHalf (d.plus 32)
    let s := s.await (.tld slot a f0 f1 v0 v1)
    if f0 = none ∧ f1 = none then s.reply s.cur.1 s.cur.2 s.th.inc .ok else s

def execTld (a : Reg) (t : Reg) (s : State) : Out :=
  let ad := s.readReg a
  let (c, h) := s.cur
  .next (s.access (.tld a t) ad 64 1
    (fun off s => if s.me.lsBad off 64 then s.trap .ue ad else s.finishTld c h t.toNat ad (mread s.me.ls off 64))
    (fun _ s => s.finishTld c h t.toNat ad 0)
    (fun d s => s.remoteTld t.toNat ad d))

def execTst (a : Reg) (t : Reg) (s : State) : Out :=
  let ad := s.readReg a
  let v := packWords ((s.me.slot t.toNat).getD (List.replicate 8 0))
  .next (s.access (.tst a t) ad 64 2 (fun off s => (s.ownWrite off v 64).retire) (fun _ s => s.retire)
    (fun d s => s.enter [.far d (v % 2 ^ 256) 32, .far (d.plus 32) (v / 2 ^ 256) 32] 0 s.th.seed))

/-- TSETF (R200). The slot is seen changed by every instruction issued later, as after a TLD, with no delay (log 7). -/
def execTsetf (a b : Reg) (t : Reg) (s : State) : Out :=
  .next (match s.me.slot t.toNat with
    | none => s.trap .illegal
    | some ds =>
      let ds := putAt ds (wbits (s.readReg b) 2 0) (s.readReg a)
      if Desc.illegal ds then s.trap .illegal else (s.modMe (fun k => { k with tens := tset k.tens t.toNat ds })).retire)

/-! ## GEO, MZERO, MLATCH -/

/-- The derivation of R206. -/
def Core.geometry (k : Core) (a : Word) : Core :=
  let (m, n, tm, tn) := (wbits a 19 0, wbits a 39 20, wbits a 47 40, wbits a 55 48)
  let (gm, gn) := (k.cy * tm, k.cx * tn)
  let (vm, vn) := (min (m - gm) tm, min (n - gn) tn)
  { k with geo := wordN (wbits a 55 0), gsm := wordN gm, gsn := wordN gn,
           gmk := wordN (vm + vn * 2 ^ 16 + (if vm = 0 ∨ vn = 0 then 2 ^ 32 else 0)) }

def execGeo (a : Reg) (s : State) : Out :=
  .next (s.modMe (fun k =>
    let k' := (((k.remember s.cyc 0x18 k.geo).remember s.cyc 0x19 k.gsm).remember s.cyc 0x1A k.gsn).remember s.cyc 0x1B k.gmk
    k'.geometry (s.readReg a))).retire

/-- Clear the accumulators, the group count and the installed words (R207). -/
def Core.mzero (k : Core) : Core :=
  { k with ac := Vector.replicate 16 0, fa := Vector.replicate 16 0, sa := Vector.replicate 4 0, sb := Vector.replicate 4 0,
           gcount := 0, scaleA := 0, scaleB := 0, zpA := 0, zpB := 0 }

def execMzero (s : State) : Out := .next (if s.me.cellBusy then s.block .mzero else (s.modMe Core.mzero).retire)

/-- Index of a latch word. -/
def idxLatch (j : BitVec 2) : Fin 4 := ⟨j.toNat % 4, Nat.mod_lt _ (by decide)⟩

def execMlatch (a : Reg) (j : BitVec 2) (s : State) : Out :=
  .next (if s.me.cellBusy then s.block (.mlatch a j)
    else (s.modMe (fun k => { k with latch := k.latch.set (idxLatch j).val (s.readReg a) (idxLatch j).isLt })).retire)

/-! ## MTILE (R208, R209) -/

/-- The ILLEGAL conditions of MTILE. -/
def mtileIllegal (x y : Desc) (q : Nat) : Bool :=
  x.fmt ≠ y.fmt || !cellCode x.fmt || x.grp ≠ y.grp || (q ≠ 0 && !x.pat) || q = 3

def isMtile : Instr → Bool | .mtile .. => true | _ => false

/-- MTILE (R208, R209). One issued between a claim of its core and the freeze tick is started, and its k-steps run on in the
claimed and then frozen cell: R209 and R214 do not say (log 74). -/
def execMtile (u a b : Reg) (t : Reg) (q : BitVec 2) (s : State) : Out :=
  let (c, h) := s.cur
  .next (match s.me.slot t.toNat, s.me.slot u.toNat with
    | some x, some y =>
      if mtileIllegal x y q.toNat then s.trap .illegal
      else if s.me.mtile.isSome || s.me.ahead h isMtile then s.block (.mtile u a b t q)
      else
        let m : MTile := { slot := h, inc := s.th.inc, desA := x, desB := y, m0 := wbits (s.readReg a) 31 0,
                           n0 := wbits (s.readReg a) 63 32, k := wbits (s.readReg b) 31 0, q := q.toNat }
        ((s.modMe (fun k => { k with mtile := some m })).await .mtile).askLeave (dieOf c) c h s.th.inc (mtileLeave x.fmt)
    | _, _ => s.trap .illegal)

/-- What a k-step computes: the accumulators, the sums, the sticky conditions. -/
structure KStep where
  ac : Vector (BitVec 32) 16
  fa : Vector (BitVec 32) 16
  sa : Vector (BitVec 32) 4
  sb : Vector (BitVec 32) 4
  n : Nat
  st : Sticky := {}
  deriving DecidableEq, Repr

/-- Lane (i, j) as an index below 16. -/
def lane16 (i j : Nat) : Fin 16 := ⟨(4 * i + j) % 16, Nat.mod_lt _ (by decide)⟩
def lane4 (i : Nat) : Fin 4 := ⟨i % 4, Nat.mod_lt _ (by decide)⟩

/-- The products of one k for every lane of an r × r tile (R66). -/
def KStep.products (x : KStep) (fmt r : Nat) (as bs : List Nat) : KStep :=
  (upto (r * r)).foldl (fun y l =>
    let (i, j) := (l / r, l % r)
    let u := cellUpdate fmt (y.ac.get (lane16 i j)) [(as.getD i 0, bs.getD j 0)]
    { y with ac := y.ac.set (lane16 i j).val u.1 (lane16 i j).isLt, st := y.st.or u.2 }) x

/-- The side sums of a grouped or K format. -/
def KStep.sums (x : KStep) (fmt : Nat) (as bs : List Nat) : KStep :=
  let w := widthOf fmt
  let add := fun (v : Vector (BitVec 32) 4) (l : List Nat) =>
    (upto 4).foldl (fun (v : Vector (BitVec 32) 4) i =>
      v.set (lane4 i).val (BitVec.ofInt 32 ((v.get (lane4 i)).toInt + sx (l.getD i 0) w)) (lane4 i).isLt) v
  { x with sa := add x.sa as, sb := add x.sb bs, n := x.n + 1 }

/-- Close the open group of every lane (R68, R69), with a scale (or exponent) and zero point of each row and column. -/
def KStep.close (x : KStep) (fmt : Nat) (rows cols : List (Nat × Int)) : KStep :=
  let y := (upto 16).foldl (fun y l =>
    let (i, j) := (l / 4, l % 4)
    let (p, q) := (rows.getD i (0, 0), cols.getD j (0, 0))
    let (ac, fa) := (y.ac.get (lane16 i j), y.fa.get (lane16 i j))
    let u := if blockCode fmt then closeBlock ac fa p.1 q.1
             else closeGrouped ac fa (x.sa.get (lane4 i)) (x.sb.get (lane4 j)) x.n p.1 q.1 p.2 q.2
    { y with fa := y.fa.set (lane16 i j).val u.1 (lane16 i j).isLt, st := y.st.or u.2 }) x
  let y := { y with ac := Vector.replicate 16 0 }
  if blockCode fmt then y else { y with sa := Vector.replicate 4 0, sb := Vector.replicate 4 0, n := 0 }

/-- The cell's part of a core as a k-step sees it, and written back. -/
def Core.kstep (k : Core) : KStep := { ac := k.ac, fa := k.fa, sa := k.sa, sb := k.sb, n := k.gcount }
def Core.ofKstep (k : Core) (x : KStep) : Core := { k with ac := x.ac, fa := x.fa, sa := x.sa, sb := x.sb, gcount := x.n }

/-- The line of an operand at a row or column, clamped and taken to global coordinates (R54, R208). -/
def Desc.lineAt (d : Desc) (kdim other i : Nat) : Nat :=
  d.lineOf kdim (fun x => if x = other then d.global x (d.clampTo x i) else d.global x 0)

/-- MTILE commits a k-step: registers, flags and rowp; the last one completes it (R208). -/
def State.commitK (s : State) (c : Nat) (m : MTile) (x : KStep) (rowp : Nat) : State :=
  let fl : Flags5 := nvIf x.st.inv ||| (if x.st.ovf then fOF else 0)
  let s := s.modCore c (fun k =>
    (k.ofKstep x).modThr m.slot (fun h => { h with fxf := h.fxf ||| fl, rowp := wordN (rowp + 1) }))
  if m.k ≤ rowp + 1 then (s.modThr c m.slot (fun h => Thread.retire { h with rowp := 0 })).endMtile c
  else s.post (.kStep c) (s.cyc + 1)

/-- MTILE traps: nothing of the k-step is committed, leave goes back (R208, R302). -/
def State.faultK (s : State) (c : Nat) (m : MTile) (e : Flt) : State :=
  (s.trapOf c m.slot e.1 e.2).endMtile c

/-- The k of a k-step, and the generator after it: none for an exhausted generator (R317). -/
def Core.kOf (k : Core) (m : MTile) (rowp : Nat) : Except Flt (Option Nat × Core) :=
  if m.q = 0 then .ok (some rowp, k)
  else
    match (k.gen (m.q - 1)).draw 1 with
    | none => .error (.patfault, (k.gen (m.q - 1)).at')
    | some ([], _) => .ok (none, k)
    | some ((_, i0) :: _, g) => .ok (some i0, k.setGen (m.q - 1) g)

/-- The group close of a k-step, if it ends a group or the tile. Of each operand the group is that of the k-step's global
position along K (R54, R55; log 41). -/
def State.closeK (s : State) (c : Nat) (m : MTile) (rowp : Nat) (x : KStep) : State × Except Flt KStep :=
  let (da, db) : Desc × Desc := (m.desA, m.desB)
  let f := da.fmt
  if !(groupedCode f || blockCode f) then (s, .ok x)
  else if (rowp + 1) % da.group ≠ 0 ∧ rowp + 1 ≠ m.k then (s, .ok x)
  else
    match s.linesParams c m.slot (microUnit c 0) da 0 (da.global 0 rowp / da.group) ((upto 4).map (fun i => da.lineAt 0 1 (m.m0 + i))) with
    | (s, .error e) => (s, .error e)
    | (s, .ok rows) =>
      match s.linesParams c m.slot (microUnit c 1) db 1 (db.global 1 rowp / db.group) ((upto 4).map (fun j => db.lineAt 1 0 (m.n0 + j))) with
      | (s, .error e) => (s, .error e)
      | (s, .ok cols) => (s, .ok (x.close f rows cols))

/-- K_STEP (R208): one k-step of the MTILE in core c's cell. -/
def execKStep (c : Nat) (s : State) : Out :=
  .next (match (s.core c).mtile with
    | none => s
    | some m =>
      let h := s.thr c m.slot
      if !m.granted || h.wait ≠ .mtile || h.inc ≠ m.inc then s
      else if m.k ≤ h.rowp.toNat then
        (s.modThr c m.slot (fun h => Thread.retire { h with rowp := 0 })).endMtile c
      else
        let rowp := h.rowp.toNat
        let (da, db) : Desc × Desc := (m.desA, m.desB)
        match (s.core c).kOf m rowp with
        | .error e => s.faultK c m e
        | .ok (none, _) =>
          -- exhausted: nothing is read or added, and a group that ends here closes (R317; log 41)
          match s.closeK c m rowp (s.core c).kstep with
          | (s, .error e) => s.faultK c m e
          | (s, .ok x) => s.commitK c m x rowp
        | .ok (some k, core) =>
          let r := if da.fmt = 10 then 2 else 4
          let (la, lb) := ((upto r).map (fun i => (k, m.m0 + i)), (upto r).map (fun j => (m.n0 + j, k)))
          if la.any (fun x => s.elemHeld c da (x.1, x.2, 0, 0)) || lb.any (fun x => s.elemHeld c db (x.1, x.2, 0, 0)) then
            s.post (.kStep c) (s.cyc + 1)
          else
          match s.readElems c m.slot (microUnit c 0) da la with
          | (s, .error e) => s.faultK c m e
          | (s, .ok as) =>
            match s.readElems c m.slot (microUnit c 1) db lb with
            | (s, .error e) => s.faultK c m e
            | (s, .ok bs) =>
              let x := (s.core c).kstep.products da.fmt r as bs
              let x := if groupedCode da.fmt || blockCode da.fmt then x.sums da.fmt as bs else x
              match s.closeK c m rowp x with
              | (s, .error e) => s.faultK c m e
              | (s, .ok x) =>
                (s.modCore c (fun y => { y with gen0 := core.gen0, gen1 := core.gen1 })).commitK c m x rowp)

/-! ## MST (R210) -/

/-- An element of an MST: its lane's raw bits, and its place in C. -/
structure MstElem where
  lane : Nat
  row : Nat
  col : Nat
  deriving DecidableEq, Repr

/-- The elements of an MST in order. -/
def mstElems (a b : Word) : List MstElem :=
  let (vm, vn) := (min (wbits b 2 0) 4, min (wbits b 6 4) 4)
  (upto vm).flatMap (fun i => (upto vn).map (fun j =>
    { lane := 4 * i + j, row := wbits a 31 0 + i, col := wbits a 63 32 + j }))

/-- Where an MST writes, once every element has been checked: a fault, a translation to wait for, a scoreboard entry, or
the places in order (none for a dropped element). -/
inductive MstCheck where
  | trap (e : Flt)
  | miss (va acc : Nat)
  | held
  | ok (l : List (Option Place))
  deriving DecidableEq, Repr

/-- Check every element's access (R210). -/
def State.mstCheck (s : State) (ds : Desc) : List MstElem → MstCheck
  | [] => .ok []
  | e :: r =>
    if !ds.inside e.col e.row 0 0 then
      match s.mstCheck ds r with | .ok l => .ok (none :: l) | x => x
    else
      match s.place s.cur.1 (ds.addr e.col e.row 0 0) ds.bytesOf 2 with
      | .trap c fa => .trap (c, fa)
      | .miss va acc => .miss va acc
      | .own off =>
        if s.me.scbHit off ds.bytesOf then .held
        else match s.mstCheck ds r with | .ok l => .ok (some (.own off) :: l) | x => x
      | p => match s.mstCheck ds r with | .ok l => .ok (some p :: l) | x => x

/-- The scale and zero point of each element's group, for a grouped C. An element beyond C's extents has the group of the
clamped column and the line of the clamped row (log 81). -/
def State.mstParams (s : State) (ds : Desc) : List MstElem → State × Except Flt (List (Nat × Int))
  | [] => (s, .ok [])
  | e :: r =>
    let g := ds.global 0 (ds.clampTo 0 e.col) / ds.group
    match s.groupParams s.cur.1 s.cur.2 (stationUnit s.cur.1) ds 0 (ds.lineAt 0 1 e.row) g with
    | (s, .error f) => (s, .error f)
    | (s, .ok p) =>
      match s.mstParams ds r with
      | (s, .ok l) => (s, .ok (p :: l))
      | x => x

/-- Convert the elements in order (R60, R61, R64, R210). -/
def mstConvert (k : Core) (fmt : Nat) (b : Word) (rc : Rc) : List (MstElem × (Nat × Int)) → Rc × List Nat
  | [] => (rc, [])
  | (e, p) :: r =>
    let raw := (if wbit b 8 then k.fa.get (lane16 0 e.lane) else k.ac.get (lane16 0 e.lane)).toNat
    let src := if wbit b 8 || wbit b 9 then 10 else 4
    let x : Val := if src = 10 then fp32.val raw else valInt (sx raw 32)
    let (rc, v) :=
      if groupedCode fmt then rc.elem (fun m u => toGrouped (widthOf fmt) m u x p.1 p.2)
      else if convRounds src fmt then rc.elem (fun m u => convert src fmt m u raw)
      else (rc, (convert src fmt 0 0 raw).1)
    let (rc, l) := mstConvert k fmt b rc r
    (rc, v :: l)

/-- The access that writes an element of n bytes at its place; an element beyond an extent has none (R203). -/
def mstPiece (n : Nat) (e : Option Place × Nat) : Piece :=
  match e.1 with
  | some (.own off) => .own off e.2 n
  | some (.high off) => .high off
  | some (.far d) => .far d e.2 n
  | _ => .drop

/-- MST (R210). Of a grouped INT8 C every element's access is checked before a scale or zero point is read (log 84). -/
def execMst (a b : Reg) (t : Reg) (s : State) : Out :=
  .next (match s.me.slot t.toNat with
    | none => s.trap .illegal
    | some ds =>
      if ds.bitsOf = 4 || ds.bitsOf = 6 || blockCode ds.fmt then s.trap .illegal
      else
        let es := mstElems (s.readReg a) (s.readReg b)
        match s.mstCheck ds es with
        | .trap e => s.trap e.1 e.2
        | .miss va acc => s.awaitWalk (some (.mst a b t)) va acc
        | .held => s.block (.mst a b t)
        | .ok ps =>
          match if groupedCode ds.fmt then s.mstParams ds es else (s, .ok (es.map (fun _ => (0, 0)))) with
          | (s, .error e) => s.trap e.1 e.2
          | (s, .ok gs) =>
            let (rc, vs) := mstConvert s.me ds.fmt (s.readReg b) s.rc (es.zip gs)
            s.enter ((ps.zip vs).map (mstPiece ds.bytesOf)) rc.fl rc.seed)

end Sys2Proof.Machine
end

