-- ==== Sys2Proof/Machine/Homes.lean ====
section
/-! DEFINITION. What homes do and what replies bring: sector fetches and installs (10 R283), drains and acknowledgements
(R286), LDA, STREL, atomics, full-or-empty operations and WAITGE at home (05 R150 to R168), limits, order tokens (R153),
barrier episodes (R165), replies to threads (R142), and line write-back (10 R280). -/

namespace Sys2Proof.Machine

/-- A destination at another package (16 R373, R374). -/
def Dest.atPeer (d : Dest) : Bool :=
  match d with | .imp _ _ _ e => !e.host | _ => false

/-- Change the fetch of an identity. -/
def Core.modFetch (k : Core) (id : Nat) (g : Fetch → Fetch) : Core :=
  { k with fetches := k.fetches.map (fun f => if f.id = id then g f else f) }

/-- The fetch of an identity. -/
def Core.fetch (k : Core) (id : Nat) : Option Fetch := k.fetches.find? (fun f => f.id = id)

/-- Where the doublewords a thread's load of fetch f needs lie in the sector, as offset and length. -/
def Thread.needs (h : Thread) (f : Nat) : Nat × Nat :=
  match h.wait with | .load f' _ n _ off _ => if f' = f then (off, n) else (0, 32) | _ => (0, 32)

/-! ## Sector fetches -/

/-- The bytes of the doublewords that are correct, as a mask. -/
def goodBytes (bad : Nat) : Nat :=
  (upto 4).foldl (fun a i => if bits bad i i = 1 then a else a + 255 * 2 ^ (8 * i)) 0

/-- A sector has been read: what another fetch has read of it before, and not yet shown, is no older than that (R289; log 73). -/
def Core.reread (k : Core) (f : Fetch) (v bad : Nat) : Core :=
  { k with fetches := k.fetches.map (fun x =>
      if x.dst = f.dst && x.id ≠ f.id then
        { x with got := x.got.map (fun w => overlay w v (goodBytes bad) 32), bad := badLeft x.bad (goodBytes bad) }
      else x) }

/-- The bytes of fetch f have been read: the reply goes to the load. -/
def State.fetched (s : State) (c : Nat) (f : Fetch) (v bad : Nat) (loadUe : Bool) : State :=
  (s.modCore c (fun k => (k.reread f v bad).modFetch f.id
    (fun x => { x with got := some v, bad := bad, ue := loadUe, sentAt := none }))).reply c f.slot f.inc (.sector f.id v loadUe)

/-- The uncorrectable doublewords of a sector, as a mask. -/
def State.sectorUe (s : State) (d : Dest) : Nat :=
  (upto 4).foldl (fun a i => if (s.homeRead (d.plus (8 * i)) 8).2 then a + 2 ^ i else a) 0

/-- SECTOR_FETCH (R283): home reads the whole sector in one action. -/
def execSectorFetch (c f : Nat) (s : State) : Out :=
  .next (match (s.core c).fetch f with
    | none => s
    | some x =>
      if x.got.isSome || x.sentAt.isSome then s
      else if s.swept x.dst (s.core c).ctx then s
      else if s.held x.dst then s.post (.sectorFetch c f) (s.cyc + 1)
      else if x.dst.atPeer then s.modCore c (fun k => k.modFetch f (fun y => { y with sentAt := some s.cyc }))
      else
        let (off, n) := (s.thr c x.slot).needs f
        s.fetched c x (s.homeRead x.dst 32).1 (s.sectorUe x.dst) (s.homeRead (x.dst.plus off) n).2)

/-- Set R and the read copy of an entry of a sector. -/
def Core.setCopy (k : Core) (id v bad : Nat) : Core :=
  { k with pbuf := k.pbuf.map (fun e => if e.id = id then { e with r := true, copy := v, bad := badLeft bad (if e.past then 0 else e.mask) } else e) }

/-- The core without a fetch. -/
def Core.noFetch (k : Core) (f : Nat) : Core := { k with fetches := k.fetches.filter (fun y => y.id ≠ f) }

/-- Install a fetch (R283): the copy, formed again, becomes a read-set entry; while there is no room the fetch keeps the
entry whose drain it awaits (R282). Nothing is installed before the reply has come; a fetch whose load trapped installs
nothing (R142). -/
def State.installFetch (s : State) (c f : Nat) : State :=
  match (s.core c).fetch f with
  | none => s
  | some x =>
    match x.got with
    | none => s
    | some v =>
      let k := s.core c
      let es := k.pbuf.filter (fun e => e.dst = x.dst)
      if !x.due then s
      else if x.barred || x.ue || es.any (fun e => e.r) then s.setCore c (k.noFetch f)
      else
        let w := k.overlaid x.dst v
        match es.getLast? with
        | some e => s.setCore c ((k.noFetch f).setCopy e.id w x.bad)
        | none =>
          if k.pbuf.any (fun e => e.d && decide (x.room = some e.id)) then s
          else match k.makeRoom with
            | some k => let (k, id) := (k.noFetch f).addEntry x.dst s.cyc; s.setCore c (k.setCopy id w x.bad)
            | none =>
              let (k, e) := k.drainOldest
              (s.setCore c (k.modFetch f (fun y => { y with room := e }))).postDrain c e

/-- READ_SET_INSTALL (R283): an install that waited for room. -/
def execReadSetInstall (c f : Nat) (s : State) : Out := .next (s.installFetch c f)

/-! ## Drains -/

/-- Change the entry of an identity. -/
def Core.modEntry (k : Core) (id : Nat) (g : Entry → Entry) : Core :=
  { k with pbuf := k.pbuf.map (fun e => if e.id = id then g e else e) }

/-- A write of the core's own to a sector, masked bytes of v, was performed after a fetch of it: the bytes fetched are behind
it and take its bytes, so that the load and the install never show less than what the core has stored; so do the answers of
a fetch and of an LDA that a peer has still to give (R150, R285, R289; log 73). -/
def Core.performed (k : Core) (d : Dest) (v mask : Nat) : Core :=
  { k with
    fetches := k.fetches.map (fun f =>
      if f.dst ≠ d then f
      else if f.sentAt.isSome then { f with data := overlay f.data v mask 32, mask := f.mask ||| mask }
      else { f with got := f.got.map (fun w => overlay w v mask 32), bad := badLeft f.bad mask }),
    reqs := k.reqs.map (fun r => match r.k with
      | .lda x _ _ _ => if x.sector = d && r.sentAt.isSome then { r with data := overlay r.data v mask 32, mask := r.mask ||| mask } else r
      | _ => r) }

/-- A drain of an entry was performed. -/
def Core.drainSeen (k : Core) (x : Entry) : Core := k.performed x.dst x.data x.mask

/-- SECTOR_DRAIN (R286): home performs the masked bytes as one write; a drain waits for an earlier one of its sector. -/
def execSectorDrain (c e : Nat) (s : State) : Out :=
  .next (match (s.core c).pbuf.find? (fun x => x.id = e) with
    | none => s
    | some x =>
      if !x.d || x.sent || (s.core c).pbuf.any (fun y => decide (y.dst = x.dst) && y.d && decide (y.id < x.id)) then s
      else if s.held x.dst then s.post (.sectorDrain c e) (s.cyc + 1)
      else if x.dst.atPeer then
        s.modCore c (fun k => k.modEntry e (fun y => { y with sent := true, sentAt := some s.cyc }))
      else
        ((s.homeWrite (s.core c).field x.dst x.data x.mask 32).modCore c
          (fun k => (k.modEntry e (fun y => { y with sent := true })).drainSeen x)).post (.drainAcknowledgement c e))

/-- One drain less for the threads that await it; those that await no more go on (R152 to R155). -/
def State.drained (s : State) (c e : Nat) : State :=
  (s.core c).threads.foldl (fun s h => match h.2.wait with
    | .drains ids k =>
      if ids.contains e then
        let rest := ids.filter (fun i => i ≠ e)
        if rest = [] then s.afterDrains c h.1 k else s.modThr c h.1 (fun x => { x with wait := .drains rest k })
      else s
    | _ => s) s

/-- DRAIN_ACKNOWLEDGEMENT (R281, R286). -/
def execDrainAcknowledgement (c e : Nat) (s : State) : Out :=
  .next (match (s.core c).pbuf.find? (fun x => decide (x.id = e) && x.sent) with
    | none => s
    | some x =>
      -- an entry drained to make room is freed, and its sector removed from the read set (R282, R287)
      let free := fun (k : Core) => if x.room then { k.bar (fun z => z = x.dst) with evict := k.evict || x.r } else k
      let clear := fun (k : Core) => (free k).modEntry e (fun y =>
        { y with r := y.r && !y.room, mask := 0, data := 0, d := false, sent := false, room := false, sentAt := none, past := false })
      let keep := fun (k : Core) => { k with pbuf := k.pbuf.filter (fun y => y.r || y.mask ≠ 0) }
      let s := s.modCore c (fun k => (keep (clear k)).lastDrain)
      let again := ((s.core c).pbuf.filter (fun y => decide (y.dst = x.dst) && y.d && !y.sent)).map (·.id)
      let s := again.foldl (fun a i => a.post1 (.sectorDrain c i)) s
      let s := ((s.core c).fetches.filter (fun f => f.due)).foldl (fun a f => a.post1 (.readSetInstall c f.id)) s
      ((s.drained c e).wake c).checkEnd c)

/-! ## Requests at home -/

/-- Take the first request of a slot that a test selects. -/
def Core.takeReq (k : Core) (t : Nat) (p : ReqKind → Bool) : Option (Req × Core) :=
  match takeFirst (fun r => decide (r.slot = t) && p r.k) k.reqs with
  | some (r, rest) => some (r, { k with reqs := rest })
  | none => none

def ReqKind.isLda : ReqKind → Bool | .lda .. => true | _ => false
def ReqKind.isStrel : ReqKind → Bool | .strel .. => true | _ => false
def ReqKind.isAtomic : ReqKind → Bool | .atomic .. => true | _ => false
def ReqKind.isFe : ReqKind → Bool | .fe .. => true | _ => false
def ReqKind.isWaitge : ReqKind → Bool | .waitge .. => true | _ => false
def ReqKind.isSteal : ReqKind → Bool | .steal _ => true | _ => false

/-- A request to a peer is on its way: it stays with the tick it was sent (R374). -/
def State.sendPeer (s : State) (c : Nat) (k : Core) (r : Req) : State :=
  s.setCore c { k with reqs := k.reqs ++ [{ r with sentAt := some s.cyc }] }

/-- LDA_AT_HOME (R150): the bytes at home, those in the core's write set taken from it. -/
def execLdaAtHome (c t : Nat) (s : State) : Out :=
  .next (match (s.core c).takeReq t (fun k => k.isLda) with
    | none => s
    | some (r, k) =>
      match r.k with
      | .lda d n _ _ =>
        if s.swept d k.ctx then s.setCore c k
        else if s.held d then s.post (.ldaAtHome c t) (s.cyc + 1)
        else if d.atPeer then s.sendPeer c k r
        else
          let (v, bad) := s.homeRead d n
          (s.setCore c k).reply c t r.inc (if bad then .ue else .val (k.merged d v n))
      | _ => s)

/-- STREL_AT_HOME (R151): what the core has fetched of the sector and not yet shown is behind the write. -/
def execStrelAtHome (c t : Nat) (s : State) : Out :=
  .next (match (s.core c).takeReq t (fun k => k.isStrel) with
    | none => s
    | some (r, k) =>
      match r.k with
      | .strel d n v =>
        if s.swept d k.ctx then s.setCore c k
        else if s.held d then s.post (.strelAtHome c t) (s.cyc + 1)
        else if d.atPeer then s.sendPeer c k r
        else
          let (w, m) := r.k.strelBytes d.sector
          (((s.setCore c k).homeWrite k.field d v (2 ^ n - 1) n).modCore c (fun k => k.performed d.sector w m)).reply c t r.inc .ok
      | _ => s)

/-- The cluster's atomic engine comes to own a line of HBM (10 R280). -/
def State.ownLine (s : State) (c : Nat) (d : Dest) : State :=
  match d with
  | .hbm pa _ =>
    let e := (clusterOf c, pa / 64)
    if s.owned.contains e then s else { s with owned := s.owned.filter (fun x => x.2 ≠ pa / 64) ++ [e] }
  | _ => s

/-- ATOMIC_ENGINE_LINE_WRITEBACK (10 R280): the line is the HBM controller's again; its home order goes on unbroken. -/
def execAtomicEngineLineWriteback (cl line : Nat) (s : State) : Out :=
  .next { s with owned := s.owned.filter (fun x => x ≠ (cl, line)) }

/-- One atomic at a home, for a field's context: the old value, or an uncorrectable word (R156). -/
def State.atomicAt (s : State) (fid : Option Nat) (d : Dest) (op n y e : Nat) : State × Option Nat :=
  let (x, bad) := s.homeRead d (n / 8)
  if bad then (s, none)
  else (s.homeWrite fid d (atomicNew op n x y e) (2 ^ (n / 8) - 1) (n / 8), some x)

/-- An atomic in window 0x2 has arrived at its cluster's engine before another: in an earlier tick, or in the same one from
a lower core index (R155). -/
def State.atomicAhead (s : State) (c a : Nat) : Bool :=
  s.cores.any (fun e => decide (clusterOf e.1 = clusterOf c) && e.2.reqs.any (fun r => match r.k, r.cameAt with
    | .atomic .., some b => decide (b < a) || (b = a && decide (e.1 < c))
    | _, _ => false))

/-- A request for window 0x2 is still on its way to the cluster's engine, or another there is to be served first. -/
def State.atomicWaits (s : State) (c : Nat) (r : Req) : Bool :=
  match r.k, r.cameAt with
  | .atomic _ _ (.hbm ..) _ _, none => true
  | .atomic _ _ (.hbm ..) _ _, some a => decide (s.cyc ≤ a) || s.atomicAhead c a
  | _, _ => false

/-- ATOMIC_AT_HOME (R155 to R157): the cluster's engine serves what has arrived in earlier ticks, in order. -/
def execAtomicAtHome (c t : Nat) (s : State) : Out :=
  .next (match (s.core c).takeReq t (fun k => k.isAtomic) with
    | none => s
    | some (r, k) =>
      match r.k with
      | .atomic op dbl d y e =>
        if s.held d then s.post (.atomicAtHome c t) (s.cyc + 1)
        else if s.atomicWaits c r then
          (s.setCore c { k with reqs := k.reqs ++ [{ r with cameAt := some (r.cameAt.getD s.cyc) }] }).post (.atomicAtHome c t)
            (if r.cameAt = none then s.cyc + 1 else 0)
        else
          let s := (s.setCore c k).ownLine c d
          match s.atomicAt k.field d op (if dbl then 64 else 32) y e with
          | (s, some x) => s.reply c t r.inc (.val x)
          | (s, none) => s.reply c t r.inc .ue
      | _ => s)

/-- FE_AT_HOME (R160): served, refused at once by a limit of zero, or queued. At a free core the tag is empty and never
changes (09 R265). -/
def execFeAtHome (c t : Nat) (s : State) : Out :=
  .next (match (s.core c).takeReq t (fun k => k.isFe) with
    | none => s
    | some (r, k) =>
      match r.k with
      | .fe op (.ls pos off) v =>
        if s.swept (.ls pos off) k.ctx then s.setCore c k
        else if s.held (.ls pos off) then s.post (.feAtHome c t) (s.cyc + 1)
        else
          let s := s.setCore c k
          let home := s.locate pos
          let h := s.thr c t
          let live : Bool := h.inc = r.inc && (match h.wait with | .home _ (.fe ..) _ => true | _ => false)
          let refuse := fun (s : State) => if h.limit = some 0 then s.trapOf c t .fetime (match h.wait with | .home _ _ a => a | _ => 0) else s
          if (s.core home).field = none then
            if op = 0 ∨ op = 1 then (if live then refuse s else s) else s.reply c t r.inc (.val 0)
          else
            match (s.core home).feTry op off v with
            | some (hk, some x) => ((s.setCore home hk).reply c t r.inc (.val x)).feServed home op off v
            | some (_, none) => s.reply c t r.inc .ue
            | none =>
              if !live then s
              else if h.limit = some 0 then refuse s
              else s.modCore home (fun x => { x with feq := x.feq ++
                [{ off := off, op := op, v := v, core := c, slot := t, inc := r.inc, ctx := k.ctx }] })
      | _ => s)

/-- Remove the operation of a slot from a home's queue; whether it was there. -/
def Core.unqueue (k : Core) (c t inc : Nat) : Core × Bool :=
  let mine := fun (q : FeOp) => decide (q.core = c) && decide (q.slot = t) && decide (q.inc = inc)
  ({ k with feq := k.feq.filter (fun q => !mine q) }, k.feq.any mine)

/-- A reply to a thread is on its way: home has served it. -/
def Core.answered (k : Core) (t : Nat) : Bool := k.replies.any (fun r => decide (r.slot = t) && decide (r.inc = (k.thr t).inc))

/-- FE_LIMIT_EXPIRY (R159): the operation leaves its queue, wherever it is, and the thread traps; a service already made
stands. -/
def execFeLimitExpiry (c t : Nat) (s : State) : Out :=
  let h := s.thr c t
  .next (match h.wait with
    | .home _ (.fe _ (.ls pos _) _) a =>
      if h.limit ≠ some 0 || (s.core c).answered t then s
      else
        let s := s.modCore (s.locate pos) (fun k => (k.unqueue c t h.inc).1)
        let s := match (s.core c).takeReq t (fun k => k.isFe) with | some (_, k) => s.setCore c k | none => s
        s.trapOf c t .fetime a
    | _ => s)

/-- WAITGE_AT_HOME (R168): the counter is read when the request arrives and at every update after. -/
def execWaitgeAtHome (c t : Nat) (s : State) : Out :=
  let h := s.thr c t
  .next (match h.wait with
    | .home _ (.waitge d target) a =>
      let sent := match (s.core c).takeReq t (fun k => k.isWaitge) with | some (_, k) => s.setCore c k | none => s
      if s.swept d (s.core c).ctx then sent.unwatch c t
      else if s.held d then s.post (.waitgeAtHome c t) (s.cyc + 1)
      else
        let s := sent
        let (v, bad) := s.counterSeen c d
        if bad then (s.unwatch c t).reply c t h.inc .ue
        else if target ≤ v then (s.unwatch c t).reply c t h.inc (.val v)
        else if h.limit = some 0 then (s.unwatch c t).trapOf c t .cnttime a
        else s.watch d c t h.inc
    | _ => match (s.core c).takeReq t (fun k => k.isWaitge) with | some (_, k) => s.setCore c k | none => s)

/-- COUNTER_LIMIT_EXPIRY (R168): a reply on its way stands. -/
def execCounterLimitExpiry (c t : Nat) (s : State) : Out :=
  let h := s.thr c t
  .next (match h.wait with
    | .home _ (.waitge ..) a =>
      if h.limit ≠ some 0 || (s.core c).answered t then s
      else
        let s := match (s.core c).takeReq t (fun k => k.isWaitge) with | some (_, k) => s.setCore c k | none => s
        (s.unwatch c t).trapOf c t .cnttime a
    | _ => s)

/-! ## Tokens and episodes -/

/-- The serialiser of a scope grants its oldest fence, and turns to the next. -/
def State.grantSerial (s : State) (c scope : Nat) : State :=
  let u := s.serialiser c scope
  let q := (tget [] s.serial u).drop 1
  let s := { s with tokens := s.tokens + 1, serial := if q = [] then tdel s.serial u else tset s.serial u q }
  match q with | f :: _ => s.post1 (.orderTokenGrant f.1 f.2.1) | [] => s

/-- ORDER_TOKEN_GRANT (R153): the narrowest serialiser left grants the fence that came first and passes it on; after the
last the read set is cleared. -/
def execOrderTokenGrant (c t : Nat) (s : State) : Out :=
  let first := fun (x : Nat) => ((tget [] s.serial (s.serialiser c x)).head?.map (fun f => (f.1, f.2.1))) = some (c, t)
  .next (match (s.thr c t).wait with
    | .token (w :: x :: r) k =>
      if first w then ((s.grantSerial c w).modThr c t (fun h => { h with wait := .token (x :: r) k })).joinSerial c t x else s
    | .token [w] k =>
      if first w then
        let s := (s.grantSerial c w).modCore c Core.clearR
        match k with
        | .bar b scope => s.barArrive c t b scope
        | _ => s.modThr c t Thread.retire
      else s
    | _ => s)

/-- Threads of a core that wait in barrier b, made ready (R165). -/
def Core.release (k : Core) (b : Nat) : Core :=
  let waits := fun (h : Thread) => match h.wait with | .bar j _ => decide (j = b) | _ => false
  if k.threads.any (fun e => waits e.2) then
    { k.clearR with threads := tmap (fun _ h => if waits h then h.retire else h) k.threads }
  else k

/-- BARRIER_EPISODE_COMPLETE (R165): every core of the region has arrived; each completed episode is counted. -/
def execBarrierEpisodeComplete (b : Nat) (s : State) : Out :=
  .next (match tfind s.episodes b with
    | none => s
    | some e =>
      let cs := s.regionCores e
      if cs.all (fun c => (s.core c).arrived e.k) then
        let s := cs.foldl (fun a c => a.modCore c (fun k => k.release e.k)) s
        let ids := cs.map (fun c => (s.core c).lcn * 4 + e.k)
        let count := fun (tb : Tab Nat) => ids.foldl (fun tb i => tset tb i (tget 0 tb i + 1)) tb
        let s := s.modField e.field (fun f => { f with episodes := count f.episodes })
        { s with episodes := tdel s.episodes b }
      else s)

/-- GANGER_EXIT_COMPLETE (01 R22). -/
def execGangerExitComplete (c : Nat) (s : State) : Out :=
  .next (if (s.core c).gangerExits && (s.core c).othersEmpty then (s.gangerGone c).slotFreed c else s)

/-! ## Steals (08 R254, 11 R318) -/

/-- A stolen range packed as DQPOP packs it. -/
def packRange (r : Nat × Nat) : Nat := r.1 + 2 ^ 32 * r.2

/-- The victim's deque unit splits its top (R254): the range given, all ones when it is empty. -/
def Core.steal (k : Core) : Core × Nat :=
  match k.deque with
  | [] => (k, 2 ^ 64 - 1)
  | (s, e) :: r =>
    let half := (e - s) / 2
    ({ k with deque := if half = 0 then r else (s, s + half) :: r }, packRange (s + half, e))

/-- STEAL_REQUEST (R254, R318): served exactly once, at the victim's current position. -/
def execStealRequest (c t : Nat) (s : State) : Out :=
  .next (match (s.core c).takeReq t (fun k => k.isSteal) with
    | none => s
    | some (r, k) =>
      match r.k, k.field with
      | .steal lcn, some i =>
        let s := s.setCore c k
        match tfind s.fields i with
        | none => s
        | some f =>
          if s.swept (.ls (s.lcnPos f lcn) 0) k.ctx then s
          else
          let (vk, v) := (s.core (s.lcnPos f lcn)).steal
          (s.setCore (s.lcnPos f lcn) vk).reply c t r.inc (.range v)
      | _, _ => s.setCore c k)

/-! ## Replies (R142) -/

/-- A range for a thread that is gone goes to the thief core's deque, and is lost when that is full (R318). -/
def Core.orphan (k : Core) (v : Nat) : Core :=
  if v = 2 ^ 64 - 1 ∨ 32 ≤ k.deque.length then k else { k with deque := (v % 2 ^ 32, v / 2 ^ 32) :: k.deque }

/-- A reply whose thread is gone, or waits no longer for it (R171). -/
def State.orphaned (s : State) (c : Nat) (b : RBody) : State :=
  match b with | .range v => s.modCore c (fun k => k.orphan v) | _ => s

/-- The value of a request has come to its thread. -/
def State.served (s : State) (c t : Nat) (rd : Reg) (k : ReqKind) (v : Nat) : State :=
  let done := fun (s : State) (w : Word) => s.modThr c t (fun h => (h.setReg rd w).retire)
  match k with
  | .lda d n u scope =>
    let w := loadExt v n u
    done (s.modCore c (fun x => let x := x.removeR d; if 1 ≤ scope then x.clearR else x)) w
  | .strel .. => s.modThr c t Thread.retire
  | .atomic op dbl d _ _ => done (s.modCore c (fun x => x.removeR d)) (atomicRes op (if dbl then 64 else 32) v)
  | .fe op d _ =>
    let s := s.modCore c (fun x => x.removeR d)
    if op = 0 ∨ op = 1 ∨ op = 4 then done s (wordN v) else s.modThr c t Thread.retire
  | .waitge d _ => (s.modCore c (fun x => (x.removeR d).clearR)).modThr c t Thread.retire
  | .steal _ => done s (wordN v)

/-- The bytes of a half of a remote TLD have come. -/
def State.tldCame (s : State) (c t : Nat) (slot : Nat) (a : Word) (f0 f1 : Option Nat) (v0 v1 : Nat) : State :=
  if f0 = none ∧ f1 = none then s.finishTld c t slot a (v0 + v1 * 2 ^ 256)
  else s.modThr c t (fun h => { h with wait := .tld slot a f0 f1 v0 v1 })

/-- What a fetch that has come shows its load: its bytes under the core's own; where a later fetch has installed the sector since,
the read copy, which later loads see (R289; log 73). -/
def Core.shown (k : Core) (f : Fetch) (v : Nat) : Nat :=
  match k.pbuf.find? (fun e => decide (e.dst = f.dst) && e.r) with
  | some e => e.copy
  | none => k.overlaid f.dst (f.got.getD v)

/-- A sector's bytes have come to a load or a TLD. -/
def State.sectorCame (s : State) (c t f v : Nat) (ue : Bool) : State :=
  let k := s.core c
  let w := match k.fetch f with | some x => k.shown x v | none => v
  match (k.thr t).wait with
  | .load f' rd n u off a =>
    if f' ≠ f then s
    else if ue then s.trapOf c t .ue a
    else s.modThr c t (fun h => (h.setReg rd (loadExt (sectorPart w off n) n u)).retire)
  | .tld slot a f0 f1 v0 v1 =>
    if f0 = some f then (if ue then s.trapOf c t .ue a else s.tldCame c t slot a none f1 w v1)
    else if f1 = some f then (if ue then s.trapOf c t .ue a else s.tldCame c t slot a f0 none v0 w)
    else s
  | _ => s

/-- REMOTE_REPLY (R142, R19): the oldest reply to slot t of core c arrives. -/
def execRemoteReply (c t : Nat) (s : State) : Out :=
  .next (match takeFirst (fun r => decide (r.slot = t)) (s.core c).replies with
    | none => s
    | some (r, rest) =>
      let s := s.modCore c (fun k => { k with replies := rest })
      let h := s.thr c t
      match r.body with
      | .sector f v ue =>
        ((if h.inc = r.inc then s.sectorCame c t f v ue else s).modCore c (fun k => k.modFetch f (fun x => { x with due := true }))).installFetch c f
      | body =>
      if h.inc ≠ r.inc then s.orphaned c body
      else match body, h.wait with
        | .ok, .reply ws => s.modThr c t (fun h => (h.setRegs ws).retire)
        | .ok, .tld slot a none none v0 v1 => s.finishTld c t slot a (v0 + v1 * 2 ^ 256)
        | .ok, .home rd k _ => s.served c t rd k 0
        | .val v, .home rd k _ => s.served c t rd k v
        | .range v, .home rd k _ => s.served c t rd k v
        | .ue, .home _ _ a => s.trapOf c t .ue a
        | b, _ => s.orphaned c b)

/-! ## Expiry of replies from peers (16 R374) -/

/-- Sent to a peer 2^20 ticks ago or more, or no port is left to it. -/
def State.overdue (s : State) (part : Nat) (sentAt : Option Nat) : Bool :=
  match sentAt with | some t => decide (t + 2 ^ 20 ≤ s.cyc) || (s.part part).ports = 0 | none => false

/-- PEER_REPLY_TIMEOUT (R374): loads return UE; drains and STREL writes are acknowledged as failed, with one
report for each handle, which counts them (16 R383). -/
def execPeerReplyTimeout (c : Nat) (s : State) : Out :=
  let k := s.core c
  let fs := k.fetches.filter (fun f => s.overdue k.part f.sentAt)
  let rs := k.reqs.filter (fun r => s.overdue k.part r.sentAt)
  let es := k.pbuf.filter (fun e => e.sent && s.overdue k.part e.sentAt)
  let handle := fun (d : Dest) => match d with | .imp _ h _ _ => h | _ => 0
  let lost := rs.filterMap (fun r => match r.k with | .strel d _ _ => some (handle d) | _ => none) ++ es.map (fun e => handle e.dst)
  let handles := lost.foldl (fun l h => if l.contains h then l else l ++ [h]) []
  .next (
    let s := fs.foldl (fun a f => a.fetched c f 0 15 true) s
    let s := rs.foldl (fun a r =>
      let a := a.modCore c (fun x => { x with reqs := x.reqs.filter (fun y => y ≠ r) })
      a.reply c r.slot r.inc (if r.k.isStrel then .ok else .ue)) s
    let s := es.foldl (fun a e =>
      (a.modCore c (fun x => x.modEntry e.id (fun y => { y with sentAt := none }))).post (.drainAcknowledgement c e.id)) s
    handles.foldl (fun a h => a.report (some k.part) 11 0 h (lost.filter (fun x => x = h)).length k.ctx) s)

end Sys2Proof.Machine
end

