-- ==== Sys2Proof/Machine/Bench.lean ====
section
/-! DEFINITION. Benches: GANG and its claim (07 R211 to R215, 11 R305), FEED and DRAIN (R216, R218), freezing, pulses
(R219, R220, R306, R307, R309), thaw (R221 to R223, R310), THAW and GSTAT (R224, R225). -/

namespace Sys2Proof.Machine

/-! ## Positions, links and die edges -/

/-- Position of the core at field coordinates. -/
def State.at' (s : State) (f : Field) (x y : Nat) : Nat := s.lcnPos f (y * f.fw + x)

/-- Die edges on the way from one die to another, as edge × 2 + direction. Edges 0 to 5 lie between a die and its east
neighbour, 6 to 11 between a die and its south neighbour; direction 0 is east or south. -/
def edgePath (a b : Nat) : List Nat :=
  let (x1, y1, x2, y2) := (a % 3, a / 3, b % 3, b / 3)
  (upto (x2 - x1)).map (fun i => (2 * y1 + x1 + i) * 2) ++
  (upto (x1 - x2)).map (fun i => (2 * y1 + x2 + i) * 2 + 1) ++
  (upto (y2 - y1)).map (fun i => (6 + 3 * (y1 + i) + x2) * 2) ++
  (upto (y1 - y2)).map (fun i => (6 + 3 * (y2 + i) + x2) * 2 + 1)

/-- Ticks a word takes longer over a link between two positions (R306). -/
def edgeDelay (a b : Nat) : Nat := if dieOf a = dieOf b then 0 else 24

/-- The core of a field at coordinates moved by one, from a cell of a bench. -/
def Bench.pos (b : Bench) (s : State) (x y : Nat) : Nat :=
  match tfind s.fields b.field with | some f => s.at' f x y | none => 0

/-- Positions of a bench's cells, rows from the north. -/
def Bench.cells (b : Bench) (s : State) : List Nat :=
  (upto b.h).flatMap (fun r => (upto b.w).map (fun c => b.pos s (b.x0 + c) (b.y0 + r)))

/-- Drain cores to the south and to the east exist (R213). -/
def Bench.south (b : Bench) : Bool := b.ws || b.echo
def Bench.east (b : Bench) : Bool := !b.ws && b.echo

/-- Positions of a bench's face cores (R213). -/
def Bench.faces (b : Bench) (s : State) : List Nat :=
  (upto b.h).map (fun r => b.pos s (b.x0 - 1) (b.y0 + r)) ++
  (upto b.w).map (fun c => b.pos s (b.x0 + c) (b.y0 - 1)) ++
  (if b.south then (upto b.w).map (fun c => b.pos s (b.x0 + c) (b.y0 + b.h)) else []) ++
  (if b.east then (upto b.h).map (fun r => b.pos s (b.x0 + b.w) (b.y0 + r)) else [])

/-- A pulse-lane link: its ends and the words it carries in a pulse (R305). -/
abbrev PLink := Nat × Nat × Nat

/-- The links a bench uses. -/
def Bench.links (b : Bench) (s : State) : List PLink :=
  let p := fun (x y : Nat) => b.pos s x y
  let row := fun (r : Nat) =>
    (upto b.w).map (fun c => (p (b.x0 + c - 1) (b.y0 + r), p (b.x0 + c) (b.y0 + r), 1)) ++
    (if b.east then [(p (b.x0 + b.w - 1) (b.y0 + r), p (b.x0 + b.w) (b.y0 + r), 1)] else [])
  let n := if b.ws then 2 else 1
  let col := fun (c : Nat) =>
    (upto b.h).map (fun r => (p (b.x0 + c) (b.y0 + r - 1), p (b.x0 + c) (b.y0 + r), n)) ++
    (if b.south then [(p (b.x0 + c) (b.y0 + b.h - 1), p (b.x0 + c) (b.y0 + b.h), n)] else [])
  (upto b.h).flatMap row ++ (upto b.w).flatMap col

/-- Words a bench sends over each edge and direction in a pulse (R305). -/
def crossings (l : List PLink) : Tab Nat :=
  l.foldl (fun t e => (edgePath (dieOf e.1) (dieOf e.2.1)).foldl (fun t k => tset t k (tget 0 t k + e.2.2)) t) []

/-- An edge and direction. -/
def State.edge (s : State) (k : Nat) : Edge := tget {} s.edges k

/-- Channels free on an edge and direction, of the 84; none when it is down (R305, R413, R414). -/
def Edge.free (e : Edge) : Nat := if e.down then 0 else 84 - e.retired - e.reserved

/-- Reserve or release channels. -/
def State.takeChans (s : State) (l : List (Nat × Nat)) : State :=
  l.foldl (fun s e => { s with edges := tset s.edges e.1 { s.edge e.1 with reserved := (s.edge e.1).reserved + e.2 } }) s
def State.freeChans (s : State) (l : List (Nat × Nat)) : State :=
  l.foldl (fun s e => { s with edges := tset s.edges e.1 { s.edge e.1 with reserved := (s.edge e.1).reserved - e.2 } }) s

/-! ## GANG and its claim (R211 to R215) -/

/-- The operation word names a format no cell computes in (02 R45): reserved, or "no" in the Cell column. -/
def gangFmtBad (b : Word) : Bool := !cellCode (wbits b 6 2)

/-- The operation word breaks R212. -/
def gangOpBad (h : Nat) (b : Word) : Bool :=
  let (mode, fmt, grp) := (wbits b 1 0, wbits b 6 2, wbits b 8 7)
  let (echo, pre) := (wbit b 9, wbit b 10)
  let k : Nat := if fmt = 1 ∨ fmt = 12 then 16 else if fmt = 8 ∨ fmt = 9 then 4 else if fmt = 10 then 2 else 8
  if mode = 0 then
    wbits b 15 11 ≠ 0 || echo || grp ≠ 0 || !cellCode fmt || groupedCode fmt || wbits b 31 16 ≠ k * h
  else
    decide (mode ≠ 1) || wbits b 15 11 ≠ 0 || pre || !cellCode fmt || wbits b 31 16 ≠ 0 ||
      (if blockCode fmt then grp ≠ 1 else if groupedCode fmt then grp = 0 else grp ≠ 0)

/-- Width and height of a rectangle word. -/
def rectW (a : Word) : Nat := wbits a 31 22 + 1
def rectH (a : Word) : Nat := wbits a 41 32 + 1

/-- North-west cell of a rectangle word, for a ganger at field coordinates (R211). -/
def rectX (a : Word) (cx : Nat) : Int := cx + sx (wbits a 10 0) 11
def rectY (a : Word) (cy : Nat) : Int := cy + sx (wbits a 21 11) 11

/-- The rectangle or a face core lies outside the field (R214). -/
def gangOutside (k : Core) (a b : Word) : Bool :=
  let (x, y) := (rectX a k.cx, rectY a k.cy)
  let ws := wbits b 1 0 = 0
  let south := ws || wbit b 9
  let east := !ws && wbit b 9
  decide (x < 1) || decide (y < 1) || decide ((k.fw : Int) < x + rectW a + b2n east) ||
    decide ((k.fh : Int) < y + rectH a + b2n south)

/-- Leave a bench asks of each die, dies ascending (R300). -/
def leaveAsks (cells : List Nat) (per : Nat) : List (Nat × Nat) :=
  (upto 9).filterMap (fun d =>
    let n := (cells.filter (fun c => dieOf c = d)).length
    if n = 0 then none else some (d, n * per))

/-- The bench a claim describes. -/
def Claim.bench (q : Claim) (s : State) : Bench :=
  { field := ((s.core q.core).field).getD 0, core := q.core, slot := q.slot, inc := q.inc,
    rd := match (s.thr q.core q.slot).wait with | .gang r => r | _ => 0,
    rect := q.rect, x0 := q.x0, y0 := q.y0, w := q.w, h := q.h, ws := wbits q.op 1 0 = 0, fmt := wbits q.op 6 2,
    grp := wbits q.op 8 7, pre := wbit q.op 10, echo := wbit q.op 9, pulses := wbits q.op 63 32, period := 1, t0 := 0,
    leave := q.held, chans := [] }

def execGang (d a b : Reg) (s : State) : Out :=
  let (c, t) := s.cur
  let (ra, rb) := (s.readReg a, s.readReg b)
  .next (if gangFmtBad rb then s.trap .illegal
    else if wbits ra 63 42 ≠ 0 || gangOpBad (rectH ra) rb then s.retireWith d 4
    else if gangOutside s.me ra rb then s.retireWith d 3
    else
      let q : Claim := { core := c, slot := t, inc := s.th.inc, rect := ra, op := rb, x0 := (rectX ra s.me.cx).toNat,
                         y0 := (rectY ra s.me.cy).toNat, w := rectW ra, h := rectH ra, ask := [], held := [] }
      let asks := leaveAsks ((q.bench s).cells s) (cellLeave (wbits rb 1 0 = 0) (wbits rb 6 2))
      let s := { s with claims := s.claims ++ [{ q with ask := asks }] }.await (.gang d)
      match asks with
      | (die, w) :: _ => s.askLeave die c t s.th.inc w
      | [] => s)

/-- A claim ends without a bench: leave goes back, GANG completes with a status (R214). -/
def State.refuseClaim (s : State) (q : Claim) (status : Nat) : State :=
  let rd := (q.bench s).rd
  (({ s with claims := s.claims.filter (fun x => x ≠ q) }).returnAll q.held).modThr q.core q.slot
    (fun h => (h.setReg rd (wordN status)).retire)

/-- A core that cannot become a cell (R214): a bench cell, a face core, migrating, in MTILE. -/
def Core.claimed (k : Core) : Bool := k.cell.isSome || k.faces ≠ [] || k.migTo.isSome || k.mtile.isSome

/-- A claim other than q has taken a core (R214, R215). -/
def State.takenBy (s : State) (q : Claim) (p : Nat) : Bool := s.claims.any (fun x => decide (x ≠ q) && x.taken.contains p)

/-- CLAIM (R214, R215, R305): every target core or none. The agent takes the cores of one die after another, dies ascending,
each in a step of its own; a claim that fails releases what it took. A group that an earlier thaw left open is not open for the new bench, whose
accumulators and sums otherwise go on from what stands (R220; log 85). -/
def execClaim (c t : Nat) (s : State) : Out :=
  .next (match s.claims.find? (fun q => decide (q.core = c) && decide (q.slot = t) && q.ask = []) with
    | none => s
    | some q =>
      let b := q.bench s
      let need := crossings (b.links s)
      let left := (b.cells s).filter (fun p => !q.taken.contains p)
      let die := (left.map dieOf).foldl min 9
      let here := left.filter (fun p => dieOf p = die)
      if (q.taken ++ here).any (fun p => (s.core p).claimed || s.takenBy q p) then s.refuseClaim q 1
      else if here.length < left.length then
        ({ s with claims := s.claims.map (fun x => if x = q then { q with taken := q.taken ++ here } else x) }).post (.claim c t)
      else if (b.faces s).any (fun p => (s.core p).cell.isSome) then s.refuseClaim q 2
      else if need.any (fun e => (s.edge e.1).free = 0) then s.refuseClaim q 1
      else
        let chans := need.map (fun e => (e.1, min e.2 (s.edge e.1).free))
        let p := need.foldl (fun m e => max m (ceilDiv e.2 (min e.2 (s.edge e.1).free))) 1
        let id := s.nextId
        let start := (s.cyc / 16 + 1) * 16
        let b := { b with chans := chans, period := p, t0 := start }
        let s := s.takeChans chans
        let s := { s with claims := s.claims.filter (fun x => x ≠ q), benches := tset s.benches id b, nextId := id + 1 }
        let cell := fun (s : State) (rc : Nat × Nat) => s.modCore (b.pos s (b.x0 + rc.2) (b.y0 + rc.1)) (fun k =>
          { k with gst := 0, cell := some { bench := id, row := rc.1, col := rc.2 } })
        let s := ((upto b.h).flatMap (fun r => (upto b.w).map (fun x => (r, x)))).foldl cell s
        let s := (b.faces s).foldl (fun s p => s.modCore p (fun k => { k with faces := k.faces ++ [id] })) s
        s.post (.freeze id) (start - 1))

/-! ## Pulses: when (R306) -/

/-- The queue of a cell takes an entry no earlier than a tick; at most two land in one tick, in order (R306). -/
def landing (q : List Nat) (t : Nat) : Nat :=
  match q.reverse with
  | a :: b :: _ => if t ≤ a then (if a = b then a + 1 else a) else t
  | [a] => max t a
  | [] => t

/-- Put a word into a cell's inbound queue from the west or the north. -/
def Core.feedIn (k : Core) (north : Bool) (v : Word) (tag t : Nat) : Core :=
  if north then { k with northIn := k.northIn ++ [{ v := v, tag := tag, at' := landing (k.northIn.map (·.at')) t }] }
  else { k with westIn := k.westIn ++ [{ v := v, tag := tag, at' := landing (k.westIn.map (·.at')) t }] }

/-- Entries of a queue that will have arrived by a tick. -/
def arrivedBy (l : List Nat) (t : Nat) : Nat := (l.filter (fun a => decide (a ≤ t))).length

/-- The kinds of pulse. -/
inductive PulseKind where
  | latch | ws | rs | scale | zero | fin
  deriving DecidableEq, Repr

def PulseKind.ev (k : PulseKind) (c : Nat) : Ev :=
  match k with
  | .latch => .latchPulse c | .ws => .wsDataPulse c | .rs => .rsDataPulse c | .scale => .scalePulse c
  | .zero => .zeroPointPulse c | .fin => .endPulse c

/-- Kind of an entry's tag (R216). -/
def tagKind (p : Pulse) : Nat := bits p.tag 1 0
/-- Valid bits of an entry's tag. -/
def tagValid (p : Pulse) : Nat := bits p.tag 7 4

/-- Latch pulses a cell of a weight-stationary bench performs (R219). -/
def Bench.latches (b : Bench) (row : Nat) : Nat := if b.ws && !b.pre then 4 * (b.h - row) else 0

/-- The pulse that would come next, from the entries of the queues: its kind and the entries' last arrival. With pulses
not 0, a cell that has done its data pulses takes no further entry of any kind (log 75). -/
def Core.nextPulse (k : Core) (b : Bench) (x : Cell) : Option (PulseKind × Nat) :=
  if b.ws && decide (x.latched < b.latches x.row) then
    match k.northIn with
    | n :: _ => some (if tagKind n = 3 then .fin else .latch, n.at')
    | [] => none
  else if b.pulses ≠ 0 && decide (b.pulses ≤ x.pulses) then none
  else if b.ws then
    match k.westIn, k.northIn with
    | w :: _, n1 :: n2 :: _ =>
      some (if tagKind w = 3 || tagKind n1 = 3 || tagKind n2 = 3 then .fin else .ws, max w.at' (max n1.at' n2.at'))
    | _, _ => none
  else
    match k.westIn, k.northIn with
    | w :: _, n :: _ =>
      some (if tagKind w = 3 || tagKind n = 3 then .fin
            else if tagKind w = 1 then .scale else if tagKind w = 2 then .zero else .rs, max w.at' n.at')
    | _, _ => none

/-- Where the words of a cell go: the core to the east and to the south, none when they are discarded (R219, R220). -/
def Bench.eastOf (b : Bench) (s : State) (x : Cell) : Option (Nat × Bool) :=
  if x.col + 1 < b.w then some (b.pos s (b.x0 + x.col + 1) (b.y0 + x.row), false)
  else if b.east then some (b.pos s (b.x0 + x.col + 1) (b.y0 + x.row), true) else none
def Bench.southOf (b : Bench) (s : State) (x : Cell) : Option (Nat × Bool) :=
  if x.row + 1 < b.h then some (b.pos s (b.x0 + x.col) (b.y0 + x.row + 1), false)
  else if b.south then some (b.pos s (b.x0 + x.col) (b.y0 + x.row + 1), true) else none

/-- Room for n entries in the queue a cell writes, judged with what will have arrived when its word does (R306). -/
def State.roomIn (s : State) (b : Bench) (to' : Option (Nat × Bool)) (south : Bool) (n : Nat) : Bool :=
  match to' with
  | none => true
  | some (p, dr) =>
    let k := s.core p
    let q := if dr then (if south then k.drainN else k.drainW).map (·.at')
             else (if south then k.northIn else k.westIn).map (·.at')
    decide (arrivedBy q (s.cyc + b.period) + (if dr then 1 else n) ≤ 8)

/-- Queues a pulse of a kind writes have room. -/
def State.roomFor (s : State) (b : Bench) (x : Cell) (k : PulseKind) : Bool :=
  match k with
  | .latch =>
    -- the last four latch words stay; the others pass south
    if x.latched + 4 < b.latches x.row then s.roomIn b (if x.row + 1 < b.h then b.southOf s x else none) true 1 else true
  | .fin => b.ws || (s.roomIn b (b.eastOf s x) false 1 && s.roomIn b (b.southOf s x) true 1)
  | .ws => s.roomIn b (if x.col + 1 < b.w then b.eastOf s x else none) false 1 && s.roomIn b (b.southOf s x) true 2
  | _ => s.roomIn b (b.eastOf s x) false 1 && s.roomIn b (b.southOf s x) true 1

/-- The next pulse of a core as a cell: its kind and tick, when its entries are there and its queues have room. -/
def State.pulseAt (s : State) (c : Nat) : Option (PulseKind × Nat) :=
  let k := s.core c
  match k.cell with
  | none => none
  | some x =>
    match tfind s.benches x.bench with
    | none => none
    | some b =>
      if !x.frozen || b.reason ≠ 0 then none
      else match k.nextPulse b x with
        | none => none
        | some (kind, t) => if s.roomFor b x kind then some (kind, max s.cyc (max t x.last)) else none

/-- A pulse of core c is in flight already. -/
def State.pulsing (s : State) (c : Nat) : Bool :=
  s.inflight.any (fun x => match x.2 with
    | .ev (.latchPulse d) => d = c
    | .ev (.wsDataPulse d) => d = c
    | .ev (.rsDataPulse d) => d = c
    | .ev (.scalePulse d) => d = c
    | .ev (.zeroPointPulse d) => d = c
    | .ev (.endPulse d) => d = c
    | _ => false)

/-- Put the next pulse of a cell in flight when it can be told. -/
def State.checkCell (s : State) (c : Nat) : State :=
  if s.pulsing c then s else match s.pulseAt c with | some (k, t) => s.post (k.ev c) t | none => s

/-! ## Thaw (R221) -/

/-- Arrival ticks of everything on its way to a core's pulse-lane and drain queues. -/
def Core.arrivals (k : Core) : List Nat :=
  k.westIn.map (·.at') ++ k.northIn.map (·.at') ++ k.drainN.map (·.at') ++ k.drainW.map (·.at')

/-- A bench begins thaw for a reason; its cells return at the first tick after the outputs have landed with
cyc mod 16 = 0 (R221, R310). A thaw begun stands. -/
def State.beginThaw (s : State) (id reason : Nat) : State :=
  match tfind s.benches id with
  | none => s
  | some b =>
    if b.reason ≠ 0 then s
    else
      let last := (b.cells s ++ b.faces s).foldl (fun m p => (s.core p).arrivals.foldl max m) s.cyc
      ({ s with benches := tset s.benches id { b with reason := reason } }).post (.thawReturn id) ((last / 16 + 1) * 16 - 1)

/-- The bench's outputs have all entered their drain queues (R221). -/
def Bench.drained (b : Bench) (s : State) : Bool :=
  let here := fun (l : List DrainEntry) => l.all (fun e => decide (e.at' ≤ s.cyc))
  (!b.south || (upto b.w).all (fun c => here (s.core (b.pos s (b.x0 + c) (b.y0 + b.h))).drainN)) &&
    (!b.east || (upto b.h).all (fun r => here (s.core (b.pos s (b.x0 + b.w) (b.y0 + r))).drainW))

/-- A FEED, FEEDS or DRAIN of core c toward or from the cell in a direction met a fault (R221). -/
def State.faceFault (s : State) (c d : Nat) : State :=
  match s.neighbour c d with
  | some n => match (s.core n).cell with | some x => s.beginThaw x.bench 3 | none => s
  | none => s

/-- The direction a word of FEED, FEEDS or DRAIN names (R216 to R218). -/
def faceDir (w : BitVec 32) : Option Nat :=
  match decodeWord w with
  | .ok (.feed _ _ q) => some q.toNat
  | .ok (.feeds _ _ _ _ q) => some q.toNat
  | .ok (.drainWord _ _ q) => some q.toNat
  | _ => none

/-- A thread of core c trapped at a word: a FEED, FEEDS or DRAIN begins the thaw of the bench it faces (R199, R221). -/
def State.faceTrap (s : State) (c : Nat) (w : BitVec 32) : State :=
  match faceDir w with | some d => s.faceFault c d | none => s

/-- FREEZE (R214): the cells freeze; the action lands in the last tick before, after its wheel turn. -/
def execFreeze (b : Nat) (s : State) : Out :=
  .next (match tfind s.benches b with
    | none => s
    | some x =>
      let cs := x.cells s
      let s := { s with benches := tset s.benches b { x with t0 := s.cyc + 1 } }
      let s := cs.foldl (fun s p => s.modCore p (fun k =>
        { k with cell := k.cell.map (fun y => { y with frozen := true, last := s.cyc + 1 }) })) s
      cs.foldl (fun s p => s.checkCell p) s)

/-! ## Pulses: what (R219, R220) -/

/-- A word leaves a cell to the east or to the south: into the next cell's queue, or into a drain queue. -/
def State.passOn (s : State) (b : Bench) (c : Nat) (to' : Option (Nat × Bool)) (south : Bool) (ws : List (Word × Nat)) : State :=
  match to' with
  | none => s
  | some (p, dr) =>
    let t := s.cyc + b.period + edgeDelay c p
    if dr then
      let e : DrainEntry := { lo := (ws.getD 0 (0, 0)).1, hi := (ws.getD 1 (0, 0)).1, at' := t }
      let s := s.modCore p (fun k =>
        if south then { k with drainN := k.drainN ++ [e] } else { k with drainW := k.drainW ++ [e] })
      (s.core p).retriers.foldl (fun a h => a.push (.resume p h) t) s
    else
      (s.modCore p (fun k => ws.foldl (fun k w => k.feedIn south w.1 w.2 t) k)).checkCell p

/-- The head of a core's copy queue is a FEEDS (R217). -/
def Core.feeding (k : Core) : Bool := match k.copyQ with | q :: _ => decide (bits q.word.toNat 31 26 = 0x2C) | [] => false

/-- The cell's queues have entries less: those upstream may go on. -/
def State.consumed (s : State) (c : Nat) : State :=
  let up := fun (s : State) (d : Nat) => match s.neighbour c d with
    | some n => let s := (s.wake n).checkCell n; if (s.core n).feeding then s.post1 (.feedsWordDelivery n) else s
    | none => s
  up (up s 3) 0

/-- Change the cell of a core. -/
def Core.modCell (k : Core) (f : Cell → Cell) : Core := { k with cell := k.cell.map f }

/-- Every cell has performed its data pulses (R221). -/
def Bench.complete (b : Bench) (s : State) : Bool :=
  b.pulses ≠ 0 && (b.cells s).all (fun p => match (s.core p).cell with
    | some x => decide (b.pulses ≤ x.pulses) && decide (b.latches x.row ≤ x.latched)
    | none => true)

/-- The bench begins thaw as complete once its cells have done their pulses and its outputs are in the drain queues (R221). -/
def State.checkComplete (s : State) (id : Nat) : State :=
  match tfind s.benches id with
  | some b => if b.complete s && b.drained s then s.beginThaw id 1 else s
  | none => s

/-- A data pulse is counted for telemetry (16 R383). -/
def State.countPulse (s : State) (c : Nat) : State := s.modDie (dieOf c) (fun d => { d with nPulse := d.nPulse + 1 })

/-- After a pulse: the next tick, upstream cells, the cell itself, completion. -/
def State.pulsed (s : State) (id : Nat) (b : Bench) (c : Nat) : State :=
  let s := s.modCore c (fun k => k.modCell (fun x => { x with last := s.cyc + b.period }))
  let s := (s.consumed c).checkCell c
  s.checkComplete id

/-- A tag error: the bench begins thaw with reason cell fault (R220, R221). -/
def State.tagError (s : State) (id c : Nat) : State :=
  (s.modCore c (fun k => k.modCell (fun x => { x with tag := true }))).beginThaw id 4

/-- Run a pulse of the kind expected, if it is due. -/
def State.pulse (s : State) (c : Nat) (kind : PulseKind) (f : Nat → Bench → Cell → State → State) : State :=
  let k := s.core c
  match k.cell, s.pulseAt c with
  | some x, some (kd, t) =>
    match tfind s.benches x.bench with
    | some b => if kd = kind && decide (t ≤ s.cyc) then (f x.bench b x s).pulsed x.bench b c else s.checkCell c
    | none => s
  | _, _ => s

/-- Sticky conditions of a cell. -/
def Core.sticky (k : Core) (st : Sticky) : Core :=
  k.modCell (fun x => { x with iovf := x.iovf || st.iovf, inv := x.inv || st.inv, ovf := x.ovf || st.ovf })

/-- LATCH_PULSE (R219). -/
def execLatchPulse (c : Nat) (s : State) : Out :=
  .next (s.pulse c .latch (fun id b x s =>
    match (s.core c).northIn with
    | n :: r =>
      let s := s.modCore c (fun k => { k with northIn := r })
      if tagKind n ≠ 0 then s.tagError id c
      else
        let left := b.latches x.row - x.latched
        let s := s.modCore c (fun k => k.modCell (fun y => { y with latched := y.latched + 1 }))
        if 4 < left then s.passOn b c (if x.row + 1 < b.h then b.southOf s x else none) true [(n.v, n.tag)]
        else
          let j := BitVec.ofNat 2 (4 - left)
          s.modCore c (fun k => { k with latch := k.latch.set (idxLatch j).val n.v (idxLatch j).isLt })
    | [] => s))

/-- Element j of a word in a format. -/
def lanePart (v : Word) (w j : Nat) : Nat := v.toNat / 2 ^ (w * j) % 2 ^ w

/-- Element 4k + n of the latch. -/
def Core.tile (k : Core) (w i : Nat) : Nat :=
  let per := 64 / w
  lanePart (k.latch.get (lane4 (i / per))) w (i % per)

/-- The partial sum of a weight-stationary pulse: four lanes (R219, R66, R67). -/
def Core.wsSum (k : Core) (fmt : Nat) (a lo hi : Word) : List (BitVec 32) × Sticky :=
  let w := widthOf fmt
  (upto 4).foldl (fun r n =>
    let acc := BitVec.ofNat 32 (lanePart (if n < 2 then lo else hi) 32 (n % 2))
    let u := cellUpdate fmt acc ((upto (64 / w)).map (fun i => (lanePart a w i, k.tile w (4 * i + n))))
    (r.1 ++ [u.1], r.2.or u.2)) ([], {})

/-- Two lanes as a word. -/
def twoLanes (a b : BitVec 32) : Word := b ++ a

/-- WS_DATA_PULSE (R219, R307). -/
def execWsDataPulse (c : Nat) (s : State) : Out :=
  .next (s.pulse c .ws (fun id b x s =>
    match (s.core c).westIn, (s.core c).northIn with
    | w :: wr, n1 :: n2 :: nr =>
      let s := s.modCore c (fun k => { k with westIn := wr, northIn := nr })
      if tagKind w ≠ 0 ∨ tagKind n1 ≠ 0 ∨ tagKind n2 ≠ 0 then s.tagError id c
      else
        let (l, st) := (s.core c).wsSum b.fmt w.v n1.v n2.v
        let s := (s.countPulse c).modCore c (fun k =>
          let ac := (upto 4).foldl (fun (v : Vector (BitVec 32) 16) i => v.set (lane16 0 i).val (l.getD i 0) (lane16 0 i).isLt) k.ac
          (({ k with ac := ac }).modCell (fun y => { y with pulses := y.pulses + 1 })).sticky st)
        let s := s.passOn b c (if x.col + 1 < b.w then b.eastOf s x else none) false [(w.v, w.tag)]
        s.passOn b c (b.southOf s x) true
          [(twoLanes (l.getD 0 0) (l.getD 1 0), n1.tag), (twoLanes (l.getD 2 0) (l.getD 3 0), n2.tag)]
    | _, _ => s))

/-- Take one entry from the west and one from the north and pass both on unchanged (R220); then what they do in the cell. -/
def State.takePair (s : State) (b : Bench) (c : Nat) (x : Cell) (f : Pulse → Pulse → State → State) : State :=
  match (s.core c).westIn, (s.core c).northIn with
  | w :: wr, n :: nr =>
    let s := s.modCore c (fun k => { k with westIn := wr, northIn := nr })
    let s := s.passOn b c (b.eastOf s x) false [(w.v, w.tag)]
    let s := s.passOn b c (b.southOf s x) true [(n.v, n.tag)]
    f w n s
  | _, _ => s

/-- Elements of a k position in a word: row or column i (R220). -/
def Bench.kpw (b : Bench) : Nat := max 1 (lanesOf b.fmt / 4)

/-- A result-stationary data pulse in the cell (R66, R68, R70, R220): a position valid in both words opens the group. -/
def Core.rsData (k : Core) (b : Bench) (w n : Pulse) : Core :=
  let wd := widthOf b.fmt
  let r := if b.fmt = 10 then 2 else 4
  let el := fun (v : Word) (i kk : Nat) => lanePart v wd (i * b.kpw + kk)
  let x := (upto (r * r)).foldl (fun (y : KStep) l =>
    let (i, j) := (l / r, l % r)
    let u := cellUpdate b.fmt (y.ac.get (lane16 i j)) ((upto b.kpw).map (fun kk => (el w.v i kk, el n.v j kk)))
    { y with ac := y.ac.set (lane16 i j).val u.1 (lane16 i j).isLt, st := y.st.or u.2 }) k.kstep
  let x := if groupedCode b.fmt then
      let add := fun (z : KStep) (kk : Nat) =>
        z.sums b.fmt ((upto 4).map (fun i => el w.v i kk)) ((upto 4).map (fun j => el n.v j kk))
      { (upto b.kpw).foldl add x with n := x.n + popcount (tagValid w &&& tagValid n) 4 }
    else x
  ((k.ofKstep x).modCell (fun y => { y with
    pulses := y.pulses + 1, open' := y.open' || decide (popcount (tagValid w &&& tagValid n) 4 ≠ 0) })).sticky x.st

/-- RS_DATA_PULSE (R220). -/
def execRsDataPulse (c : Nat) (s : State) : Out :=
  .next (s.pulse c .rs (fun id b x s => s.takePair b c x (fun w n s =>
    if tagKind n ≠ 0 then s.tagError id c else (s.countPulse c).modCore c (fun k => k.rsData b w n))))

/-- Four FP16 scales, or four exponent bytes, of an installed word; four signed 16-bit zero points. -/
def scaleOf (fmt : Nat) (v : Word) (i : Nat) : Nat := if blockCode fmt then lanePart v 8 i else lanePart v 16 i
def zeroOf (v : Word) (i : Nat) : Int := sx (lanePart v 16 i) 16

/-- Close the open group with the installed words, if it has a pulsed position (R68, R69, R220). -/
def Core.closeGroup (k : Core) (fmt : Nat) : Core :=
  match k.cell with
  | some x =>
    if x.open' then
      let y := k.kstep.close fmt ((upto 4).map (fun i => (scaleOf fmt k.scaleA i, zeroOf k.zpA i)))
        ((upto 4).map (fun j => (scaleOf fmt k.scaleB j, zeroOf k.zpB j)))
      ((k.ofKstep y).modCell (fun z => { z with open' := false })).sticky y.st
    else k
  | none => k

/-- SCALE_PULSE (R220, R309). -/
def execScalePulse (c : Nat) (s : State) : Out :=
  .next (s.pulse c .scale (fun id b x s => s.takePair b c x (fun w n s =>
    if tagKind n ≠ 1 ∨ !(groupedCode b.fmt || blockCode b.fmt) then s.tagError id c
    else s.modCore c (fun k => { (k.closeGroup b.fmt) with scaleA := w.v, scaleB := n.v }))))

/-- ZERO_POINT_PULSE (R220, R309). -/
def execZeroPointPulse (c : Nat) (s : State) : Out :=
  .next (s.pulse c .zero (fun id b x s => s.takePair b c x (fun w n s =>
    if tagKind n ≠ 2 ∨ !groupedCode b.fmt then s.tagError id c
    else s.modCore c (fun k => { k with zpA := w.v, zpB := n.v }))))

/-- END_PULSE (R220, R221): no arithmetic; the bench begins thaw with reason END. -/
def execEndPulse (c : Nat) (s : State) : Out :=
  .next (s.pulse c .fin (fun id b x s =>
    if b.ws then
      let latch := decide (x.latched < b.latches x.row)
      (s.modCore c (fun k =>
        { k with westIn := if latch then k.westIn else k.westIn.drop 1,
                 northIn := k.northIn.drop (if latch then 1 else 2) })).beginThaw id 2
    else (s.takePair b c x (fun _ _ s => s)).beginThaw id 2))

/-! ## THAW_RETURN (R221 to R223) -/

/-- gst of a cell at thaw (R222). -/
def Cell.status (x : Cell) (reason disc : Nat) : Word :=
  wordN (x.pulses % 2 ^ 32 * 2 ^ 32 + min 255 disc * 2 ^ 16 + b2n x.iovf * 2 ^ 11 + b2n x.inv * 2 ^ 10 + b2n x.ovf * 2 ^ 9 +
    b2n x.tag * 2 ^ 8 + reason * 2 ^ 4)

/-- A cell returns to its threads: its group is closed on completion, its queues are emptied, gst is written. -/
def Core.thawed (k : Core) (b : Bench) : Core :=
  let k := if b.reason = 1 && !b.ws && (groupedCode b.fmt || blockCode b.fmt) then k.closeGroup b.fmt else k
  match k.cell with
  | some x =>
    { k with gst := x.status b.reason (k.westIn.length + k.northIn.length), cell := none, westIn := [], northIn := [] }
  | none => k

/-- The bench result (R223), from the cells' gst. -/
def benchResult (reason : Nat) (l : List Word) : Word :=
  let least := l.foldl (fun m g => min m (wbits g 63 32)) (2 ^ 32 - 1)
  let disc := l.foldl (fun n g => n + wbits g 23 16) 0
  let flags := l.foldl (fun f g => f ||| wbits g 11 8) 0
  wordN (least * 2 ^ 32 + min 255 disc * 2 ^ 16 + flags * 2 ^ 8 + reason * 2 ^ 4)

/-- A bench is gone: leave, channels and reservations end (R221, R310). -/
def State.dropBench (s : State) (id : Nat) (b : Bench) : State :=
  let s := (b.faces s).foldl (fun s p => s.modCore p (fun k => { k with faces := k.faces.filter (fun i => i ≠ id) })) s
  (({ s with benches := tdel s.benches id }).freeChans b.chans).returnAll b.leave

/-- THAW_RETURN (R221 to R223); the action lands in the last tick before the return, after its wheel turn. -/
def execThawReturn (b : Nat) (s : State) : Out :=
  .next (match tfind s.benches b with
    | none => s
    | some x =>
      let cs := x.cells s
      let s := cs.foldl (fun s p => s.modCore p (fun k => k.thawed x)) s
      let res := benchResult x.reason (cs.map (fun p => (s.core p).gst))
      let s := s.dropBench b x
      let s := cs.foldl (fun s p => (s.wake p).consumed p) s
      if (s.thr x.core x.slot).inc ≠ x.inc then s
      else match (s.thr x.core x.slot).wait with
        | .gang rd =>
          if x.reason = 7 then s.trapOf x.core x.slot .benchlink x.rect
          else s.modThr x.core x.slot (fun h => (h.setReg rd res).retire)
        | _ => s)

/-! ## FEED, DRAIN, THAW, GSTAT (R216, R218, R224, R225) -/

/-- FEEDs toward a direction, and DRAINs from one (R216, R218: in issue order). -/
def feedsTo (q : BitVec 2) : Instr → Bool | .feed _ _ e => e = q | _ => false
def drainsFrom (q : BitVec 2) : Instr → Bool | .drainWord _ _ e => e = q | _ => false

/-- The inbound queue of a core that a word sent toward a direction enters. -/
def Core.laneIn (k : Core) (d : Nat) : List Pulse := if d = 2 then k.northIn else k.westIn

/-- Words a face core has moved in a tick, by kind and direction: 0 to 3 FEED, 4 to 7 FEEDS, 8 to 11 DRAIN (R308). -/
def Core.moved (k : Core) (key cyc : Nat) : Nat := let r := tget (0, 0) k.rates key; if r.1 = cyc then r.2 else 0

/-- A word more is moved. -/
def Core.moves (k : Core) (key cyc : Nat) : Core := { k with rates := tset k.rates key (cyc, k.moved key cyc + 1) }

/-- Toward a direction a FEED, or another word of a FEEDS, may still enter in this tick (R308). -/
def Core.mayFeed (k : Core) (d cyc : Nat) : Bool := k.moved d cyc = 0 && decide (k.moved (4 + d) cyc < 2)
def Core.mayFeeds (k : Core) (d cyc : Nat) : Bool := decide (k.moved d cyc + k.moved (4 + d) cyc < 2)

/-- The issuing thread performs its instruction again in the next tick. -/
def State.nextTick (s : State) (i : Instr) : State := (s.block i).push (.resume s.cur.1 s.cur.2) (s.cyc + 1)

/-- FEED (R216): a trap toward a bench's cell begins its thaw (R221); one word a tick enters (R308). -/
def execFeed (a b : Reg) (q : BitVec 2) (s : State) : Out :=
  let c := s.cur.1
  .next (if q ≠ 1 ∧ q ≠ 2 then (s.trap .illegal).faceFault c q.toNat
    else match s.neighbour c q.toNat with
      | none => s.trap .prot
      | some n =>
        if s.me.ahead s.cur.2 (feedsTo q) || decide (8 ≤ ((s.core n).laneIn q.toNat).length) then s.block (.feed a b q)
        else if !s.me.mayFeed q.toNat s.cyc then s.nextTick (.feed a b q)
        else
          let t := max (s.th.lastIssue.getD s.cyc + 8) s.cyc + edgeDelay c n
          let (v, tag) := (s.readReg a, wbits (s.readReg b) 7 0)
          let s := s.modMe (fun k => k.moves q.toNat s.cyc)
          let s := (s.modCore n (fun k => k.feedIn (q = 2) v tag t)).retire
          (s.checkCell n).wake c)

/-- DRAIN (R218): a trap toward a bench's cell begins its thaw (R221); one entry a tick leaves (R308). -/
def execDrainWord (d b : Reg) (q : BitVec 2) (s : State) : Out :=
  let c := s.cur.1
  .next (if q ≠ 0 ∧ q ≠ 3 then (s.trap .illegal).faceFault c q.toNat
    else
      let l := if q = 0 then s.me.drainN else s.me.drainW
      let wait := fun (s : State) => s.block (.drainWord d b q)
      match l with
      | [] => wait s
      | e :: r =>
        if s.me.ahead s.cur.2 (drainsFrom q) then wait s
        else if s.cyc < e.at' then (wait s).push (.resume c s.cur.2) e.at'
        else if s.me.moved (8 + q.toNat) s.cyc ≠ 0 then s.nextTick (.drainWord d b q)
        else
          let s := s.modMe (fun k =>
            (if q = 0 then { k with drainN := r } else { k with drainW := r } : Core).moves (8 + q.toNat) s.cyc)
          let s := ((s.writeReg d e.lo).writeReg b e.hi).retire
          let s := s.wake c
          match s.neighbour c q.toNat with | some n => s.checkCell n | none => s)

/-- The position a logical core number of the issuer's field names. -/
def State.lcnOf (s : State) (lcn : Nat) : Option Nat :=
  if s.me.fw * s.me.fh ≤ lcn then none
  else match s.me.field with
    | none => none
    | some i => match tfind s.fields i with | some f => some (s.lcnPos f lcn) | none => none

def execThawBench (d a : Reg) (s : State) : Out :=
  .next (match s.lcnOf (s.readReg a).toNat with
    | none => s.trap .prot
    | some p => match (s.core p).cell with
      | some x => (s.replied [(d, 0)]).beginThaw x.bench 8
      | none => s.replied [(d, 1)])

/-- The value GSTAT reads (R225): of a live cell the count of its pulses and its sticky bits, reason 0. -/
def Core.gstat (k : Core) : Word :=
  let live := match k.cell with | some x => (x.status 0 0).toNat + 1 | none => k.gst.toNat
  wordN (live + (if k.faces ≠ [] then 2 else 0))

def execGstat (d a : Reg) (s : State) : Out :=
  .next (match s.lcnOf (s.readReg a).toNat with
    | none => s.trap .prot
    | some p => let v := (s.core p).gstat; if p = s.cur.1 then s.retireWith d v else s.replied [(d, v)])

end Sys2Proof.Machine
end

