-- ==== Sys2Proof/Machine/EvMove.lean ====
section
/-! DEFINITION. What follows a migrating core: the steps in flight that name it go to its new position (15 R353). -/

namespace Sys2Proof.Machine

/-- A position, moved when it is the old one. -/
def movedPos (o n x : Nat) : Nat := if x = o then n else x

/-- A step that names the core at o names it at n. -/
def Ev.moved (o n : Nat) : Ev → Ev
  | .spill c t => .spill (movedPos o n c) t
  | .fill c t => .fill (movedPos o n c) t
  | .scoreboardRetirement c => .scoreboardRetirement (movedPos o n c)
  | .tapeAppend c => .tapeAppend (movedPos o n c)
  | .remoteReply c t => .remoteReply (movedPos o n c) t
  | .sectorFetch c f => .sectorFetch (movedPos o n c) f
  | .readSetInstall c f => .readSetInstall (movedPos o n c) f
  | .sectorDrain c e => .sectorDrain (movedPos o n c) e
  | .drainAcknowledgement c e => .drainAcknowledgement (movedPos o n c) e
  | .ldaAtHome c t => .ldaAtHome (movedPos o n c) t
  | .strelAtHome c t => .strelAtHome (movedPos o n c) t
  | .atomicAtHome c t => .atomicAtHome (movedPos o n c) t
  | .feAtHome c t => .feAtHome (movedPos o n c) t
  | .feWithdrawal c m => .feWithdrawal (movedPos o n c) (movedPos o n m)
  | .feLimitExpiry c t => .feLimitExpiry (movedPos o n c) t
  | .waitgeAtHome c t => .waitgeAtHome (movedPos o n c) t
  | .counterLimitExpiry c t => .counterLimitExpiry (movedPos o n c) t
  | .sleepTimeout c t => .sleepTimeout (movedPos o n c) t
  | .eventArrival c t => .eventArrival (movedPos o n c) t
  | .portEntryArrival c d => .portEntryArrival (movedPos o n c) d
  | .orderTokenGrant c t => .orderTokenGrant (movedPos o n c) t
  | .gangerExitComplete c => .gangerExitComplete (movedPos o n c)
  | .icacheLineFill c t => .icacheLineFill (movedPos o n c) t
  | .translationWalk c t => .translationWalk (movedPos o n c) t
  | .invalidation p c => .invalidation p (movedPos o n c)
  | .sequencerAccept c => .sequencerAccept (movedPos o n c)
  | .kStep c => .kStep (movedPos o n c)
  | .engineCommandComplete c q => .engineCommandComplete (movedPos o n c) q
  | .engineFault c q => .engineFault (movedPos o n c) q
  | .qjoinFenceComplete c => .qjoinFenceComplete (movedPos o n c)
  | .ringChunkStart c => .ringChunkStart (movedPos o n c)
  | .ringChunkComplete c => .ringChunkComplete (movedPos o n c)
  | .feedsWordDelivery c => .feedsWordDelivery (movedPos o n c)
  | .gatherLead c => .gatherLead (movedPos o n c)
  | .stealRequest c t => .stealRequest (movedPos o n c) t
  | .claim c t => .claim (movedPos o n c) t
  | .latchPulse c => .latchPulse (movedPos o n c)
  | .wsDataPulse c => .wsDataPulse (movedPos o n c)
  | .rsDataPulse c => .rsDataPulse (movedPos o n c)
  | .scalePulse c => .scalePulse (movedPos o n c)
  | .zeroPointPulse c => .zeroPointPulse (movedPos o n c)
  | .endPulse c => .endPulse (movedPos o n c)
  | .corePartEnd c => .corePartEnd (movedPos o n c)
  | .dryTimerExpiry c => .dryTimerExpiry (movedPos o n c)
  | .coreRecast c r => .coreRecast (movedPos o n c) r
  | .migrationSwitch c => .migrationSwitch (movedPos o n c)
  | .migrationResume c => .migrationResume (movedPos o n c)
  | .peerReplyTimeout c => .peerReplyTimeout (movedPos o n c)
  | .ueCoreState c => .ueCoreState (movedPos o n c)
  | .breakpointHit c t => .breakpointHit (movedPos o n c) t
  | e => e

end Sys2Proof.Machine
end

