-- ==== Sys2Proof/Machine/Engines.lean ====
section
/-! DEFINITION. Engine commands as issued (08 R226 to R228, R235 to R239, R243; 07 R217), the sequencer (R228, R229, R250,
R256), the engine status (R234), counters and faults (R230 to R233), and the range scoreboard (09 R268 to R270). -/

namespace Sys2Proof.Machine

/-! ## Commands -/

/-- The engine commands. -/
inductive EOp where
  | copy | copy2 | ring | gather | scatter | scatadd | join | feeds
  deriving DecidableEq, Repr

/-- Fields of the command word (R226). -/
def Cmd.fld (q : Cmd) (hi lo : Nat) : Nat := bits q.word.toNat hi lo
def Cmd.op (q : Cmd) : EOp :=
  if q.fld 31 26 = 0x2D then
    match q.fld 13 8 with
    | 0 => .copy | 1 => .copy2 | 2 => .ring | 4 => .gather | 5 => .scatter | 6 => .scatadd | _ => .join
  else .feeds
def Cmd.slotD (q : Cmd) : Nat := q.fld 25 22
def Cmd.slotS (q : Cmd) : Nat := q.fld 7 4

/-- GATHER, SCATTER, SCATADD. -/
def Cmd.family (q : Cmd) : Bool := match q.op with | .gather => true | .scatter => true | .scatadd => true | _ => false

/-- The repeat field of a command that can be repeated (R228). -/
def Cmd.rep (q : Cmd) : Nat := match q.op with | .ring => 0 | .join => 0 | .feeds => 0 | _ => q.fld 3 2

/-- The counter operand: rc of the GATHER family and FEEDS, ra of the others (R226). -/
def Cmd.counter (q : Cmd) : Word := if q.family || q.op = .feeds then q.rc else q.ra

/-- Fields of the list word (R239). -/
def Cmd.list (q : Cmd) : Nat := wbits q.ra 14 0
def Cmd.drawn (q : Cmd) : Bool := wbit q.ra 15
def Cmd.fvAt (q : Cmd) : Nat := wbits q.ra 30 16
def Cmd.fvBytes (q : Cmd) : Nat := 8 * ceilDiv (wbits q.ra 47 32) 64

/-- Elements, words or rows of a command: COPY's n, COPY2's w × h, FEEDS' words, a family's rows. -/
def Cmd.total (q : Cmd) : Nat :=
  match q.op with
  | .copy => q.count.getD (wbits q.rb 31 0)
  | .copy2 => wbits q.rb 15 0 * wbits q.rb 31 16
  | .feeds => wbits q.rb 31 0
  | .join => 0
  | .ring => wbits q.rb 63 32
  | _ => wbits q.ra 47 32

/-- Fields of the ring word (R237). -/
def Cmd.ringMin (q : Cmd) : Nat := wbits q.rb 7 0
def Cmd.ringMax (q : Cmd) : Nat := wbits q.rb 15 8
def Cmd.ringStride (q : Cmd) : Nat := wbits q.rb 31 16

/-- The ILLEGAL conditions of a command on the slots as they stand (R217, R235 to R239, R242). A list beside G, and bits 63–33
of rb beside S.P, that are not zero are among them (log 98). -/
def Cmd.bad (q : Cmd) (k : Core) : Bool :=
  match q.op, k.slot q.slotS, k.slot q.slotD with
  | .copy, some x, some y => x.fmt ≠ y.fmt || (Desc.pat x && wbits q.rb 63 33 ≠ 0)
  | .copy2, some x, some y => x.fmt ≠ y.fmt || Desc.pat x
  | .ring, some x, some y =>
    x.fmt ≠ y.fmt || Desc.pat x || k.ring.isSome || q.ringMin = 0 || decide (q.ringMax < q.ringMin) || decide (16 < q.ringMax)
  | .feeds, some _, _ => false
  | .join, _, _ => false
  | .scatadd, some x, _ =>
    wbits q.ra 63 48 ≠ 0 || decide (4096 < q.total) || (q.drawn && q.list ≠ 0) || !decide (x.fmt ∈ [4, 5, 10])
  | op, some x, _ =>
    (op = .copy || op = .copy2 || op = .ring) || wbits q.ra 63 48 ≠ 0 || decide (4096 < q.total) ||
      (q.drawn && q.list ≠ 0) || (x.bitsOf = 4 && x.ndim = 1)
  | _, none, _ => true

/-- Elements of a row, and bytes of a packed row (R239). -/
def Desc.rowLen (d : Desc) : Nat := if d.ndim = 1 then 1 else d.extent 0
def Desc.rowBytes (d : Desc) : Nat := if d.bitsOf = 4 then ceilDiv d.rowLen 2 else d.rowLen * d.bytesOf

/-- The own local-store offset an address names (R229, R264). -/
def State.ownOff (s : State) (c : Nat) (a : Word) : Option Nat :=
  match wbits a 63 60 with
  | 0 => some (wbits a 14 0)
  | 1 => match (s.part (s.core c).part).named a.toNat with
    | some p => if p = c ∨ p = (s.core c).place then some (wbits a 14 0) else none
    | none => none
  | _ => none

/-- The base of a family command's tensor lies outside window 0x2: PROT at issue (R239). -/
def Cmd.baseFault (q : Cmd) (k : Core) : Option Flt :=
  match k.slot q.slotS with
  | some x => if q.family && wbits x.base 63 60 ≠ 2 then some (.prot, x.base) else none
  | none => none

/-- The faults of a family command's own ranges for one expansion, with its advances (R226, R228, R239): ALIGN, then PROT. -/
def State.rangeFault (s : State) (c : Nat) (q : Cmd) (sadv dadv : Int) : Option Flt :=
  match (s.core c).slot q.slotS with
  | none => none
  | some x =>
    if !q.family then none
    else if q.list % 4 ≠ 0 then some (.align, wordN q.list)
    else if q.fvAt % 8 ≠ 0 then some (.align, wordN q.fvAt)
    else if wbits x.base 63 60 ≠ 2 then some (.prot, x.base)
    else if 0x6000 < q.fvAt + q.fvBytes then some (.prot, wordN q.fvAt)
    else
      let l : Int := q.list + 4 * sadv
      if !q.drawn && (decide (l < 0) || decide (0x6000 < l + 4 * q.total)) then some (.prot, wordI l)
      else if q.rep = 0 then none
      else match s.ownOff c q.rb with
        | none => none
        | some o =>
          let b : Int := o + dadv
          if b < 0 ∨ 0x6000 < b + q.total * x.rowBytes then some (.prot, wordI (q.rb.toNat + dadv)) else none

/-! ## Issue (R227) -/

/-- Insert a command among those not yet taken, in issue order (R228). -/
def insertCmd (l : List Cmd) (q : Cmd) : List Cmd :=
  match l with
  | [] => [q]
  | x :: r => if x.taken || decide (x.stamp ≤ q.stamp) then x :: insertCmd r q else q :: x :: r

/-- The check of a counter operand at issue: under R145 with s = 8, window 0x3 adding PROT (R227). -/
def State.counterPlace (s : State) (c : Nat) (a : Word) : Place :=
  if a = 0 then .own 0
  else match s.place c a 8 3 with
    | .far (.imp ..) => .trap .prot a
    | p => p

/-- The command of an instruction of the issuing thread. -/
def State.mkCmd (s : State) (i : Instr) (ra rb rc : Word) : Cmd :=
  { slot := s.cur.2, inc := s.th.inc, word := encode i, ra := ra, rb := rb, rc := rc, stamp := s.th.stamp }

/-- The faults of a command's own ranges and base at issue (R228, R239). -/
def State.issueFault (s : State) (c : Nat) (q : Cmd) : Option Flt :=
  if q.rep = 0 then s.rangeFault c q 0 0 else q.baseFault (s.core c)

/-- An engine command as its thread issues it: checked, then before the sequencer (R227). -/
def State.engineIssue (s : State) (i : Instr) (q : Cmd) : State :=
  if q.bad s.me then s.trap .illegal
  else match s.counterPlace s.cur.1 q.counter with
    | .trap e fa => s.trap e fa
    | .miss va acc => s.awaitWalk (some i) va acc
    | _ =>
      match s.issueFault s.cur.1 q with
      | some (e, fa) => s.trap e fa
      | none => ((s.modMe (fun k => { k with seqq := insertCmd k.seqq q })).await .seq).post1 (.sequencerAccept s.cur.1)

/-- A command as its thread issues it; one that traps after it has waited for its counter's translation holds back no later
one (R228). -/
def State.engine (s : State) (i : Instr) (q : Cmd) : State :=
  let s' := s.engineIssue i q
  if s'.th.st = .parked then s'.kickSeq s.cur.1 else s'

def execCopyElems (d a b t : Reg) (q : BitVec 2) (s : State) : Out :=
  let i := Instr.copyElems d a b t q
  .next (s.engine i (s.mkCmd i (s.readReg a) (s.readReg b) 0))
def execCopy2 (d a b t : Reg) (q : BitVec 2) (s : State) : Out :=
  let i := Instr.copy2 d a b t q
  .next (s.engine i (s.mkCmd i (s.readReg a) (s.readReg b) 0))
def execCopyring (d a b t : Reg) (s : State) : Out :=
  let i := Instr.copyring d a b t
  .next (s.engine i (s.mkCmd i (s.readReg a) (s.readReg b) 0))
def execGather (c a b t : Reg) (q : BitVec 2) (s : State) : Out :=
  let i := Instr.gather c a b t q
  .next (s.engine i (s.mkCmd i (s.readReg a) (s.readReg b) (s.readReg c)))
def execScatter (c a b t : Reg) (q : BitVec 2) (s : State) : Out :=
  let i := Instr.scatter c a b t q
  .next (s.engine i (s.mkCmd i (s.readReg a) (s.readReg b) (s.readReg c)))
def execScatadd (c a b t : Reg) (q : BitVec 2) (s : State) : Out :=
  let i := Instr.scatadd c a b t q
  .next (s.engine i (s.mkCmd i (s.readReg a) (s.readReg b) (s.readReg c)))
def execQjoin (a b : Reg) (s : State) : Out :=
  let i := Instr.qjoin a b
  .next (s.engine i (s.mkCmd i (s.readReg a) (s.readReg b) 0))

/-- FEEDS (07 R217): a direction other than east and south is ILLEGAL; the adjacent core must exist. A trap of FEEDS
begins the thaw of the bench it feeds (R221). -/
def execFeeds (c a b t : Reg) (q : BitVec 2) (s : State) : Out :=
  let i := Instr.feeds c a b t q
  .next (if q ≠ 1 ∧ q ≠ 2 then (s.trap .illegal).faceFault s.cur.1 q.toNat
    else if s.me.slot t.toNat = none then (s.trap .illegal).faceFault s.cur.1 q.toNat
    else match s.neighbour s.cur.1 q.toNat with
      | none => s.trap .prot
      | some _ =>
        let s' := s.engine i (s.mkCmd i (s.readReg a) (s.readReg b) (s.readReg c))
        if (s'.thr s.cur.1 s.cur.2).st = .parked then s'.faceFault s.cur.1 q.toNat else s')

/-! ## Engine status (R234) -/

def Core.ringHalt (k : Core) : Bool := match k.ring with | some r => r.fault.isSome | none => false

/-- The engine status. -/
def Core.estat (k : Core) : Word :=
  wordN (k.drop % 65536 * 2 ^ 48 + k.efault % 65536 * 2 ^ 32 + b2n k.gf * 2 ^ 23 + b2n k.ring.isSome * 2 ^ 22 +
    b2n (k.copyHalt || k.ringHalt) * 2 ^ 21 + b2n k.gatHalt * 2 ^ 20 + k.copyQ.length % 4 * 2 ^ 18 +
    k.gatQ.length % 4 * 2 ^ 16 + b2n k.tape.isSome * 2 ^ 15 + k.scb.length % 16)

def execCstat (d a : Reg) (s : State) : Out :=
  let m := s.readReg a
  let clear := fun (k : Core) => { k with
    drop := if wbits m 63 48 ≠ 0 then 0 else k.drop
    efault := if wbits m 47 32 ≠ 0 then 0 else k.efault
    gf := k.gf && !wbit m 23 }
  .next ((s.modMe clear).retireWith d s.me.estat)

/-! ## Queues and the scoreboard -/

/-- The copy queue and the ring are paused, and nothing new is sent to a lead engine: by HALTC, or from step 3 of a
migration to the resume (15 R352, 19 R436). -/
def Core.paused (k : Core) : Bool := k.haltc || k.migStop

/-- Start the head of a queue: 0 copy, 1 gather. Nothing starts in a halted or paused queue (R230, R232, 15 R352, 19 R436);
a gather command already sent runs on in a paused one (19 R438). -/
def State.runQueue (s : State) (c q : Nat) : State :=
  let k := s.core c
  let head := if q = 0 then k.copyQ.head? else k.gatQ.head?
  let halted := if q = 0 then k.copyHalt else k.gatHalt
  match head with
  | none => s
  | some x =>
    if halted || (k.paused && !(q = 1 && x.phase ≠ 0)) then s
    else
      let e : Ev := match x.op with
        | .join => .qjoinFenceComplete c
        | .feeds => if x.addOnly then .engineCommandComplete c 0 else .feedsWordDelivery c
        | .copy => .engineCommandComplete c 0
        | .copy2 => .engineCommandComplete c 0
        | _ => if x.phase ≤ 1 then .gatherLead c else .engineCommandComplete c 1
      if s.inflight.any (fun y => decide (y.2 = .ev e)) then s else s.post e (s.cyc + 1)

/-- Both queues. -/
def State.runQueues (s : State) (c : Nat) : State := (s.runQueue c 0).runQueue c 1

/-- Entries of a command become retirable (R268). -/
def Core.retirable (k : Core) (id : Nat) : Core :=
  { k with scb := k.scb.map (fun e => if e.cmd = id then { e with retirable := true } else e) }

/-- SCOREBOARD_RETIREMENT (R15, R268, R270): one retirable entry goes; what it held is performed. -/
def execScoreboardRetirement (c : Nat) (s : State) : Out :=
  .next (match takeFirst (fun e => e.retirable) (s.core c).scb with
    | some (_, r) => (((s.modCore c (fun k => { k with scb := r })).wake c).wakePlays c).kickSeq c
    | none => s)

/-- Lowest and highest of a list of offsets, with the bytes of an element. -/
def spanOf (l : List Nat) (n : Nat) : List (Nat × Nat) :=
  match l with | [] => [] | a :: r => [(r.foldl min a, r.foldl max a + n - 1)]

/-- The source element of COPY or COPY2: none for an exhausted generator; below the first element, when an advance has made
the linear index or the row negative (log 22); or at local indices. -/
inductive SrcAt where
  | none
  | below
  | elem (x : Nat × Nat × Nat × Nat)
  deriving DecidableEq, Repr

/-- The indices, where there are any. -/
def SrcAt.elem? : SrcAt → Option (Nat × Nat × Nat × Nat) | .elem x => some x | _ => Option.none

/-- Local indices of an unbounded linear index or row, none below 0 (00 R11, 08 R235; log 22). -/
def atPos (v : Int) (f : Nat → Nat × Nat × Nat × Nat) : Option (Nat × Nat × Nat × Nat) := if v < 0 then none else some (f v.toNat)

/-- Where COPY or COPY2 reads and writes its m-th element (R228, R235, R236). -/
def Cmd.srcAt (q : Cmd) (m : Nat) : SrcAt :=
  let there := fun (x : Option (Nat × Nat × Nat × Nat)) => match x with | some i => SrcAt.elem i | none => .below
  if q.op = .copy2 then
    let w := wbits q.rb 15 0
    there (atPos ((wbits q.rb 63 48 + m / w : Nat) + q.sadv) (fun i => (wbits q.rb 47 32 + m % w, i, 0, 0)))
  else if Desc.pat q.desS then
    match q.coords.drop m with | (i1, i0) :: _ => .elem (i0, i1, 0, 0) | [] => .none
  else there (atPos ((wbits q.rb 63 32 + m : Nat) + q.sadv) (Desc.linear q.desS))
def Cmd.dstAt (q : Cmd) (m : Nat) : Option (Nat × Nat × Nat × Nat) :=
  if q.op = .copy2 then let w := wbits q.rb 15 0; atPos ((m / w : Nat) + q.dadv) (fun i => (m % w, i, 0, 0))
  else atPos ((m : Nat) + q.dadv) (Desc.linear q.desD)

/-- Indices that lie within the extents. -/
def Desc.holds (d : Desc) (x : Nat × Nat × Nat × Nat) : Bool := d.inside x.1 x.2.1 x.2.2.1 x.2.2.2
def Desc.held? (d : Desc) (x : Option (Nat × Nat × Nat × Nat)) : Option (Nat × Nat × Nat × Nat) := x.filter d.holds
def Desc.at4 (d : Desc) (x : Nat × Nat × Nat × Nat) : Word := d.addr x.1 x.2.1 x.2.2.1 x.2.2.2

/-- Own ranges a command touches (R229): source, destination, a GATHER's fault vector. -/
def State.ranges (s : State) (c : Nat) (q : Cmd) : List (Nat × Nat) :=
  let own := fun (l : List Word) => l.filterMap (s.ownOff c)
  match q.op with
  | .join => []
  | .ring => []
  | .feeds =>
    let e := lanesOf (Desc.fmt q.desS)
    let l := (upto (q.total * e)).filterMap (fun m =>
      let x := Desc.linear q.desS (q.ra.toNat + m)
      if Desc.holds q.desS x then some (Desc.at4 q.desS x) else none)
    spanOf (own l) (Desc.bytesOf q.desS)
  | .copy =>
    let src := (upto q.total).filterMap (fun m => (q.srcAt m).elem?.map (Desc.clamped q.desS))
    let dst := ((upto q.total).filter (fun m => decide (q.srcAt m ≠ .none))).filterMap
      (fun m => (Desc.held? q.desD (q.dstAt m)).map (Desc.at4 q.desD))
    (if Desc.empty q.desS then [] else spanOf (own src) (Desc.bytesOf q.desS)) ++ spanOf (own dst) (Desc.bytesOf q.desD)
  | .copy2 =>
    let src := (upto q.total).filterMap (fun m => (q.srcAt m).elem?.map (Desc.clamped q.desS))
    let dst := (upto q.total).filterMap (fun m => (Desc.held? q.desD (q.dstAt m)).map (Desc.at4 q.desD))
    (if Desc.empty q.desS then [] else spanOf (own src) (Desc.bytesOf q.desS)) ++ spanOf (own dst) (Desc.bytesOf q.desD)
  | op =>
    -- a SCATTER reads no row that an exhausted generator gave no coordinate (R250); a GATHER writes such a row
    let rows := if op ≠ .gather && q.drawn then min q.total q.coords.length else q.total
    let n := rows * Desc.rowBytes q.desS
    let buf := match s.ownOff c q.rb with
      | some o => if n = 0 then [] else [(low ((o : Int) + q.dadv) 15, low ((o : Int) + q.dadv) 15 + n - 1)]
      | none => []
    buf ++ (if op = .gather ∧ q.fvBytes ≠ 0 then [(q.fvAt, q.fvAt + q.fvBytes - 1)] else [])

/-! ## The sequencer (R228) -/

/-- Values of sq0 and of the repeat register. -/
def Core.sqv (k : Core) (q : Nat) : Word := match q with | 0 => k.sq0 | 1 => k.sq1 | 2 => k.sq2 | _ => k.sq3

/-- Entries a command makes on a tape (R257). -/
def Cmd.entries (q : Cmd) (patch : List Word) : List TEntry :=
  [commandEntry q.word, operandEntry patch 0 q.ra, operandEntry patch 1 q.rb] ++
  (if q.family || q.op = .feeds then [operandEntry patch 2 q.rc] else []) ++
  (if q.rep = 0 then [] else match q.sq with
    | some (s0, r) => [operandEntry patch 3 s0, operandEntry patch 4 r]
    | none => [])
def Cmd.entryCount (q : Cmd) : Nat := (if q.family || q.op = .feeds then 4 else 3) + (if q.rep = 0 then 0 else 2)

/-- Expansions of a command, and its advances per expansion (R228). -/
def Cmd.expansions (q : Cmd) : Nat := if q.rep = 0 then 1 else match q.sq with | some (_, r) => wbits r 31 0 | none => 0
def Cmd.stepS (q : Cmd) : Int := match q.sq with | some (s0, _) => sx (wbits s0 31 0) 32 | none => 0
def Cmd.stepD (q : Cmd) : Int := match q.sq with | some (s0, _) => sx (wbits s0 63 32) 32 | none => 0

/-- The sequencer is done with its head: the thread's instruction completes, or the replay goes on. -/
def State.seqDone (s : State) (c : Nat) (q : Cmd) (rest : List Cmd) : State :=
  let s := s.modCore c (fun k => { k with seqq := rest })
  let h := s.thr c q.slot
  let s := if h.inc ≠ q.inc then s
    else match h.wait with
      | .seq => s.modThr c q.slot Thread.retire
      | .tplay _ _ => s.push (.resume c q.slot)
      | _ => s
  (s.kickSeq c).checkEnd c

/-- The head raises a trap against its thread and commits nothing (R228, R250). -/
def State.seqTrap (s : State) (c : Nat) (q : Cmd) (rest : List Cmd) (e : Flt) : State :=
  let s := s.modCore c (fun k => { k with seqq := rest })
  let s := if (s.thr c q.slot).inc = q.inc then s.trapOf c q.slot e.1 e.2 else s
  let s := if q.op = .feeds then s.faceFault c (q.fld 3 2) else s
  s.kickSeq c

/-- Coordinates a command draws at acceptance (R250): the generator and how many. -/
def Cmd.draws (q : Cmd) (k : Core) : Option (Nat × Nat) :=
  match q.op with
  | .copy => match k.slot q.slotS with | some x => if Desc.pat x then some (wbits q.rb 32 32, q.total) else none | none => none
  | _ => if q.family && q.drawn then some (wbits q.ra 31 31, q.total) else none

/-- The queues a command enters have room (R227, R243). -/
def Cmd.room (q : Cmd) (k : Core) : Bool :=
  let cq := decide (k.copyQ.length < 2)
  let gq := decide (k.gatQ.length < 2)
  match q.op with
  | .join => (!wbit q.rb 0 || cq) && (!wbit q.rb 1 || gq)
  | .ring => true
  | .feeds => cq
  | .copy => cq
  | .copy2 => cq
  | _ => gq

/-- An accepted command enters its queue. -/
def Core.enqueue (k : Core) (q : Cmd) (tick : Nat) : Core :=
  match q.op with
  | .join =>
    let k := if wbit q.rb 0 then { k with copyQ := k.copyQ ++ [q] } else k
    let k := if wbit q.rb 1 then { k with gatQ := k.gatQ ++ [q] } else k
    if wbits q.rb 1 0 = 0 then { k with joins := k.joins ++ [q] } else k
  | .ring => { (k.remember tick 0x34 (wordN k.qdepth)) with ring := some { cmd := q }, qdepth := q.ringMin }
  | .feeds => { k with copyQ := k.copyQ ++ [q] }
  | .copy => { k with copyQ := k.copyQ ++ [q] }
  | .copy2 => { k with copyQ := k.copyQ ++ [q] }
  | _ => { k with gatQ := k.gatQ ++ [q] }

/-- Accept the next expansion of the head, or wait for room (R228, R229). -/
def State.seqExpand (s : State) (c : Nat) (q : Cmd) (rest : List Cmd) : State :=
  let k := s.core c
  if q.expansions ≤ q.j then s.seqDone c q rest
  else if q.bad k then s.seqTrap c q rest (.illegal, 0)
  else if !q.room k || (q.rep = 0 && q.tape = 0 && k.tapeFull q.entryCount) then s
  else
    let x : Cmd := { q with id := k.nextId, sadv := q.j * q.stepS, dadv := q.j * q.stepD,
                            desS := (k.slot q.slotS).getD [], desD := (k.slot q.slotD).getD [] }
    let drawn : Except Flt (List (Nat × Nat) × Core) := match q.draws k with
      | none => .ok ([], k)
      | some (g, n) => match (k.gen g).draw n with
        | none => .error (.patfault, (k.gen g).at')
        | some (l, g') => .ok (l, k.setGen g g')
    match drawn with
    | .error e => s.seqTrap c q rest e
    | .ok (l, k) =>
      let x := { x with coords := l }
      let rs := s.ranges c x
      if 8 < k.scb.length + rs.length then s
      else
        let k := if q.rep = 0 && q.tape = 0 then k.record (fun p => q.entries p) else k
        let k := { k with nextId := k.nextId + 1, scb := k.scb ++ rs.map (fun (r : Nat × Nat) => SbEntry.mk r.1 r.2 x.id false),
                          seqq := { q with j := q.j + 1 } :: rest }
        let s := (s.setCore c (k.enqueue x s.cyc)).runQueues c
        let s := match q.op with
          | .ring => s.post (.ringChunkStart c) (s.cyc + 1)
          | .join => s.post1 (.qjoinFenceComplete c)
          | _ => s
        if q.expansions ≤ q.j + 1 then s.seqDone c q rest else s.post1 (.sequencerAccept c)

/-- The range faults of a repeated command over all its expansions: the extremes decide (R228). -/
def State.repeatFault (s : State) (c : Nat) (q : Cmd) : Option Flt :=
  if q.rep = 0 ∨ q.expansions = 0 then none
  else match s.rangeFault c q 0 0 with
    | some e => some e
    | none =>
      let j : Int := ((q.expansions - 1 : Nat) : Int)
      s.rangeFault c q (j * q.stepS) (j * q.stepD)

/-- SEQUENCER_ACCEPT (R228): the head is taken, then expanded into its queue; a command issued earlier that still waits for a
translation comes first. -/
def execSequencerAccept (c : Nat) (s : State) : Out :=
  .next (match (s.core c).seqq with
    | [] => s
    | q :: rest =>
      if q.taken then s.seqExpand c q rest
      else if (s.core c).commandAhead q.stamp then s
      else
        let k := s.core c
        if q.bad k then s.seqTrap c q rest (.illegal, 0)
        else if q.rep ≠ 0 && q.tape = 0 && k.tapeFull q.entryCount then s
        else
          let q := { q with taken := true,
                            sq := match q.sq with | some x => some x | none => if q.rep = 0 then none else some (k.sq0, k.sqv q.rep) }
          match s.repeatFault c q with
          | some e => s.seqTrap c q rest e
          | none =>
            let k := if q.rep ≠ 0 && q.tape = 0 then k.record (fun p => q.entries p) else k
            (s.setCore c { k with seqq := q :: rest }).seqExpand c q rest)

/-! ## Counters and faults (R230 to R233) -/

/-- The counter add of a command, checked when it is made (R230, R231): the fault, if any. -/
def State.counterAdd (s : State) (c : Nat) (q : Cmd) : State × Option Flt :=
  let a := q.counter
  if a = 0 then (s, none)
  else
    let at' := fun (s : State) (d : Dest) => match s.atomicAt (s.core c).field d 0 64 1 0 with
      | (s, some _) => (s, none)
      | (s, none) => (s, some (Cause.ue, a))
    match s.placeNow c (stationUnit c) a 8 3 with
    | (s, .trap e fa) => (s, some (e, fa))
    | (s, .miss _ _) => (s, some (.page, a))
    | (s, .own off) => at' s (.ls c off)
    | (s, .high off) => (s.modCore c (fun k => k.spoiled q.slot off true), none)
    | (s, .far (.imp ..)) => (s, some (.prot, a))
    | (s, .far d) => at' s d

/-- Replace the head of a queue. -/
def Core.setHead (k : Core) (q : Nat) (x : Cmd) : Core :=
  if q = 0 then { k with copyQ := putAt k.copyQ 0 x } else { k with gatQ := putAt k.gatQ 0 x }
def Core.head (k : Core) (q : Nat) : Option Cmd := if q = 0 then k.copyQ.head? else k.gatQ.head?

/-- A command leaves its queue complete: entries retirable, what waited goes on (R230, R268). -/
def State.popQueue (s : State) (c q : Nat) (id : Nat) : State :=
  let s := s.modCore c (fun k =>
    let k := k.retirable id
    if q = 0 then { k with copyQ := k.copyQ.drop 1 } else { k with gatQ := k.gatQ.drop 1 })
  let s := if (s.core c).joins = [] then s else s.post1 (.qjoinFenceComplete c)
  ((s.runQueues c).kickSeq c).checkEnd c

/-- A fault of the head: it is kept with the command until ENGINE_FAULT reports it. -/
def State.headFault (s : State) (c q : Nat) (x : Cmd) (e : Flt) (dst : Bool) : State :=
  (s.modCore c (fun k => k.setHead q { x with fault := some (e.1, e.2, dst) })).post1 (.engineFault c q)

/-- The counter add of a command is held at a core being placed (09 R265). -/
def State.addHeld (s : State) (c : Nat) (q : Cmd) : Bool := q.counter ≠ 0 && s.heldAt c q.counter

/-- The head has done its work: its counter is added to and it completes, GF set by an element fault (R234, R240), or the
add faults (R230, R231), or is held. -/
def State.finishHead (s : State) (c q : Nat) (x : Cmd) : State :=
  if s.addHeld c x then
    (s.modCore c (fun k => k.setHead q { x with addOnly := true })).post (.engineCommandComplete c q) (s.cyc + 1)
  else match s.counterAdd c x with
    | (s, none) => (s.modCore c (fun k => { k with gf := k.gf || decide (x.fv ≠ []) })).popQueue c q x.id
    | (s, some e) => s.headFault c q { x with addOnly := true } e true

/-- The engine detail of R233. -/
def Cmd.detail (q : Cmd) (queue : Nat) (dst : Bool) : Word :=
  wordN (q.wrote % 2 ^ 32 * 2 ^ 32 + q.tape % 2 ^ 16 * 2 ^ 16 + queue * 2 ^ 7 + b2n dst * 2 ^ 6 + q.fld 13 8)

/-- The thread of an engine fault parks: ready before its next issue, waiting or sleeping with its wait withdrawn, so that
what waited behind it goes on (R164); a reply still on its way finds another start of the slot. -/
def State.parkFor (s : State) (c t : Nat) : State :=
  let h := s.thr c t
  if h.st = .parked then s.modThr c t (fun h => { h with recs := h.recs + 1 })
  else
    let s := if h.st = .ready then s else s.withdrawWaits c t
    let n := h.inc + 1
    let one := fun (q : Cmd) => if q.slot = t ∧ q.inc = h.inc then { q with inc := n } else q
    let re := fun (l : List Cmd) => l.map one
    let ring := fun (r : Ring) => { r with cmd := one r.cmd }
    s.modCore c (fun k =>
      let k := { k with copyQ := re k.copyQ, gatQ := re k.gatQ, joins := re k.joins, ring := k.ring.map ring }
      k.modThr t (fun h => { h.clearPfx with
        st := .parked, wait := h.keptWait, opnd := none, pc := h.iaddr, recs := h.recs + 1, inc := n }))
      |>.dropEpisodes.pruneSerial.kickSeq c |>.wake c

/-- The record of an engine fault goes to the agent, and the issuing thread parks; of an empty slot the queue alone is
concerned (R232, R233). The record of a QJOIN that selects no queue, or both, names queue 0 (log 97). -/
def State.engineRecord (s : State) (c : Nat) (q : Cmd) (queue : Nat) (cause : Cause) (fa : Word) (dst : Bool) : State :=
  let h := s.thr c q.slot
  let gone : Bool := h.st = .empty || h.inc ≠ q.inc
  let r := mkRec (s.core c) q.slot 1 cause fa q.word gone (q.detail (if queue = 3 then 0 else queue) dst)
  let s := if gone then s else s.parkFor c q.slot
  s.sendRec c { r with queue := queue, inc := if gone then q.inc else (s.thr c q.slot).inc }

/-- ENGINE_FAULT (R231, R232): queue 0 copy, 1 gather, 2 ring, 3 a QJOIN that selects no queue. -/
def execEngineFault (c q : Nat) (s : State) : Out :=
  let k := s.core c
  .next (if q = 2 then
      match k.ring with
      | some r => match r.fault with
        | some (e, fa, d) => s.engineRecord c { r.cmd with wrote := r.filled } 2 e fa d
        | none => s
      | none => s
    else if q = 3 then
      match k.joins.find? (fun x => x.fault.isSome) with
      | some x => match x.fault with | some (e, fa, d) => s.engineRecord c x 3 e fa d | none => s
      | none => s
    else match k.head q with
      | some x => match x.fault with
        | some (e, fa, d) =>
          if (if q = 0 then k.copyHalt else k.gatHalt) then s
          else
            let both := x.op = .join
            let s := s.modCore c (fun k => { k with
              copyHalt := k.copyHalt || q = 0 || (both && wbit x.rb 0), gatHalt := k.gatHalt || q = 1 || (both && wbit x.rb 1) })
            let s := s.engineRecord c x q e fa d
            if x.op = .feeds then s.faceFault c (x.fld 3 2) else s
        | none => s
      | none => s)

/-- QJOIN_FENCE_COMPLETE (R243): a fence ahead of which every command of its queues has completed, or the oldest QJOIN that
selects no queue, adds to its counter; the others are seen to after it. One that selects no queue and whose
add faulted holds back the later ones that select none (log 97). -/
def execQjoinFenceComplete (c : Nat) (s : State) : Out :=
  let k := s.core c
  let ready := fun (x : Cmd) => x.op = .join && x.fault.isNone &&
    (!wbit x.rb 0 || (!k.copyHalt && k.copyQ.head?.map (·.id) = some x.id)) &&
    (!wbit x.rb 1 || (!k.gatHalt && k.gatQ.head?.map (·.id) = some x.id)) && !k.paused
  let l := (k.copyQ.take 1 ++ k.gatQ.take 1).filter ready ++ (k.joins.take 1).filter (fun x => x.fault.isNone)
  .next (match l.find? (fun x => !s.addHeld c x) with
    | none => if l = [] then s else s.post (.qjoinFenceComplete c) (s.cyc + 1)
    | some x =>
      let more := fun (s : State) => if l.any (fun y => y.id ≠ x.id) then s.post1 (.qjoinFenceComplete c) else s
      let none' : Bool := wbits x.rb 1 0 = 0
      match s.counterAdd c x with
      | (s, none) =>
        if none' then
          let s := s.modCore c (fun k => { k with joins := k.joins.drop 1 })
          (if (s.core c).joins = [] then more s else s.post1 (.qjoinFenceComplete c)).checkEnd c
        else
          let s := if wbit x.rb 0 then s.popQueue c 0 x.id else s
          more (if wbit x.rb 1 then s.popQueue c 1 x.id else s)
      | (s, some e) =>
        let y := { x with addOnly := true, fault := some (e.1, e.2, true) }
        let s := if none' then s.modCore c (fun k => { k with joins := y :: k.joins.drop 1 }) else s
        let s := if wbit x.rb 0 then s.modCore c (fun k => k.setHead 0 y) else s
        let s := if wbit x.rb 1 then s.modCore c (fun k => k.setHead 1 y) else s
        more (s.post1 (.engineFault c (if none' then 3 else if wbit x.rb 0 then 0 else 1))))

/-! ## Copies (R229, R232, R235, R236) -/

/-- Write an element at indices; beyond the extents it is dropped and counted (R203, R229, R266). -/
def State.writeElem (s : State) (c t u : Nat) (d : Desc) (x : Nat × Nat × Nat × Nat) (v : Nat) : State × Option Flt :=
  if !d.holds x then (s.modCore c (fun k => k.dropped 1), none)
  else
    let n := d.bytesOf
    let nib := fun (old : Nat) =>
      if d.bitsOf = 4 then (if x.1 % 2 = 0 then old / 16 * 16 + v % 16 else old % 16 + v % 16 * 16) else v
    match s.placeNow c u (d.at4 x) n 2 with
    | (s, .trap e fa) => (s, some (e, fa))
    | (s, .miss _ _) => (s, some (.page, d.at4 x))
    | (s, .own off) => (s.homeWrite (s.core c).field (.ls c off) (nib (mread (s.core c).ls off n)) (2 ^ n - 1) n, none)
    | (s, .high off) => (s.modCore c (fun k => k.spoiled t off true), none)
    | (s, .far y) => (s.homeWrite (s.core c).field y (nib (s.homeRead y n).1) (2 ^ n - 1) n, none)

/-- The 32-byte sector of an address. -/
def sectorOf (a : Word) : Word := a &&& ~~~ 31

/-- The source element at an address is uncorrectable. -/
def State.srcBad (s : State) (c : Nat) (a : Word) (n : Nat) : Bool :=
  match (s.placeNow c (stationUnit c) a n 1).2 with
  | .own off => (s.core c).lsBad off n
  | .far d => (s.homeRead d n).2
  | _ => false

/-- The sector the m-th element is read from holds an uncorrectable doubleword that the command reads there from m on:
the failing sector is left wholly unwritten (R232). -/
def State.sectorBad (s : State) (c : Nat) (q : Cmd) (m : Nat) : Bool :=
  match (q.srcAt m).elem? with
  | none => false
  | some x =>
    let sec := sectorOf (Desc.clamped q.desS x)
    let as := (upto (min 64 (q.total - m))).map (fun i => (q.srcAt (m + i)).elem?.map (Desc.clamped q.desS))
    let same := as.takeWhile (fun a => match a with | some a => sectorOf a = sec | none => false)
    !Desc.empty q.desS && same.any (fun a => match a with | some a => s.srcBad c a (Desc.bytesOf q.desS) | none => false)

/-- A write that meets no fault is dropped: beyond the implemented offsets (R266), or at a free core (R265). -/
def State.drops (s : State) (c : Nat) (a : Word) : Bool :=
  match wbits a 63 60 with
  | 0 => decide (0x6000 ≤ wbits a 14 0)
  | 1 => match (s.part (s.core c).part).named a.toNat with
    | some p => p ≠ c && p ≠ (s.core c).place && (s.core (s.locate p)).field = none
    | none => false
  | _ => false

/-- A destination element is written, and not dropped beyond an extent (R203), beyond the implemented offsets or at a free
core. -/
def State.writes (s : State) (c : Nat) (d : Desc) (x : Nat × Nat × Nat × Nat) : Bool := d.holds x && !s.drops c (d.at4 x)

/-- A copy writes an element; below the first element the write is dropped and counted (R203; log 22). -/
def State.copyWrite (s : State) (c : Nat) (q : Cmd) (v : Nat) : State × Cmd :=
  match q.dstAt q.done with
  | none => (s.modCore c (fun k => k.dropped 1), { q with done := q.done + 1 })
  | some y =>
    match s.writeElem c q.slot (stationUnit c) q.desD y v with
    | (s, some (e, fa)) => (s, { q with fault := some (e, sectorOf fa, true) })
    | (s, none) => (s, { q with done := q.done + 1, wrote := q.wrote + b2n (s.writes c q.desD y) })

/-- The destination of a copy's next element is held (R265). -/
def State.copyHeld (s : State) (c : Nat) (q : Cmd) : Bool :=
  match Desc.held? q.desD (q.dstAt q.done) with | some y => s.heldAt c (Desc.at4 q.desD y) | none => false

/-- One element of a COPY or COPY2: done one more, or a fault at its sector; nothing while a home is held (R265). What is read
below the first element is a free value (log 22). -/
def State.copyOne (s : State) (c : Nat) (q : Cmd) : State × Cmd :=
  match q.srcAt q.done with
  | .none => (s, { q with done := q.done + 1 })
  | .below => if s.copyHeld c q then (s, q) else ({ s with free := s.free + 1 } : State).copyWrite c q (Config.freeElement s.free)
  | .elem x =>
    if s.elemHeld c q.desS x || s.copyHeld c q then (s, q)
    else if s.sectorBad c q q.done then
      (s, { q with fault := some (.copyue, sectorOf (Desc.clamped q.desS x), false) })
    else match s.readElem c q.slot (stationUnit c) false q.desS x.1 x.2.1 x.2.2.1 x.2.2.2 with
      | (s, .error (e, fa)) => (s, { q with fault := some (if e = .ue then .copyue else e, sectorOf fa, false) })
      | (s, .ok v) => s.copyWrite c q v

/-- Up to n elements. -/
def State.copyRun (s : State) (c : Nat) (q : Cmd) : Nat → State × Cmd
  | 0 => (s, q)
  | n + 1 =>
    if q.fault.isSome || decide (q.total ≤ q.done) then (s, q)
    else let (s, q) := s.copyOne c q; s.copyRun c q n

/-- The elements of a COPY or COPY2 that are left; then its end, its fault, or another try while a home is held. -/
def State.copyAll (s : State) (c q : Nat) (x : Cmd) : State :=
  let (s, x) := s.copyRun c x (x.total - x.done)
  let s := s.modCore c (fun k => k.setHead q x)
  if x.fault.isSome then s.post1 (.engineFault c q)
  else if x.done < x.total then s.post (.engineCommandComplete c q) (s.cyc + 1)
  else s.finishHead c q x

/-- ENGINE_COMMAND_COMPLETE (R230): the writes left are made, the counter is added to, the command completes. -/
def execEngineCommandComplete (c q : Nat) (s : State) : Out :=
  let k := s.core c
  .next (match k.head q with
    | none => s
    | some x =>
      if (if q = 0 then k.copyHalt || k.paused else k.gatHalt || (k.paused && x.phase ≠ 2)) || x.fault.isSome then s
      else if x.addOnly then s.finishHead c q x
      else match x.op with
        | .copy => s.copyAll c q x
        | .copy2 => s.copyAll c q x
        | .feeds => if x.total ≤ x.done then s.finishHead c q x else s
        | .join => s
        | .ring => s
        | _ =>
          if x.phase = 2 then s.finishHead c q x else s)

/-! ## FEEDS (07 R217, 11 R308) -/

/-- A word of a FEEDS: its elements from a linear index on, lanes beyond the extents zero. -/
def State.feedWord (s : State) (c : Nat) (q : Cmd) : (n : Nat) → (i : Nat) → State × Except Flt Nat
  | 0, _ => (s, .ok 0)
  | n + 1, i =>
    let d : Desc := q.desS
    let x := Desc.linear d (q.ra.toNat + q.done * lanesOf d.fmt + i)
    let (s, r) := if d.holds x then s.readElem c q.slot (stationUnit c) false d x.1 x.2.1 x.2.2.1 x.2.2.2 else (s, .ok 0)
    match r with
    | .error e => (s, .error e)
    | .ok v => match s.feedWord c q n (i + 1) with
      | (s, .ok w) => (s, .ok (v + 2 ^ d.bitsOf * w))
      | e => e

/-- The tag of a word of a FEEDS: a valid bit stays while its k position has a lane within the extents, and one that has no lane
has none (R217). -/
def Cmd.feedTag (q : Cmd) : Nat :=
  let d : Desc := q.desS
  let e := lanesOf d.fmt
  let kpw := max 1 (e / 4)
  let lives := fun kk => (upto e).any (fun i => decide (i % kpw = kk) && d.holds (Desc.linear d (q.ra.toNat + q.done * e + i)))
  let tag := wbits q.rb 39 32
  bits tag 3 0 + (upto 4).foldl (fun a kk => a + (if !lives kk then 0 else bits tag (4 + kk) (4 + kk) * 2 ^ (4 + kk))) 0

/-- An element of the next word of a FEEDS is held (09 R265). -/
def State.feedHeld (s : State) (c : Nat) (q : Cmd) : Bool :=
  let d : Desc := q.desS
  (upto (lanesOf d.fmt)).any (fun i =>
    let x := Desc.linear d (q.ra.toNat + q.done * lanesOf d.fmt + i)
    d.holds x && s.elemHeld c d x)

/-- FEEDS_WORD_DELIVERY (R217, R308): the next word enters the cell's queue, two a tick at most with those of FEED. -/
def execFeedsWordDelivery (c : Nat) (s : State) : Out :=
  let k := s.core c
  .next (match k.copyQ.head? with
    | none => s
    | some x =>
      if x.op ≠ .feeds || k.copyHalt || k.paused || x.fault.isSome then s
      else if x.total ≤ x.done then s.post1 (.engineCommandComplete c 0)
      else match s.neighbour c (x.fld 3 2) with
        | none => s
        | some n =>
          let dir := x.fld 3 2
          if 8 ≤ ((s.core n).laneIn dir).length then s
          else if !k.mayFeeds dir s.cyc || s.feedHeld c x then s.post (.feedsWordDelivery c) (s.cyc + 1)
          else match s.feedWord c x (lanesOf (Desc.fmt x.desS)) 0 with
            | (s, .error (e, fa)) => s.headFault c 0 x (if e = .ue then .copyue else e, sectorOf fa) false
            | (s, .ok v) =>
              let s := (s.modCore n (fun k => k.feedIn (dir = 2) (wordN v) x.feedTag s.cyc)).checkCell n
              let y := { x with done := x.done + 1, wrote := x.wrote + lanesOf (Desc.fmt x.desS) }
              let s := s.modCore c (fun k => (k.setHead 0 y).moves (4 + dir) s.cyc)
              if y.total ≤ y.done then s.post1 (.engineCommandComplete c 0) else s.post (.feedsWordDelivery c))

/-! ## Gather, scatter, scatter-add (R240 to R242, 11 R314, R315) -/

/-- The lead engine of a core's gather queue (R314). -/
def State.leadEngine (s : State) (c : Nat) : Nat :=
  let k := s.core c
  let p := s.part k.part
  let g := p.nearGroup (dieOf c)
  let st := match (upto 4).find? (fun i => bits p.stackSet (4 * g + i) (4 * g + i) = 1) with | some i => 4 * g + i | none => 4 * g
  4 * st + k.lcn % 4

/-- A permutation of a list: the service order, which the manual does not state (log 16). -/
def permute (free : Nat) : (n : Nat) → List Nat → List Nat
  | 0, _ => []
  | _, [] => []
  | _, [x] => [x]
  | n + 1, l =>
    let i := Config.freeChoice free % l.length
    l.getD i 0 :: permute (free + 1) n (dropAt l i)

/-- The faults that are element faults (R240). -/
def elemCause (c : Cause) : Bool := match c with | .page => true | .prot => true | .keyrev => true | .collapse => true | .ue => true | _ => false

/-- Write n bytes of the packed buffer; of the last byte of an odd row of a 4-bit format its low nibble alone (R229). A
buffer misaligned for its element meets ALIGN there, and one in window 0x3 is accessed as in any other (log 76). -/
def State.bufWrite (s : State) (c t u : Nat) (a : Word) (v n : Nat) (half : Bool) : State × Option Flt :=
  let keep := fun (old : Nat) => if half then old / 16 * 16 + v % 16 else v
  match s.placeNow c u a n 2 with
  | (s, .trap e fa) => (s, some (e, fa))
  | (s, .miss _ _) => (s, some (.page, a))
  | (s, .own off) => (s.homeWrite (s.core c).field (.ls c off) (keep (mread (s.core c).ls off n)) (2 ^ n - 1) n, none)
  | (s, .high off) => (s.modCore c (fun k => k.spoiled t off true), none)
  | (s, .far d) => (s.homeWrite (s.core c).field d (keep (s.homeRead d n).1) (2 ^ n - 1) n, none)

/-- Write a list of buffer units up to the first fault: address, value, half a byte. How many were written, and the fault. -/
def State.bufWrites (s : State) (c t u n : Nat) : List (Word × Nat × Bool) → State × Nat × Option Flt
  | [] => (s, 0, none)
  | (a, v, half) :: r => match s.bufWrite c t u a v n half with
    | (s, none) => let (s, m, e) := s.bufWrites c t u n r; (s, m + 1, e)
    | (s, e) => (s, 0, e)

/-- Elements that units of a packed row hold, of those that are not dropped: two to a byte in a 4-bit format, one in the last
of an odd row. -/
def State.unitElems (s : State) (c : Nat) (d : Desc) (l : List (Word × Nat × Bool)) : Nat :=
  (l.map (fun x => if s.drops c x.1 then 0 else if d.bitsOf = 4 ∧ !x.2.2 then 2 else 1)).sum

/-- Write every unit of a list as zero, past those that fault; the elements that were written. -/
def State.zeroWrites (s : State) (c t u : Nat) (d : Desc) : List (Word × Nat × Bool) → State × Nat
  | [] => (s, 0)
  | x :: r =>
    let (s, e) := s.bufWrite c t u x.1 0 d.bytesOf x.2.2
    let (s, m) := s.zeroWrites c t u d r
    (s, if e.isNone then m + s.unitElems c d [x] else m)

/-- Local indices of element e of the row an index selects (R239), clamped (R203). -/
def Desc.rowElem (d : Desc) (x e : Nat) : Nat × Nat × Nat × Nat :=
  if d.ndim = 1 then (d.clampTo 0 x, 0, 0, 0) else (d.clampTo 0 e, d.clampTo 1 x, d.clampTo 2 0, d.clampTo 3 0)

/-- The packed units of a row: bytes of two nibbles, or elements; the last byte of an odd row is half a byte. -/
def packRow (d : Desc) (l : List Nat) : List (Nat × Bool) :=
  if d.bitsOf = 4 then
    (upto (ceilDiv l.length 2)).map (fun i => (l.getD (2 * i) 0 + 16 * l.getD (2 * i + 1) 0, decide (l.length ≤ 2 * i + 1)))
  else l.map (fun v => (v, false))

/-- Address of the packed row of an element (R239, R228). -/
def Cmd.rowAt (q : Cmd) (j : Nat) : Int := (q.rb.toNat : Int) + q.dadv + j * Desc.rowBytes q.desS

/-- The units of row j with their addresses. -/
def Cmd.rowUnits (q : Cmd) (j : Nat) (l : List Nat) : List (Word × Nat × Bool) :=
  let us := packRow q.desS l
  (upto us.length).map (fun (i : Nat) => (wordI (q.rowAt j + ((i * Desc.bytesOf q.desS : Nat) : Int)), us.getD i (0, false)))

/-- Row j faulted: the vector and efault, once (R240). -/
def State.elemFault (s : State) (c : Nat) (q : Cmd) (j : Nat) : State × Cmd :=
  if q.fv.contains j then (s, q)
  else ((s.modCore c (fun k => { k with efault := min 0xFFFF (k.efault + 1) })).modDie (dieOf c) (fun d => { d with nElem := d.nElem + 1 }),
    { q with fv := q.fv ++ [j] })

/-- An uncorrectable word met by an access of core c is reported (18 R417). -/
def State.ueMet (s : State) (c : Nat) (e : Cause) (a : Word) : State :=
  if e ≠ .ue && e ≠ .copyue then s
  else match (s.placeNow c (stationUnit c) a 1 1).2 with
    | .own off => s.ueReport (.ls c off) (s.core c).ctx
    | .far d => s.ueReport d (s.core c).ctx
    | _ => s

/-- A row met a fault: an element fault, or one that halts the queue (R232, R240). -/
def State.rowFault (s : State) (c : Nat) (q : Cmd) (j : Nat) (e : Flt) (dst : Bool) : State × Cmd :=
  if elemCause e.1 then (s.ueMet c e.1 e.2).elemFault c q j else (s, { q with fault := some (e.1, sectorOf e.2, dst) })

/-- Translate and check the elements of a row through the lead's TLB (R314, R315): where each is performed. -/
def State.rowPlaces (s : State) (c u n acc : Nat) : List Word → State × Except Flt (List Dest)
  | [] => (s, .ok [])
  | a :: r => match s.placeNow c u a n acc with
    | (s, .far d) => (match s.rowPlaces c u n acc r with | (s, .ok l) => (s, .ok (d :: l)) | e => e)
    | (s, .trap e fa) => (s, .error (e, fa))
    | (s, _) => (s, .error (.page, a))

/-- Read the packed elements of a row of the buffer. -/
def State.rowBuffer (s : State) (c u : Nat) (q : Cmd) (j : Nat) : List Nat → State × Except Flt (List Nat)
  | [] => (s, .ok [])
  | e :: r =>
    let d : Desc := q.desS
    let nib := d.bitsOf = 4
    match s.fetchBytes c q.slot u false (wordI (q.rowAt j + ((if nib then e / 2 else e * d.bytesOf : Nat) : Int))) d.bytesOf with
    | (s, .error f) => (s, .error f)
    | (s, .ok v) =>
      match s.rowBuffer c u q j r with
      | (s, .ok l) => (s, .ok ((if nib then v / 16 ^ (e % 2) % 16 else v) :: l))
      | f => f

/-- The engine that gathers a part: one of the four beside the stack that holds its 256-byte granule; which, the manual
leaves open (R314; log 16). -/
def State.engineOf (s : State) (d : Dest) : Nat :=
  match d with
  | .hbm pa _ => 4 * s.stackOf (pa / 2 ^ 40) pa + Config.freeChoice (pa / 256) % 4
  | _ => 0

/-- The 32-byte sector a part needs. -/
def Dest.sectorNo : Dest → Nat | .hbm pa _ => pa / 32 | .ls _ o => o / 32 | .imp _ _ o _ => o / 32

/-- A part goes to its engine's open window, or opens one; a window is full at 256 sectors (R314). -/
def State.passPart (s : State) (x : GatherPart) : State × GatherPart :=
  let e := s.engineOf x.dst
  let n := x.dst.sectorNo
  match s.gwins.find? (fun w => decide (w.engine = e) && decide (s.cyc < w.closes) && decide (w.sectors.length < 256)) with
  | some w =>
    let w' := { w with sectors := if w.sectors.contains n then w.sectors else w.sectors ++ [n] }
    let s := { s with gwins := s.gwins.map (fun y => if y.id = w.id then w' else y) }
    (if w'.sectors.length = 256 ∧ w.sectors.length < 256 then s.post (.gatherWindowClose e) else s, { x with win := w.id })
  | none =>
    let w : GatherWin := { id := s.nextId, engine := e, sectors := [n], closes := s.cyc + 32 }
    (({ s with gwins := s.gwins ++ [w], nextId := s.nextId + 1 } : State).post (.gatherWindowClose e) w.closes, { x with win := w.id })

/-- Several parts. -/
def State.passParts (s : State) (l : List GatherPart) : State × List GatherPart :=
  l.foldl (fun r x => let (s, y) := r.1.passPart x; (s, r.2 ++ [y])) (s, [])

/-- The lead passes row j on (R314, R315): every page of it is translated and checked first; a SCATTER's row is read from
the buffer (R241). A row without coordinates, or of an empty tensor, needs no access (R203, R250). -/
def State.sendRow (s : State) (c u : Nat) (q : Cmd) (j : Nat) : State × Cmd :=
  let d : Desc := q.desS
  let es := upto d.rowLen
  match q.rows.getD j none with
  | none => (s, { q with sent := q.sent ++ [j] })
  | some x =>
    if d.empty then
      (if q.op = .gather then s else s.modCore c (fun k => k.dropped d.rowLen), { q with sent := q.sent ++ [j] })
    else
      match if q.op = .gather then (s, .ok []) else s.rowBuffer c u q j es with
      | (s, .error e) => let (s, q) := s.rowFault c q j e false; (s, { q with sent := q.sent ++ [j] })
      | (s, .ok vs) =>
        let acc := match q.op with | .gather => 1 | .scatter => 2 | _ => 3
        match s.rowPlaces c u d.bytesOf acc (es.map (fun e => d.at4 (d.rowElem x e))) with
        | (s, .error e) => let (s, q) := s.rowFault c q j e (q.op ≠ .gather); (s, { q with sent := q.sent ++ [j] })
        | (s, .ok ds) =>
          let (s, l) := s.passParts (es.map (fun e => GatherPart.mk j e (ds.getD e (.ls 0 0)) (vs.getD e 0) 0))
          (s, { q with sent := q.sent ++ [j], parts := q.parts ++ l })

/-- An access of row j to the packed buffer is held (09 R265). -/
def State.rowHeld (s : State) (c : Nat) (q : Cmd) (j : Nat) : Bool :=
  (q.rowUnits j (List.replicate (Desc.rowLen q.desS) 0)).any (fun x => s.heldAt c x.1)

/-- Pass on the rows left, up to a fault or a buffer that is held. -/
def State.sendRows (s : State) (c u : Nat) (q : Cmd) : Nat → State × Cmd
  | 0 => (s, q)
  | n + 1 =>
    match q.todo with
    | [] => (s, q)
    | j :: r =>
      if q.op ≠ .gather && s.rowHeld c q j then (s, q)
      else
        let (s, y) := s.sendRow c u q j
        if y.fault.isSome then (s, { q with fault := y.fault }) else s.sendRows c u { y with todo := r } n

/-- The elements of row j that were read, in order: zero where none was. -/
def Cmd.rowGot (q : Cmd) (j : Nat) : List Nat :=
  (upto (Desc.rowLen q.desS)).map (fun e => ((q.got.find? (fun x => decide (x.1 = j) && decide (x.2.1 = e))).map (·.2.2)).getD 0)

/-- Row j is written as zeros; what could be written of it counts as written (R231, R240). -/
def State.zeroRow (s : State) (c u : Nat) (q : Cmd) (j : Nat) : State × Cmd :=
  let d : Desc := q.desS
  let (s, m) := s.zeroWrites c q.slot u d (q.rowUnits j (List.replicate d.rowLen 0))
  (s, { q with wrote := q.wrote + m, part := none })

/-- Row j is finished: a GATHER's is written whole, from where a fault stopped it, a faulting one as zeros (R232, R240); a
SCATTER's has been written. -/
def State.landRow (s : State) (c u : Nat) (q : Cmd) (j : Nat) : State × Cmd :=
  let d : Desc := q.desS
  let from' := match q.part with | some (i, m) => if i = j then m else 0 | none => 0
  if q.op ≠ .gather then (s, q)
  else if q.fv.contains j then s.zeroRow c u q j
  else
    let us := q.rowUnits j (q.rowGot j)
    match s.bufWrites c q.slot u d.bytesOf (us.drop from') with
    | (s, m, none) => (s, { q with wrote := q.wrote + s.unitElems c d ((us.drop from').take m), part := none })
    | (s, m, some e) =>
      if elemCause e.1 then
        let (s, q) := s.rowFault c q j e true
        s.zeroRow c u { q with wrote := q.wrote - s.unitElems c d (us.take from') } j
      else
        s.rowFault c { q with wrote := q.wrote + s.unitElems c d ((us.drop from').take m), part := some (j, from' + m) } j e true

/-- Finish the rows passed on of which no part is left, up to a fault or a buffer that is held. -/
def State.landRows (s : State) (c u : Nat) (q : Cmd) : List Nat → State × Cmd
  | [] => (s, q)
  | j :: r =>
    if q.parts.any (fun x => decide (x.row = j)) || (q.op = .gather && s.rowHeld c q j) then s.landRows c u q r
    else
      let (s, q) := s.landRow c u q j
      if q.fault.isSome then (s, q)
      else s.landRows c u { q with sent := q.sent.filter (fun i => i ≠ j), got := q.got.filter (fun x => x.1 ≠ j) } r

/-- The fault vector is written (R240). -/
def State.writeVector (s : State) (c : Nat) (q : Cmd) : State :=
  let v := q.fv.foldl (fun a j => if bits a j j = 1 then a else a + 2 ^ j) 0
  s.homeWrite (s.core c).field (.ls c q.fvAt) v (2 ^ q.fvBytes - 1) q.fvBytes

/-- The head of the gather queue goes on: rows are passed on and finished; after the last the vector is written. -/
def State.gatherOn (s : State) (c : Nat) (q : Cmd) : State :=
  let u := gatherUnit (s.leadEngine c)
  let (s, q) := s.sendRows c u q q.todo.length
  let (s, q) := if q.fault.isSome then (s, q) else s.landRows c u q q.sent
  let put := fun (s : State) (q : Cmd) => s.modCore c (fun k => k.setHead 1 q)
  if q.fault.isSome then (put s q).post1 (.engineFault c 1)
  else if q.todo = [] ∧ q.sent = [] then
    (put (s.writeVector c q) { q with phase := 2 }).post (.engineCommandComplete c 1) (s.cyc + 1)
  else if q.todo ≠ [] ∨ q.parts = [] then (put s q).post (.gatherLead c) (s.cyc + 1)
  else put s q

/-- GATHER_LEAD (R314): the lead reads each index once, all of them in one action (log 93), and passes the rows on; a row whose
index is uncorrectable is as one whose element is (R240; log 49). -/
def execGatherLead (c : Nat) (s : State) : Out :=
  let k := s.core c
  .next (match k.gatQ.head? with
    | none => s
    | some x =>
      if !x.family || k.gatHalt || x.fault.isSome then s
      else if x.phase = 1 then s.gatherOn c x
      else if x.phase ≠ 0 || k.paused then s
      else
        let n := x.total
        let offs := (upto n).map (fun (j : Nat) => low ((x.list : Int) + 4 * (x.sadv + (j : Int))) 15)
        let rows : List (Option Nat) :=
          if x.drawn then (upto n).map (fun j => ((x.coords.drop j).head?).map (·.2))
          else offs.map (fun o => if k.lsBad o 4 then none else some (mread k.ls o 4))
        let bad := if x.drawn then [] else (upto n).filter (fun j => k.lsBad (offs.getD j 0) 4)
        let todo := permute s.free n ((upto n).filter (fun j => !bad.contains j))
        let s := bad.foldl (fun s j => s.ueReport (.ls c (offs.getD j 0)) k.ctx) { s with free := s.free + n }
        let (s, y) := bad.foldl (fun (r : State × Cmd) j => r.1.elemFault c r.2 j) (s, { x with phase := 1, rows := rows, todo := todo, sent := bad })
        s.gatherOn c y)

/-- A part is performed at its home: a GATHER's element is read, a SCATTER's written, a SCATADD's added (R240 to R242). -/
def State.servePart (s : State) (c : Nat) (q : Cmd) (x : GatherPart) : State × Cmd :=
  let d : Desc := q.desS
  let n := d.bytesOf
  match q.op with
  | .gather =>
    let (v, bad) := s.homeRead x.dst n
    if bad then (s.ueReport x.dst (s.core c).ctx).elemFault c q x.row
    else (s, { q with got := q.got ++ [(x.row, x.elem, d.part (d.rowElem ((q.rows.getD x.row none).getD 0) x.elem).1 v)] })
  | .scatter =>
    let i0 := (d.rowElem ((q.rows.getD x.row none).getD 0) x.elem).1
    let old := (s.homeRead x.dst n).1
    let v := if d.bitsOf = 4 then (if i0 % 2 = 0 then old / 16 * 16 + x.v % 16 else old % 16 + x.v % 16 * 16) else x.v
    (s.homeWrite (s.core c).field x.dst v (2 ^ n - 1) n, { q with wrote := q.wrote + 1 })
  | _ =>
    match s.atomicAt (s.core c).field x.dst (if d.fmt = 10 then 10 else 0) d.bitsOf x.v 0 with
    | (s, some _) => (s, { q with wrote := q.wrote + 1 })
    | (s, none) => (s.ueReport x.dst (s.core c).ctx).elemFault c q x.row

/-- Up to n parts of a core's gather command that a test selects are performed, in the order they were passed on; then the
rows they finish. -/
def State.serveParts (s : State) (c : Nat) (p : GatherPart → Bool) (n : Nat) : State :=
  match (s.core c).gatQ.head? with
  | none => s
  | some q =>
    let l := (q.parts.filter p).take n
    if l = [] then s
    else
      let (s, q) := l.foldl (fun (r : State × Cmd) x => r.1.servePart c r.2 x) (s, q)
      let q := { q with parts := q.parts.filter (fun x => !l.contains x) }
      let s := s.modCore c (fun k => k.setHead 1 q)
      if (s.core c).gatHalt || q.fault.isSome then s else s.gatherOn c q

/-- GATHER_WINDOW_CLOSE (R314): the oldest window of engine e that is full, or 32 ticks old, closes and its parts are
performed. -/
def execGatherWindowClose (e : Nat) (s : State) : Out :=
  .next (match takeFirst (fun w => decide (w.engine = e) && (decide (w.closes ≤ s.cyc) || decide (256 ≤ w.sectors.length))) s.gwins with
    | none => s
    | some (w, rest) =>
      let cs := (s.cores.filter (fun k => match k.2.gatQ with | q :: _ => q.parts.any (fun x => decide (x.win = w.id)) | [] => false)).map (·.1)
      cs.foldl (fun s c => s.serveParts c (fun x => decide (x.win = w.id)) (16384 * 4096)) { s with gwins := rest })

/-! ## The copy ring (R237, R238, R312, R313) -/

/-- Elements of a chunk, and the descriptor of a stage (R237). -/
def Cmd.chunk (q : Cmd) : Nat := Desc.size q.desD
def Cmd.stage (q : Cmd) (j : Nat) : Int := ((j % max 1 q.ringMax * 64 * q.ringStride : Nat) : Int)

/-- Address of an element of a chunk's stage. -/
def Cmd.stageAddr (q : Cmd) (j : Nat) (x : Nat × Nat × Nat × Nat) : Word :=
  Desc.addrAt q.desD (q.stage j) x.1 x.2.1 x.2.2.1 x.2.2.2

/-- The descriptor of a chunk's stage: D with its base moved. -/
def Cmd.stageDesc (q : Cmd) (j : Nat) : Desc := putAt q.desD 1 (Desc.base q.desD + wordI (q.stage j))

/-- The copy a chunk is: C elements from linear index j × C into its stage. -/
def Ring.copy (r : Ring) : Cmd :=
  let c := r.cmd.chunk
  -- a COPY of c elements, first 0; c is unbounded (00 R11)
  { r.cmd with word := 0xB4000000, rb := 0, count := some c, sadv := ((r.filled * c : Nat) : Int), dadv := 0,
               desD := r.cmd.stageDesc r.filled, done := r.part }

/-- RING_CHUNK_START (R237): the stage is released and qdepth allows; the chunk holds its ranges in the scoreboard. -/
def execRingChunkStart (c : Nat) (s : State) : Out :=
  let k := s.core c
  .next (match k.ring with
    | none => s
    | some r =>
      if r.since.isSome || r.fault.isSome || k.paused || decide (r.cmd.total ≤ r.filled) then s
      else if r.released + r.cmd.ringMax ≤ r.filled || k.qdepth < r.filled + 1 - r.released then s
      else
        let rs := s.ranges c r.copy
        if 8 < k.scb.length + rs.length then s.post (.ringChunkStart c) (s.cyc + 1)
        else
          (s.modCore c (fun k => { k with
            scb := k.scb ++ rs.map (fun (x : Nat × Nat) => SbEntry.mk x.1 x.2 r.cmd.id false),
            ring := some { r with since := some s.cyc, part := 0 } })).post (.ringChunkComplete c) (s.cyc + 1))

/-- qdepth after a completion (R312). -/
def Ring.depth (r : Ring) (q : Nat) : Nat :=
  match r.adv0, r.adv1 with
  | some a, some b =>
    let target := max r.cmd.ringMin (min r.cmd.ringMax (ceilDiv r.fill (max (b - a) 1) + 1))
    if q < target then q + 1 else if target < q then q - 1 else q
  | _, _ => q

/-- RING_CHUNK_COMPLETE (R237, R312): the chunk's elements, its counter add, qdepth. -/
def execRingChunkComplete (c : Nat) (s : State) : Out :=
  .next (match (s.core c).ring with
    | none => s
    | some r =>
      match r.since with
      | none => s
      | some t =>
        if r.fault.isSome || (s.core c).paused then s
        else
          let (s, q) := if r.addOnly then (s, { r.copy with done := r.cmd.chunk }) else s.copyRun c r.copy (r.cmd.chunk - r.part)
          let fail := fun (s : State) (r : Ring) => (s.modCore c (fun k => { k with ring := some r })).post1 (.engineFault c 2)
          if q.fault.isSome then fail s { r with part := q.done, fault := q.fault }
          else if q.done < r.cmd.chunk || s.addHeld c r.cmd then
            (s.modCore c (fun k => { k with ring := some { r with part := q.done } })).post (.ringChunkComplete c) (s.cyc + 1)
          else match s.counterAdd c r.cmd with
            | (s, some (e, fa)) => fail s { r with part := q.done, addOnly := true, fault := some (e, fa, true) }
            | (s, none) =>
              let r := { r with filled := r.filled + 1, part := 0, since := none, addOnly := false, fill := s.cyc - t }
              let s := s.modCore c (fun k =>
                let k := (k.remember s.cyc 0x34 (wordN k.qdepth)).retirable r.cmd.id
                { k with ring := some r, qdepth := r.depth k.qdepth })
              (s.wake c).post (.ringChunkStart c))

def isRingadv : Instr → Bool | .ringadv _ => true | _ => false

def execRingadv (d : Reg) (s : State) : Out :=
  let c := s.cur.1
  .next (match s.me.ring with
    | none => s.retireWith d 0
    | some r =>
      if s.me.ahead s.cur.2 isRingadv then s.block (.ringadv d)
      else
        let r := if r.held then { r with held := false, released := r.released + 1 } else r
        if r.cmd.total ≤ r.released then
          let s := s.modMe (fun k => { (k.retirable r.cmd.id) with ring := none })
          (((s.retireWith d 0).wake c).kickSeq c).checkEnd c
        else if r.released < r.filled then
          let r' := { r with held := true, adv0 := r.adv1, adv1 := some s.cyc }
          (((s.modMe (fun k => { k with ring := some r' })).retireWith d (r.cmd.stageAddr r.released (0, 0, 0, 0))).post1
            (.ringChunkStart c)).wake c
        else ((s.modMe (fun k => { k with ring := some r })).post1 (.ringChunkStart c)).block (.ringadv d))

/-! ## Work in parts -/

/-- The element a copy is to write next lies in the destination sector of the one before. -/
def Cmd.midSector (q : Cmd) : Bool :=
  match Desc.held? q.desD (q.dstAt (q.done - 1)), Desc.held? q.desD (q.dstAt q.done) with
  | some x, some y =>
    decide (0 < q.done) && decide (q.done < q.total) && decide (sectorOf (Desc.at4 q.desD x) = sectorOf (Desc.at4 q.desD y))
  | _, _ => false

/-- A copy goes on to the end of the destination sector it is in (R352, 19 R436). -/
def State.copyToSector (s : State) (c : Nat) (q : Cmd) : Nat → State × Cmd
  | 0 => (s, q)
  | n + 1 => if q.fault.isSome || !q.midSector then (s, q) else let (s, q) := s.copyOne c q; s.copyToSector c q n

/-- The head of the copy queue after part of its work: its fault if it met one. -/
def State.copyLeft (s : State) (c : Nat) (x : Cmd) : State :=
  let s := s.modCore c (fun k => k.setHead 0 x)
  if x.fault.isSome then s.post1 (.engineFault c 0) else s

/-- The ring's chunk after part of its work. -/
def State.ringLeft (s : State) (c : Nat) (r : Ring) (x : Cmd) : State :=
  let s := s.modCore c (fun k => { k with ring := some { r with part := x.done, fault := x.fault } })
  if x.fault.isSome then s.post1 (.engineFault c 2) else s

/-- The copy at the head of the copy queue that may move now; the ring with a chunk in progress. -/
def Core.copying (k : Core) : Option Cmd :=
  match k.copyQ with
  | x :: _ => if k.copyHalt || x.addOnly || x.fault.isSome || !(x.op = .copy || x.op = .copy2) then none else some x
  | [] => none
def Core.filling (k : Core) : Option Ring :=
  match k.ring with
  | some r => if r.since.isNone || r.addOnly || r.fault.isSome then none else some r
  | none => none

/-- The copy queue and the ring reach a sector boundary, where they pause (15 R352, 19 R436). -/
def State.toSector (s : State) (c : Nat) : State :=
  let s := match (s.core c).copying with
    | some x => let (s, y) := s.copyToSector c x 64; s.copyLeft c y
    | none => s
  match (s.core c).filling with
  | some r => let (s, y) := s.copyToSector c r.copy 64; s.ringLeft c r y
  | none => s

/-- A part of a gather command is in a window that may close. -/
def State.due (s : State) (x : GatherPart) : Bool :=
  s.gwins.all (fun w => decide (w.id ≠ x.win) || decide (w.closes ≤ s.cyc) || decide (256 ≤ w.sectors.length))

/-- An engine queue moves up to n elements on (R226, R229, 11 R314): 0 copy, 1 gather, 2 ring. -/
def State.progress (s : State) (c q n : Nat) : State :=
  match q with
  | 0 => (match (s.core c).copying with
    | some x => if (s.core c).paused then s else let (s, y) := s.copyRun c x (min n (x.total - x.done)); s.copyLeft c y
    | none => s)
  | 1 => s.serveParts c s.due n
  | _ => (match (s.core c).filling with
    | some r => if (s.core c).paused then s else let (s, y) := s.copyRun c r.copy (min n (r.cmd.chunk - r.part)); s.ringLeft c r y
    | none => s)

/-- The paused queues of a core resume where they stopped (15 R352, 19 R436). -/
def State.resumeQueues (s : State) (c : Nat) : State :=
  let s := (s.runQueues c).kickSeq c
  if (s.core c).ring.isSome then (s.post1 (.ringChunkStart c)).post1 (.ringChunkComplete c) else s

/-- Reopen a halted queue after its fault is settled by replay: the command goes on at its failing sector, or makes its
add alone (R231, R232, R313). A fence that stands in both queues halted both. Queue 3 is a QJOIN that selects none. -/
def State.reopen (s : State) (c q : Nat) : State :=
  let clear := fun (x : Cmd) => { x with fault := none }
  match q with
  | 2 => (s.modCore c (fun k => { k with ring := k.ring.map (fun r => { r with fault := none }) })).post1 (.ringChunkComplete c)
  | 3 => (s.modCore c (fun k => { k with joins := k.joins.map clear })).post1 (.qjoinFenceComplete c)
  | _ =>
    let s := s.modCore c (fun k =>
      let both : Bool := match k.head q with | some x => x.op = .join && wbits x.rb 1 0 = 3 | none => false
      let k := if q = 0 || both then { k with copyHalt := false, copyQ := k.copyQ.map clear } else k
      if q = 1 || both then { k with gatHalt := false, gatQ := k.gatQ.map clear } else k)
    s.runQueues c

/-! ## Deque instructions (R253 to R255) -/

def execDqpush (d a b : Reg) (s : State) : Out :=
  let (x, y) := (wbits (s.readReg a) 31 0, wbits (s.readReg b) 31 0)
  .next (if y ≤ x then s.retireWith d 2
    else if 32 ≤ s.me.deque.length then s.retireWith d 1
    else (s.modMe (fun k => { k with deque := (x, y) :: k.deque })).retireWith d 0)

def execDqpop (d : Reg) (s : State) : Out :=
  .next (match s.me.deque with
    | [] => s.retireWith d (BitVec.allOnes 64)
    | r :: l => (s.modMe (fun k => { k with deque := l })).retireWith d (wordN (packRange r)))

def execDqsplit (d : Reg) (s : State) : Out :=
  .next (match s.me.deque with
    | [] => s.retireWith d 2
    | (x, y) :: l =>
      let half := (y - x) / 2
      if half = 0 then s.retireWith d 2
      else if 32 ≤ s.me.deque.length then s.retireWith d 1
      else (s.modMe (fun k => { k with deque := (x, x + half) :: (x + half, y) :: l })).retireWith d 0)

def execDqcount (d : Reg) (s : State) : Out := .next (s.retireWith d (wordN s.me.deque.length))

def execDqsteal (d a : Reg) (s : State) : Out :=
  let lcn := (s.readReg a).toNat
  .next (if s.me.fw * s.me.fh ≤ lcn then s.trap .prot else s.request s.cur.1 s.cur.2 d (.steal lcn) 0)

end Sys2Proof.Machine
end

