-- ==== Sys2Proof/Machine/Tapes.lean ====
section
/-! DEFINITION. Replay of a tape (08 R262): the checks, the entries performed, TPLAY; the same checks for a replay the
scheduler issues (15 R349). -/

namespace Sys2Proof.Machine

/-- How the checks end early: a fault of a read, with the entry it concerns (0: header, CRC or patch block; else the
index + 1), or a code and such an entry. -/
inductive TapeEnd where
  | flt (e : Flt) (idx : Nat)
  | code (n idx : Nat)
  /-- The scheduler could not read the patch block (15 R349). -/
  | noPatch
  /-- An own access under the range scoreboard: the TPLAY waits (09 R269). -/
  | held
  /-- An access to a core being placed: the replay waits (09 R265). -/
  | away
  deriving DecidableEq, Repr

/-- Read n doublewords at an address. -/
def State.readDws (s : State) (c t : Nat) (a : Word) : Nat → State × Except Flt (List Word)
  | 0 => (s, .ok [])
  | n + 1 =>
    match s.fetchBytes c t (stationUnit c) true a 8 with
    | (s, .error e) => (s, .error e)
    | (s, .ok v) =>
      match s.readDws c t (a + 8) n with
      | (s, .ok l) => (s, .ok (wordN v :: l))
      | e => e

/-- An own range is under the scoreboard. -/
def State.rangeHeld (s : State) (c : Nat) (a : Word) (n : Nat) : Bool :=
  match s.ownOff c a with | some o => (s.core c).scbHit o n | none => false

/-- What keeps n bytes at an address from being read now: the range scoreboard, or a core being placed. -/
def State.readWaits (s : State) (c : Nat) (a : Word) (n : Nat) : Option TapeEnd :=
  if s.rangeHeld c a n then some .held
  else if wbits a 63 60 = 1 && (upto (ceilDiv n 32)).any (fun i => s.heldAt c (a + wordN (32 * i))) then some .away
  else none

/-- The entries of doublewords. -/
def pairUp : List Word → List TEntry
  | a :: b :: r => (a, b) :: pairUp r
  | _ => []

/-- Check 1 of R262 on the header's doublewords. -/
def headerBad (h : List Word) : Bool :=
  let d := fun i => h.getD i 0
  wbits (d 0) 31 0 ≠ 0x45504154 || wbits (d 0) 47 32 ≠ 1 || wbits (d 0) 63 49 ≠ 0 || decide (65536 < wbits (d 1) 31 0) ||
    decide (32 < wbits (d 2) 7 0) || wbits (d 2) 31 8 ≠ 0 || (h.drop 3).any (fun w => w ≠ 0)

/-- The command of a recorded word: its operand positions, and whether it is a TLD; none for another word (R228, R257). -/
def tapeCommand (w : BitVec 32) : Option (List Nat × Bool) :=
  match decodeWord w with
  | .error _ => none
  | .ok i =>
    let rep := fun (l : List Nat) (q : BitVec 2) => if q = 0 then l else l ++ [3, 4]
    match i with
    | .copyElems _ _ _ _ q => some (rep [0, 1] q, false)
    | .copy2 _ _ _ _ q => some (rep [0, 1] q, false)
    | .copyring .. => some ([0, 1], false)
    | .gather _ _ _ _ q => some (rep [0, 1, 2] q, false)
    | .scatter _ _ _ _ q => some (rep [0, 1, 2] q, false)
    | .scatadd _ _ _ _ q => some (rep [0, 1, 2] q, false)
    | .qjoin .. => some ([0, 1], false)
    | .feeds .. => some ([0, 1, 2], false)
    | .tld .. => some ([0], true)
    | _ => none

/-- The fields of an entry by its kind (R258, check 3). -/
def entryBad (e : TEntry) : Bool :=
  let k := entKind e
  k = 0 || decide (5 ≤ k) || wbits e.1 63 49 ≠ 0 || wbits e.1 39 36 ≠ 0 || (k ≠ 1 && wbits e.1 31 0 ≠ 0) ||
    (if k = 2 then decide (4 < entPos e) else entPos e ≠ 0 || entP e) ||
    (entPslot e ≠ 0 && !(k = 3 || (k = 2 && entP e)))

/-- A recorded command and the entries of its operands, by position; the index of its entry. -/
structure TapeCmd where
  idx : Nat
  word : BitVec 32
  ops : List (Nat × TEntry)
  tld : Bool
  ver : Nat
  deriving DecidableEq, Repr

/-- What the entries of a tape must be next: anything that may begin, operands of a command, or a TLD's version. -/
inductive TapeWant where
  | free
  | ops (c : TapeCmd) (left : List Nat)
  | ver (c : TapeCmd)
  deriving DecidableEq, Repr

/-- After a command's operands. -/
def TapeWant.next (c : TapeCmd) : TapeWant := if c.tld then .ver c else .free

/-- What follows a command entry: its operand entries at these positions, and a TLD's version entry (R257). -/
def followed : List Nat → Bool → List TEntry → Bool
  | p :: ps, tld, e :: r => entKind e = 2 && entPos e = p && followed ps tld r
  | [], true, e :: _ => entKind e = 4
  | [], false, _ => true
  | _, _, [] => false

/-- Parse the entries (check 3): the commands in order, or the index + 1 of the first failing entry. A command entry not
followed at once by exactly its operand and version entries fails itself (log 45). -/
def parseTape : List TEntry → Nat → TapeWant → List TapeCmd → Except Nat (List TapeCmd)
  | [], _, .free, acc => .ok acc
  | [], _, .ops c _, _ => .error (c.idx + 1)
  | [], _, .ver c, _ => .error (c.idx + 1)
  | e :: r, i, want, acc =>
    match want with
      | .free =>
        if entryBad e then .error (i + 1)
        else if entKind e = 3 then parseTape r (i + 1) .free acc
        else if entKind e ≠ 1 then .error (i + 1)
        else match tapeCommand (e.1.setWidth 32) with
          | none => .error (i + 1)
          | some (ps, tld) =>
            if followed ps tld r then parseTape r (i + 1) (.ops ⟨i, e.1.setWidth 32, [], tld, 0⟩ ps) acc else .error (i + 1)
      | .ops c [] => .error (c.idx + 1)
      | .ops c (_ :: ps) =>
        if entryBad e then .error (i + 1)
        else
          let c := { c with ops := c.ops ++ [(i, e)] }
          if ps ≠ [] then parseTape r (i + 1) (.ops c ps) acc
          else if c.tld then parseTape r (i + 1) (.ver c) acc
          else parseTape r (i + 1) .free (acc ++ [c])
      | .ver c =>
        if entryBad e then .error (i + 1)
        else parseTape r (i + 1) .free (acc ++ [{ c with ver := e.2.toNat }])

/-- Check 4: the first patch reference out of range, as index + 1. -/
def badRef (np : Nat) (patch : List Word) (l : List TEntry) : Option Nat :=
  (upto l.length).find? (fun i => let e := l.getD i (0, 0)
    entKind e = 2 && entP e && (decide (np ≤ entPslot e) || patch.getD (entPslot e) 0 = 0))

/-- Check 5: the first guard that does not hold. -/
def badGuard (np : Nat) (patch : List Word) (l : List TEntry) : Option Nat :=
  (upto l.length).find? (fun i => let e := l.getD i (0, 0)
    entKind e = 3 && (decide (np ≤ entPslot e) || patch.getD (entPslot e) 0 ≠ e.2))

/-- An operand's value at replay. -/
def operandValue (patch : List Word) (e : TEntry) : Word := if entP e then patch.getD (entPslot e) 0 + e.2 else e.2

/-- A command ready to be performed. -/
def TapeCmd.item (c : TapeCmd) (patch : List Word) : TapeItem :=
  let v := fun (p : Nat) => match c.ops.find? (fun o => decide (entPos o.2 = p)) with | some o => operandValue patch o.2 | none => 0
  { idx := c.idx, word := c.word, vals := [v 0, v 1, v 2], sq0 := v 3, sqr := v 4, ver := c.ver }

/-- True of an item that is a TLD. -/
def TapeItem.tld (i : TapeItem) : Bool := match tapeCommand i.word with | some (_, b) => b | none => false

/-- Check 6: the versions of the TLDs' descriptors. -/
def State.checkVersions (s : State) (c t : Nat) : List TapeItem → State × Option TapeEnd
  | [] => (s, none)
  | i :: r =>
    if !i.tld then s.checkVersions c t r
    else match s.readWaits c (i.vals.headD 0) 64 with
    | some w => (s, some w)
    | none => match s.fetchBytes c t (stationUnit c) true (i.vals.headD 0) 64 with
      | (s, .error e) => (s, some (.flt e (i.idx + 1)))
      | (s, .ok v) => if v / 2 ^ 32 % 2 ^ 32 = i.ver then s.checkVersions c t r else (s, some (.code 2 (i.idx + 3)))

/-- The patch block as the scheduler has read it, none when it could not (15 R349), or where a thread reads it. -/
inductive PatchFrom where
  | given (l : Option (List Word))
  | at' (b : Word)
  deriving DecidableEq, Repr

/-- The 32 doublewords of a patch block. -/
def State.patchBlock (s : State) (c t : Nat) : PatchFrom → State × Except TapeEnd (List Word)
  | .given (some l) => (s, .ok l)
  | .given none => (s, .error .noPatch)
  | .at' b =>
    match s.readWaits c b 256 with
    | some w => (s, .error w)
    | none => match s.readDws c t b 32 with
      | (s, .error e) => (s, .error (.flt e 0))
      | (s, .ok l) => (s, .ok l)

/-- Checks 1 to 6 of R262 on the tape at a. -/
def State.checkTape (s : State) (c t : Nat) (a : Word) (src : PatchFrom) : State × Except TapeEnd (List TapeItem) :=
  match s.readWaits c a 64 with
  | some w => (s, .error w)
  | none => match s.readDws c t a 8 with
    | (s, .error e) => (s, .error (.flt e 0))
    | (s, .ok h) =>
      if headerBad h then (s, .error (.code 5 0))
      else
        let n := wbits (h.getD 1 0) 31 0
        let np := wbits (h.getD 2 0) 7 0
        if wbit (h.getD 0 0) 48 then (s, .error (.code 3 0))
        else match s.readWaits c (a + 64) (16 * n) with
        | some w => (s, .error w)
        | none => match s.readDws c t (a + 64) (2 * n) with
          | (s, .error e) => (s, .error (.flt e 0))
          | (s, .ok ws) =>
            if crc32 (ws.flatMap (fun w => bytesLE w.toNat 8)) ≠ wbits (h.getD 1 0) 63 32 then (s, .error (.code 3 0))
            else
              let es := pairUp ws
              match parseTape es 0 .free [] with
              | .error i => (s, .error (.code 5 i))
              | .ok cs =>
                match s.patchBlock c t src with
                | (s, .error e) => (s, .error e)
                | (s, .ok p) =>
                  match badRef np p es, badGuard np p es with
                  | some i, _ => (s, .error (.code 4 (i + 1)))
                  | none, some i => (s, .error (.code 1 (i + 1)))
                  | none, none =>
                    let items := cs.map (fun x => x.item p)
                    match s.checkVersions c t items with
                    | (s, some e) => (s, .error e)
                    | (s, none) => (s, .ok items)

/-- The result of a TPLAY (R262). -/
def tapeResult (n idx : Nat) : Word := wordN (n + 2 ^ 32 * idx)

/-- A replay stops with a result: TPLAY completes; a scheduler replay leaves its fault to the fall-back (R350): the first
core in lcn order names it. -/
def State.replayStop (s : State) (c t : Nat) (rd : Option Reg) (r : Word) : State :=
  match rd with
  | some d => s.modThr c t (fun h => (h.setReg d r).retire)
  | none =>
    let k := s.core c
    let i := k.field.getD 0
    let s := s.modCore c (fun k => k.modThr t Thread.emptied)
    if r = 0 then (s.gangerGone c).slotFreed c
    else
      (s.modField i (fun f => { f with
        stage := .fallback, fmodes := if f.stage = .fallback then f.fmodes else (s.part f.part).modes, reread := true, flcn := min f.flcn k.lcn, rcode := if k.lcn < f.flcn then r.toNat else f.rcode })).post1 (.replayFallback i)

/-- The fault a replayed command meets as if its thread had issued it (R227): ILLEGAL, a FEEDS toward no neighbour (07
R217), its counter, its own ranges. -/
def State.playFault (s : State) (c : Nat) (q : Cmd) : State × Option Flt :=
  let feeds : Bool := q.op = .feeds
  let dir := q.fld 3 2
  if (feeds && dir ≠ 1 && dir ≠ 2) || q.bad (s.core c) then (s, some (.illegal, 0))
  else if feeds && s.neighbour c dir = none then (s, some (.prot, 0))
  else if q.counter = 0 then (s, s.issueFault c q)
  else match s.placeNow c (stationUnit c) q.counter 8 3 with
    | (s, .trap e fa) => (s, some (e, fa))
    | (s, .far (.imp ..)) => (s, some (.prot, q.counter))
    | (s, _) => (s, s.issueFault c q)

/-- Perform one item of a replay (R262): a TLD at once, when its descriptor can be read, a command through the sequencer, as
if its thread had issued it. A descriptor read again that R204 refuses is ILLEGAL, as at any TLD (log 101). A
remote one is read at home, merged with the core's write set, and not through the phase buffer (log 107). -/
def State.playItem (s : State) (c t : Nat) (rd : Option Reg) (i : TapeItem) (rest : List TapeItem) : State :=
  let v := fun n => i.vals.getD n 0
  if i.tld && (s.readWaits c (v 0) 64).isSome then s.push1 (.resume c t) (s.cyc + 1)
  else
  let s := s.modThr c t (fun h => { h with wait := .tplay rd rest })
  if i.tld then
    match s.fetchBytes c t (stationUnit c) true (v 0) 64 with
    | (s, .error _) => s.replayStop c t rd (tapeResult 6 (i.idx + 1))
    | (s, .ok b) =>
      let d := unpackWords b
      if Desc.version d ≠ i.ver then s.replayStop c t rd (tapeResult 2 (i.idx + 3))
      else if Desc.illegal d then s.trapOf c t .illegal 0
      else (s.modCore c (fun k => { k with tens := tset k.tens (bits i.word.toNat 7 4) d })).push (.resume c t)
  else
    let q : Cmd := { slot := t, inc := (s.thr c t).inc, word := i.word, ra := v 0, rb := v 1, rc := v 2, stamp := (s.thr c t).stamp,
                     tape := i.idx + 1 }
    let q := { q with sq := if q.rep = 0 then none else some (i.sq0, i.sqr) }
    match s.playFault c q with
    | (s, some (e, fa)) =>
      let s := s.trapOf c t e fa
      if q.op = .feeds then s.faceFault c (q.fld 3 2) else s
    | (s, none) => (s.modCore c (fun k => { k with seqq := insertCmd k.seqq q })).post1 (.sequencerAccept c)

/-- The scheduler's TPLAY is performed again whole after a record was settled by replay (R349, 18 R394): its checks, then
its items. -/
def State.playAgain (s : State) (c t : Nat) : State :=
  match (s.core c).field.bind (tfind s.fields) with
  | none => s
  | some f =>
    match s.checkTape c t (wordN (f.tapes.getD (s.core c).lcn 0)) (.given f.patch) with
    | (s, .ok items) => (s.modThr c t (fun h => { h with wait := .tplay none items })).push (.resume c t)
    | (s, .error .held) => s.push1 (.resume c t) (s.cyc + 1)
    | (s, .error .away) => s.push1 (.resume c t) (s.cyc + 1)
    | (s, .error (.code n i)) => s.replayStop c t none (tapeResult n i)
    | (s, .error (.flt _ i)) => s.replayStop c t none (tapeResult 6 i)
    | (s, .error .noPatch) => s.replayStop c t none (tapeResult 6 0)

/-- A replay goes on: its next item, or its end. -/
def State.playNext (s : State) (c t : Nat) : State :=
  match (s.thr c t).wait with
  | .tplay none l =>
    -- another core of the field has met a replay fault: no further entry is performed (15 R350)
    let stop : Bool := match (s.core c).field with
      | some f => (match tfind s.fields f with | some x => x.stage = .fallback | none => true)
      | none => true
    if stop then s.modCore c (fun k => k.modThr t Thread.emptied)
    else match l with
      | [] => s.replayStop c t none 0
      | i :: r => if i.word = 0 then s.playAgain c t else s.playItem c t none i r
  | .tplay rd [] => s.replayStop c t rd 0
  | .tplay rd (i :: r) => s.playItem c t rd i r
  | _ => s

def execTplay (d a b : Reg) (s : State) : Out :=
  let (x, y) := (s.readReg a, s.readReg b)
  let (c, t) := s.cur
  .next (if x.toNat % 64 ≠ 0 then s.trap .align x
    else if y.toNat % 8 ≠ 0 then s.trap .align y
    else match s.checkTape c t x (.at' y) with
      | (s, .error .held) => s.block (.tplay d a b)
      | (s, .error .away) => (s.block (.tplay d a b)).push (.resume c t) (s.cyc + 1)
      | (s, .error .noPatch) => s.trap .prot y
      | (s, .error (.flt e _)) => s.trap e.1 e.2
      | (s, .error (.code n i)) => s.replied [(d, tapeResult n i)]
      | (s, .ok items) => (s.await (.tplay (some d) items)).push (.resume c t))

end Sys2Proof.Machine
end

