-- ==== Sys2Proof/Machine/Fetch.lean ====
section
/-! DEFINITION. Window transfers (01 R26, R27), instruction lines and translations as they arrive (09 R271 to R274), changes
of translation (R275), and words that decode to nothing (03 R87). -/

namespace Sys2Proof.Machine

/-! ## SPILL and FILL -/

/-- An instruction that waits for window transfers of its thread alone (R16). -/
def wantsWindow : Instr → Bool
  | .call _ => true | .callr _ => true | .ret _ => true | .mts _ _ => true | _ => false

/-- The thread waits for a window transfer. -/
def Thread.wantsWindow (h : Thread) : Bool := match h.wait with | .retry i => Machine.wantsWindow i | _ => false

/-- SPILL (R26, R27): the oldest resident window goes to the frame at wsp; a range under the scoreboard passes (R269). -/
def execSpill (c t : Nat) (s : State) : Out :=
  let h := s.thr c t
  let off := h.wsp.toNat
  .next (match h.olds.reverse with
    | w :: r =>
      if !h.spillDue || (s.core c).scbHit off 64 then s
      else
        let s := s.modCore c (fun k => (k.lsWrite off (packWords w.toList) (2 ^ 64 - 1) 64).modThr t (fun h =>
          { h with olds := r.reverse, wsp := h.wsp + 64 }))
        (s.notify (.ls c off) 64).wake c
    | [] => s)

/-- The window in a frame. -/
def Core.frame (k : Core) (off : Nat) : Vector Word 8 := Vector.ofFn (fun i => wordN (mread k.ls (off + 8 * i.val) 8))

/-- FILL (R26, R27): the newest spilled window comes back from the frame below wsp. A frame with an uncorrectable
doubleword is UE for the thread that waits for it, and is not filled ahead of need (18 R417). -/
def execFill (c t : Nat) (s : State) : Out :=
  let h := s.thr c t
  let off := h.wsp.toNat - 64
  .next (if !h.fillDue || (s.core c).scbHit off 64 then s
    else if (s.core c).lsBad off 64 then (if h.wantsWindow then s.trapOf c t .ue (wordN off) else s)
    else
      (s.modCore c (fun k => k.modThr t (fun h => { h with olds := [k.frame off], wsp := h.wsp - 64 }))).wake c)

/-! ## Translations and lines -/

/-- Ready to issue the same word again, nothing completed. -/
def Thread.reissue (h : Thread) : Thread := { h with st := .ready, wait := .none, opnd := none }

/-- A word that traps before it is decoded is the word of a STEP all the same (19 R439). -/
def Thread.fetches (h : Thread) (w : BitVec 32) : Thread :=
  { h with iw := w, stepped := h.stepped || h.stepReq, stepReq := false }

/-- TRANSLATION_WALK (R273, R274): the access is performed again with its translation, or traps. -/
def execTranslationWalk (c t : Nat) (s : State) : Out :=
  .next (match (s.thr c t).wait with
    | .walk i va acc =>
      let (s, r) := s.translate (stationUnit c) (dieOf c) (s.core c).part va acc
      match r, i with
      | .error e, some _ => ((s.trapOf c t e (wordN (0x2000000000000000 + va))).faceTrap c (s.thr c t).iw).kickSeq c
      | .error e, none => (s.modThr c t (fun h => h.fetches 0)).trapOf c t e (wordN (0x2000000000000000 + va))
      | .ok _, some i => (s.modThr c t (fun h => { h with wait := .retry i })).push (.resume c t)
      | .ok _, none => s.modThr c t Thread.reissue
    | _ => s)

/-- The bad doublewords of a line at a destination. -/
def State.lineUe (s : State) (d : Dest) : List Nat := (upto 8).filter (fun i => (s.homeRead (d.plus (8 * i)) 8).2)

/-- Install a line in a cluster's cache, which holds 1,024. -/
def State.installLine (s : State) (l : Line) : State :=
  let rest := s.icache.filter (fun x => !(decide (x.cluster = l.cluster) && decide (x.ctx = l.ctx) && decide (x.va = l.va)))
  let full := 1024 ≤ (rest.filter (fun x => x.cluster = l.cluster)).length
  let rest := if full then (match takeFirst (fun x => decide (x.cluster = l.cluster)) rest with | some (_, r) => r | none => rest)
              else rest
  { s with icache := rest ++ [l] }

/-- A fetch faults against the word fetched (04 R131). -/
def State.fetchTrap (s : State) (c t : Nat) (e : Cause) : State :=
  (s.modThr c t (fun h => h.fetches 0)).trapOf c t e (codeWord (s.thr c t).pc)

/-- ICACHE_LINE_FILL (R271): the line arrives; a word of it that is uncorrectable is UE for the thread that fetches it. -/
def execIcacheLineFill (c t : Nat) (s : State) : Out :=
  let h := s.thr c t
  .next (match h.wait with
    | .line =>
      let va := h.pc.toNat / 64 * 64
      match s.place c (codeWord h.pc) 4 1 with
      | .trap e _ => s.fetchTrap c t e
      | .miss v acc => (s.modThr c t (fun h => { h with wait := .walk none v acc })).post (.translationWalk c t)
      | .far (.hbm pa k) =>
        let d : Dest := .hbm (pa / 64 * 64) k
        let ue := s.lineUe d
        let bytes := bytesLE (s.homeRead d 64).1 64
        let s := s.installLine { cluster := clusterOf c, ctx := (s.core c).ctx, va := va, bytes := bytes, ue := ue }
        if ue.contains (h.pc.toNat % 64 / 8) then s.fetchTrap c t .ue else s.modThr c t Thread.reissue
      | _ => s
    | _ => s)

/-! ## Changes of translation (R275) -/

/-- True of a translation of a partition that a change concerns. -/
def Change.hits (q : Change) (p : Nat) (x : Xlate) : Bool :=
  decide (x.part = p) && (match q.kind with
    | 0 => decide (x.base < q.base + q.len) && decide (q.base < x.base + 2 ^ x.bits)
    | 1 => decide (x.key = q.base)
    | _ => false)

/-- A translation leads to a physical address. -/
def Xlate.covers (x : Xlate) (pa : Nat) : Bool :=
  let o := pa % 2 ^ 40
  decide (pa / 2 ^ 40 = x.part) &&
    (if x.rep then decide (x.frame % 2 ^ 38 ≤ o % 2 ^ 38) && decide (o % 2 ^ 38 < x.frame % 2 ^ 38 + 2 ^ x.bits)
     else decide (x.frame ≤ o) && decide (o < x.frame + 2 ^ x.bits))

/-- True of a destination in the changed range: under a translation of the range that a unit holds or has held. A sector of HBM
that none ever led to counts (log 23). -/
def State.inChange (s : State) (p : Nat) (q : Change) (d : Dest) : Bool :=
  match q.kind, d with
  | 0, .hbm pa _ =>
    let own := (s.xlate ++ s.xpast).filter (fun x => x.covers pa)
    own = [] || own.any (fun x => q.hits p x)
  | 1, .hbm _ k => k = q.base
  | 2, .imp r h _ _ => r = p && h = q.base
  | _, _ => false

/-- A translation unit that a core of a list uses: its cluster's station, its micro-TLBs. -/
def usedBy (cs : List Nat) (u : Nat) : Bool := cs.any (fun c => u = stationUnit c || u = microUnit c 0 || u = microUnit c 1)

/-- Begin a change: every core of the partition is to acknowledge; the walker complexes, the gather engines and the units of no
such core forget the range at once, so that no core that has acknowledged finds the old translation there. -/
def State.beginChange (s : State) (p : Nat) (q : Change) : State :=
  let q := { q with epoch := s.leaseEpoch }
  let cs := (s.cores.filter (fun e => e.2.field ≠ none && e.2.part = p)).map (·.1)
  let s := s.forget (fun x => !usedBy cs x.unit' && q.hits p x)
  let s := s.modPart p (fun x => { x with changes := x.changes ++ [{ q with todo := cs }] })
  if cs = [] then s.post (.translationChangeComplete p) else cs.foldl (fun a c => a.post (.invalidation p c)) s

/-- A core that is placed, or moves, while changes of its partition are in progress takes part in them (R275). -/
def State.joinChanges (s : State) (c : Nat) : State :=
  let p := (s.core c).part
  let new := (s.part p).changes.filter (fun q => !q.todo.contains c)
  if new = [] then s
  else
    let s := s.modPart p (fun x => { x with changes := x.changes.map (fun q =>
      if q.todo.contains c then q else { q with todo := q.todo ++ [c] }) })
    new.foldl (fun a _ => a.post (.invalidation p c)) s

/-- Evict the read-set sectors a test selects (R275). -/
def Core.evictR (k : Core) (p : Dest → Bool) : Core :=
  let any := k.pbuf.any (fun e => e.r && p e.dst)
  let k := (k.bar p).dropR p
  { k with evict := k.evict || any }

/-- A thread of the core has a store to a destination that a test selects, translated and waiting for room (R275, R282). -/
def Core.storeWaits (k : Core) (p : Dest → Bool) : Bool :=
  k.threads.any (fun e => match e.2.wait with
    | .room l _ _ _ => l.any (fun x => match x with | .far d _ _ => p d | _ => false)
    | _ => false)

/-- INVALIDATION (R275): the core's translators forget the range; it drains and evicts, and acknowledges when what it had
translated has entered the buffer and drained. -/
def execInvalidation (p c : Nat) (s : State) : Out :=
  .next (match (s.part p).changes.find? (fun q => q.todo.contains c) with
    | none => s
    | some q =>
      let inR := s.inChange p q
      let ids := (s.core c).writeSet inR
      if ids ≠ [] || (s.core c).storeWaits inR then
        let s := if ids = [] then s else (s.drain c inR).modCore c (fun k => { k with spill := true })
        s.post (.invalidation p c) (s.cyc + 1)
      else
        let s := s.modCore c (fun k => k.evictR inR)
        let s := s.forget (fun x => usedBy [c] x.unit' && q.hits p x)
        let q' := { q with todo := q.todo.filter (fun i => i ≠ c) }
        let s := s.modPart p (fun x => { x with changes := x.changes.map (fun y => if y = q then q' else y) })
        if q'.todo = [] then s.post (.translationChangeComplete p) else s)

/-! ## Words that decode to nothing (R87) -/

/-- A word that is refused or ill formed traps; one that names a FEED, FEEDS or DRAIN with a direction it has not begins the
thaw of the bench it faces as well (07 R221). -/
def execIllegalWord (w : BitVec 32) (s : State) : Out :=
  .next (((s.modTh (fun h => { h with iw := w })).trap .illegal).faceTrap s.cur.1 w)

end Sys2Proof.Machine
end

