-- ==== Sys2Proof/Machine/Launch.lean ====
section
/-! DEFINITION. Launch queues and descriptors (15 R331 to R334): what the scheduler reads at home and how it checks it;
role tables (R343 to R345), action tables (18 R393), tape directories (R348). -/

namespace Sys2Proof.Machine

/-! ## Reads and writes of the scheduler (R332) -/

/-- Where a virtual address of a partition lies, for an access (bit 0 read, bit 1 write). -/
def State.schedPlace (s : State) (p va acc : Nat) : Except Cause Dest :=
  if 2 ^ 48 ≤ va then .error .window
  else match (s.walk p va).found with
    | .error c => .error c
    | .ok x =>
      match s.walkDenies x acc with
      | some c => .error c
      | none => .ok (.hbm (s.physical x 0 va) x.key)

/-- n bytes at home. -/
def State.destRead (s : State) (d : Dest) (n : Nat) : Except Cause Nat :=
  let (v, bad) := s.homeRead d n
  if bad then .error .ue else .ok v

/-- n bytes at a virtual address; they lie in one page. -/
def State.schedRead (s : State) (p va n : Nat) : Except Cause Nat :=
  match s.schedPlace p va 1 with
  | .error c => .error c
  | .ok d => s.destRead d n

/-- A read at a virtual address that failed is reported: for its walk (16 R378), or for the words it met (18 R417). -/
def State.readReport (s : State) (p va n : Nat) : State :=
  match s.schedPlace p va 1 with
  | .error _ => s.walkReport p va
  | .ok d => if (s.homeRead d n).2 then s.ueReport d 0 else s

/-- n doublewords from a virtual address. -/
def State.schedWords (s : State) (p va : Nat) : Nat → Except Cause (List Word)
  | 0 => .ok []
  | n + 1 =>
    match s.schedRead p va 8 with
    | .error c => .error c
    | .ok v =>
      match s.schedWords p (va + 8) n with
      | .error c => .error c
      | .ok l => .ok (wordN v :: l)

/-- A counter of the scheduler at a generic address (R333, R335, R338). -/
def State.schedCounter (s : State) (p : Nat) (a : Word) (acc : Nat) : Except Cause Dest :=
  match windowAlign a 8 with
  | some c => .error c
  | none =>
    let x := a.toNat
    match bits x 63 60 with
    | 1 =>
      match (s.part p).named x with
      | none => .error .prot
      | some pos => if 0x6000 ≤ bits x 14 0 then .error .prot else .ok (.ls pos (bits x 14 0))
    | 2 => s.schedPlace p (bits x 47 0) acc
    | _ => .error .window

/-- The first of some doublewords at a virtual address that cannot be read. -/
def State.firstBad (s : State) (p va : Nat) : Nat → Option Nat
  | 0 => none
  | n + 1 => match s.schedRead p va 8 with | .error _ => some va | .ok _ => s.firstBad p (va + 8) n

/-- The walk of a counter's address is reported when it met a malformed entry. -/
def State.counterReport (s : State) (p : Nat) (a : Word) : State :=
  if wbits a 63 60 = 2 then s.walkReport p (wbits a 47 0) else s

/-- Every byte of a virtual range can be read. -/
def State.schedReadable (s : State) (p va n : Nat) : Bool :=
  (upto (ceilDiv n 32)).all (fun i => match s.schedRead p (va + 32 * i) 32 with | .ok _ => true | .error _ => false)

/-! ## Tables -/

/-- A role entry of a table, from its four doublewords (R343). -/
def roleOf (e : List Word) : Role :=
  let (e0, e1, e2) := (e.getD 0 0, e.getD 1 0, e.getD 2 0)
  { present := decide (wbits e0 7 0 ≠ 0xFF), kind := wbits e0 7 0, stage := wbits e0 15 8, chan := wbits e0 23 16, dir := wbits e0 31 24,
    dry := wbits e0 63 32, entry := e1.toNat, roff := wbits e2 15 0, rwords := wbits e2 31 16, recast := wbits e2 39 32 }

/-- A field of a present role entry is out of range (R343). -/
def roleBad (e : List Word) : Bool :=
  let r := roleOf e
  decide (2 < wbits (e.getD 0 0) 7 0) || decide (2 < r.chan) || (if r.chan = 1 then decide (3 < r.dir) else r.dir ≠ 0) ||
    r.entry % 4 ≠ 0 || decide (2 ^ 48 ≤ r.entry) ||
    (if r.chan = 2 then r.roff % 8 ≠ 0 || decide (0x5FF8 < r.roff) || r.rwords = 0 || decide (512 < r.rwords) ||
       decide (0x6000 < r.roff + 8 * r.rwords)
     else r.roff ≠ 0 || r.rwords ≠ 0) ||
    (decide (7 < r.recast) && r.recast ≠ 0xFF) || wbits (e.getD 2 0) 63 40 ≠ 0 || e.getD 3 0 ≠ 0

/-- Nibble i of the map. -/
def nibble (m i : Nat) : Nat := m / 16 ^ i % 16

/-- A role table of 36 doublewords: its roles, axis, period and map, none when it is malformed (R343). -/
def roleTable (w : List Word) : Option (Tab Role × Nat × Nat × Nat) :=
  let h := w.getD 0 0
  let n := wbits h 7 0
  let l := wbits h 23 16
  let m := (w.getD 1 0).toNat
  let ent := fun (i : Nat) => (w.drop (4 + 4 * i)).take 4
  let roles : Tab Role := (upto n).filterMap (fun i => let r := roleOf (ent i); if r.present then some (i, r) else none)
  let here := fun (i : Nat) => (tfind roles i).isSome
  if n = 0 || decide (8 < n) || decide (2 < wbits h 15 8) || l = 0 || decide (16 < l) || wbits h 63 24 ≠ 0 ||
      w.getD 2 0 ≠ 0 || w.getD 3 0 ≠ 0 then none
  else if (upto l).any (fun i => !here (nibble m i)) then none
  else if roles.any (fun e => roleBad (ent e.1) || (e.2.recast ≠ 0xFF && !here e.2.recast)) then none
  else some (roles, wbits h 15 8, l, m)

/-- An action table is malformed for a field of n cores (18 R393). -/
def actionsBad (n : Nat) (w : List Word) : Bool :=
  w.any (fun e => decide (4 < wbits e 2 0) || wbits e 63 28 ≠ 0 || wbits e 7 3 ≠ 0 ||
    (if wbits e 2 0 = 3 then decide (n ≤ wbits e 27 8) else wbits e 27 8 ≠ 0))

/-- The action and handler of a cause (R393): kill when the launch names no table. -/
def Field.action (f : Field) (c : Cause) : Nat × Nat :=
  let e := f.actions.getD c.code 0
  (wbits e 2 0, wbits e 27 8)

/-- The header of a tape directory (R348): none when it breaks its layout; else its count. -/
def dirCount (w : List Word) : Option Nat :=
  let h := w.getD 0 0
  if wbits h 31 0 ≠ 0x52494454 || (w.drop 1).any (fun x => x ≠ 0) then none else some (wbits h 63 32)

/-- A core's entry of a tape directory breaks its layout. -/
def dirBad (a : Word) : Bool := a ≠ 0 && (a.toNat % 64 ≠ 0 || !passes a.toNat || wbits a 63 60 ≠ 2)

/-! ## The launch descriptor (R333, R334) -/

/-- Doubleword i of a descriptor. -/
def dword (d : List Word) (i : Nat) : Word := d.getD i 0

/-- A counter address the descriptor may not hold: misaligned, or not of window 0x1 or 0x2. -/
def counterBad (a : Word) : Bool :=
  a.toNat % 8 ≠ 0 || !passes a.toNat || !(wbits a 63 60 = 1 || wbits a 63 60 = 2)

/-- A field outside its range, or a resv field not zero. -/
def descBad (d : List Word) : Bool :=
  let w := dword d
  let fw := wbits (w 1) 15 0
  let fh := wbits (w 1) 31 16
  let thr := wbits (w 1) 39 32
  let t := wbit (w 1) 41
  let nd := wbits (w 9) 7 0
  let lssize := wbits (w 20) 31 0
  (w 0).toNat % 4 ≠ 0 || wbits (w 0) 63 48 ≠ 0 || fw = 0 || decide (1008 < fw) || fh = 0 || decide (1008 < fh) ||
  thr = 0 || decide (16 < thr) || wbits (w 1) 47 42 ≠ 0 || wbits (w 1) 63 60 ≠ 0 ||
  (w 2).toNat % 8 ≠ 0 || (w 4).toNat % 8 ≠ 0 || (w 6).toNat % 64 ≠ 0 || (w 7).toNat % 8 ≠ 0 ||
  (!t && (w 6 ≠ 0 || w 7 ≠ 0)) ||
  (w 8 ≠ 0 && counterBad (w 8)) || decide (4 < nd) || wbits (w 9) 63 8 ≠ 0 ||
  (upto (min nd 4)).any (fun i => w (10 + 2 * i) = 0 || counterBad (w (10 + 2 * i))) ||
  decide (0x6000 < lssize) || (w 19).toNat % 32 ≠ 0 || (lssize = 0 && w 19 ≠ 0) || wbits (w 20) 63 32 ≠ 0 ||
  (d.drop 21).any (fun x => x ≠ 0)

/-- The role entry every core has when the descriptor names no table (R345). -/
def plainRole (entry : Nat) : Role := { present := true, entry := entry, recast := 0xFF }

/-- The launch a descriptor's 32 doublewords describe, with its tables as read; status 2 when it is malformed, 1 when the
field is larger than the partition (R334). -/
def State.checkHead (s : State) (p q : Nat) (d : List Word) : Field :=
  let w := dword d
  let fw := wbits (w 1) 15 0
  let fh := wbits (w 1) 31 16
  let lssize := wbits (w 20) 31 0
  let f : Field := {
    part := p, ctx := wbits (w 1) 59 48, queue := q, id := w 18, x0 := 0, y0 := 0, fw := fw, fh := fh,
    threads := wbits (w 1) 39 32, entry := (w 0).toNat, arg := w 3, seed := w 5, done := w 8, lsimg := (w 19).toNat,
    lssize := lssize, tapeDir := (w 6).toNat, tFlag := wbit (w 1) 41, patch := none, barrier := wbit (w 1) 40,
    deps := (upto (min (wbits (w 9) 7 0) 4)).map (fun i => (w (10 + 2 * i), w (11 + 2 * i))),
    doneBad := w 8 ≠ 0 && counterBad (w 8), roles := [(0, plainRole (w 0).toNat)] }
  let bad := { f with status := 2 }
  if descBad d then bad
  else if lssize ≠ 0 && !s.schedReadable p f.lsimg lssize then bad
  else
    let withRoles : Option Field :=
      if w 2 = 0 then some f
      else match s.schedWords p (w 2).toNat 36 with
        | .error _ => none
        | .ok t => match roleTable t with
          | none => none
          | some (r, a, l, m) => some { f with roles := r, axis := a, period := l, map := m }
    let withActions := withRoles.bind (fun f =>
      if w 4 = 0 then some f
      else match s.schedWords p (w 4).toNat 64 with
        | .error _ => none
        | .ok t => if actionsBad (fw * fh) t then none else some { f with actions := t })
    let withTapes := withActions.bind (fun f =>
      if !f.tFlag then some f
      else match s.schedWords p f.tapeDir 8, s.schedWords p (f.tapeDir + 64) (fw * fh) with
        | .ok h, .ok l =>
          -- a patch block that cannot be read is a replay fault of code 6 (08 R262)
          let pb := match s.schedWords p (w 7).toNat 32 with | .ok l => some l | .error _ => none
          if dirCount h = some (fw * fh) && !l.any dirBad then some { f with tapes := l.map (·.toNat), patch := pb } else none
        | _, _ => none)
    match withTapes with
    | none => bad
    | some f => if (s.part p).w < fw ∨ (s.part p).h < fh then { f with status := 1 } else f

/-- What a descriptor names in window 0x2, as addresses and counts of doublewords, in the order of the reads. -/
def headRanges (d : List Word) : List (Nat × Nat) :=
  let w := dword d
  let n := wbits (w 1) 15 0 * wbits (w 1) 31 16
  [((w 19).toNat, ceilDiv (wbits (w 20) 31 0) 8), ((w 2).toNat, if w 2 = 0 then 0 else 36), ((w 4).toNat, if w 4 = 0 then 0 else 64)] ++
    (if wbit (w 1) 41 then [((w 6).toNat, 8 + n), ((w 7).toNat, 32)] else [])

/-- The read of a head's tables that fails first is reported (16 R378, 18 R417). -/
def State.headTold (s : State) (p : Nat) (d : List Word) : State :=
  if descBad d then s
  else match (headRanges d).findSome? (fun r => s.firstBad p r.1 r.2) with
    | some va => s.readReport p va 8
    | none => s

/-! ## Queues (R331, R369) -/

def State.queue (s : State) (p q : Nat) : Queue := tget {} (s.part p).queues q
def State.modQueue (s : State) (p q : Nat) (g : Queue → Queue) : State :=
  s.modPart p (fun x => { x with queues := tset x.queues q (g (tget {} x.queues q)) })

/-- A duty runs in host-assisted mode (R354): 0 placement, 1 trap servicing, 2 page faults, 3 replay fall-back,
4 recast, 5 kill confirmation, 6 checkpoint scheduling. -/
def State.assisted (s : State) (p duty : Nat) : Bool := bits (s.part p).modes duty duty = 1

/-- As above, in modes kept with an event (R355). -/
def inMode (modes duty : Nat) : Bool := bits modes duty duty = 1

/-- A queue halts with an error and a report of class 15 (R331). -/
def State.haltQueue (s : State) (p q e : Nat) : State :=
  (s.modQueue p q (fun x => { x with hlt := true, err := e, head := none, since := none })).report (some p) 15 0 q e 0

/-- The read index is written; none when it cannot be (R331). -/
def State.writeRix (s : State) (p q v : Nat) : Option State :=
  let a := (s.queue p q).rix.toNat
  if a % 8 ≠ 0 then none
  else match s.schedPlace p a 2 with
    | .error _ => none
    | .ok d => some (s.homeWrite none d v 255 8)

/-- A queue whose read index cannot be written halts (R331). -/
def State.rixHalt (s : State) (p q : Nat) : State := (s.walkReport p (s.queue p q).rix.toNat).haltQueue p q 2

/-- The entry at the read index becomes the head. -/
def State.loadHead (s : State) (p q : Nat) : State :=
  let x := s.queue p q
  if !x.en || x.hlt || x.head.isSome || x.rd = x.wr then s
  else
    let a := x.base + 256 * (x.rd % 2 ^ x.size)
    match s.schedWords p a 32 with
    | .error _ => (match s.firstBad p a 32 with | some va => s.readReport p va 8 | none => s).haltQueue p q 2
    | .ok d =>
      let f := s.checkHead p q d
      let s := if f.status = 0 && (!f.tFlag || f.patch.isSome) then s else s.headTold p d
      if f.status = 0 then s.modQueue p q (fun y => { y with head := some f, since := none, depBad := false })
      else
        -- retired at once: it holds no core
        match s.writeRix p q (x.rd + 1) with
        | none => s.rixHalt p q
        | some s =>
          let s := s.modQueue p q (fun y => { y with rd := y.rd + 1 })
          let id := s.nextId
          let s := { s with nextId := id + 1, fields := tset s.fields id { f with fw := 0, fh := 0, stage := .retiring } }
          (s.post1 (.retirement id)).post1 (.doorbellWrite p q)

/-- The write index as the doorbell of a queue holds it (R331). -/
def State.doorbell (s : State) (p q : Nat) : Except Cause Nat :=
  let a := (s.queue p q).wix.toNat
  if a % 8 ≠ 0 then .error .align else s.schedRead p a 8

/-- DOORBELL_WRITE (R331, R332): the doorbell is read; the queue may halt; its next entry may become the head. Of a halted queue
the write index alone is taken. A doorbell address that is not a multiple of 8 halts the queue with error 2 (log 103). -/
def execDoorbellWrite (p q : Nat) (s : State) : Out :=
  let x := s.queue p q
  .next (if x.hlt then (match s.doorbell p q with | .ok v => s.modQueue p q (fun y => { y with wr := v }) | .error _ => s)
    else if !x.en then s
    else match s.doorbell p q with
      | .error .align => s.haltQueue p q 2
      | .error _ => (s.readReport p x.wix.toNat 8).haltQueue p q 2
      | .ok v =>
        -- a head that is no longer pending is none (R335)
        let s := s.modQueue p q (fun y =>
          if v = y.rd then { y with wr := v, head := none, since := none, depBad := false } else { y with wr := v })
        if 2 ^ x.size < (v + 2 ^ 64 - x.rd) % 2 ^ 64 then s.haltQueue p q 1
        else (s.loadHead p q).post1 (.dispatch p))

/-- A queue's doorbell has something to be read: it changed, it cannot be read, or an entry waits to become the head; of a halted
queue, that it changed (R332). -/
def State.doorbellDue (s : State) (p q : Nat) : Bool :=
  let x := s.queue p q
  (x.en || x.hlt) && ((!x.hlt && x.head = none && x.rd ≠ x.wr) ||
    (match s.doorbell p q with | .ok v => v ≠ x.wr | .error _ => !x.hlt))

end Sys2Proof.Machine
end

