-- ==== Sys2Proof/Machine/Sched.lean ====
section
/-! DEFINITION. The hardware scheduler: dispatch (15 R335, R336), placement and the start of gangers (R340 to R342, 09
R267), replay launches and their fall-back (R349, R350), the end of a core's part, completion and retirement (R337 to
R339), dry timers and recasts (R346, R347). -/

namespace Sys2Proof.Machine

/-! ## Eligibility and choice (R335, R336) -/

/-- A dependence: satisfied, or the cause that keeps it from being read. -/
def State.depState (s : State) (p : Nat) (d : Word × Word) : Except Cause Bool :=
  match s.schedCounter p d.1 1 with
  | .error c => .error c
  | .ok x =>
    if s.held x then .ok false
    else match s.destRead x 8 with
      | .error c => .error c
      | .ok v => .ok (decide (d.2.toNat ≤ v))

/-- The lowest dependence of a head that cannot be read. -/
def State.depUnreadable (s : State) (p : Nat) (f : Field) : Option Nat :=
  (upto f.deps.length).find? (fun i => match s.depState p (f.deps.getD i (0, 0)) with | .error _ => true | .ok _ => false)

/-- Every earlier entry of the queue has been retired. -/
def State.queueClear (s : State) (p q : Nat) : Bool := !s.fields.any (fun e => e.2.part = p && e.2.queue = q)

/-- The head of a queue is eligible (R335); nothing of a partition being destroyed is (16 R376). -/
def State.eligible (s : State) (p q : Nat) : Bool :=
  let x := s.queue p q
  x.en && !x.hlt && x.rd ≠ x.wr && !(s.part p).destroying && (match x.head with
    | none => false
    | some f => (!f.barrier || s.queueClear p q) &&
        f.deps.all (fun d => match s.depState p d with | .ok b => b | .error _ => false))

/-- Effective priority of a queue whose head has been eligible since a tick (R336). -/
def State.effPrio (s : State) (p q : Nat) : Nat :=
  let x := s.queue p q
  match x.since with
  | some t => if x.aging = 0 then x.prio else min 7 (x.prio + (s.cyc - t) / x.aging)
  | none => x.prio

/-- Queues of a partition whose heads are eligible. -/
def State.eligibles (s : State) (p : Nat) : List Nat :=
  ((s.part p).queues.map (·.1)).filter (fun q => s.eligible p q)

/-- First of a list of queues after one, wrapping past 63. -/
def firstAfter (l : List Nat) (last : Nat) : Option Nat :=
  match l.find? (fun q => decide (last < q)) with | some q => some q | none => l.head?

/-- The queue dispatch chooses among eligible heads (R336). The first search at a level starts at queue 0
(log 109). -/
def State.chooseQueue (s : State) (p : Nat) : Option Nat :=
  let l := s.eligibles p
  let top := l.foldl (fun m q => max m (s.effPrio p q)) 0
  firstAfter (l.filter (fun q => s.effPrio p q = top)) (tget 63 (s.part p).lastQ top)

/-- The candidate: kept while it is eligible and no head's effective priority is higher. -/
def State.candidate (s : State) (p : Nat) : Option Nat :=
  match (s.part p).cand with
  | some q =>
    if s.eligible p q && !(s.eligibles p).any (fun r => decide (s.effPrio p q < s.effPrio p r)) then some q else s.chooseQueue p
  | none => s.chooseQueue p

/-! ## Placement (R340, R341) -/

/-- The cluster row of a position is gated (19 R434). -/
def State.rowGated (s : State) (c : Nat) : Bool := bits (s.die (dieOf c)).gated.toNat (posY c % 336 / 8) (posY c % 336 / 8) = 1

/-- A core's own part in being free (R340): in no field, not a forwarder, not taken. -/
def Core.idle (k : Core) : Bool := k.field = none && k.fwdTo = none && !k.placing

/-- A core is free (R340): idle, and its row not gated. -/
def State.isFree (s : State) (c : Nat) : Bool := (s.core c).idle && !s.rowGated c

/-- A position lies in a rectangle of positions. -/
def inRect (c x y w h : Nat) : Bool :=
  decide (x ≤ posX c) && decide (posX c < x + w) && decide (y ≤ posY c) && decide (posY c < y + h)

/-- A rectangle of a partition is entirely free: no core in it is busy (a core not listed is idle), and no row of it is
gated on any of the dies it reaches (336 columns each, three of them). -/
def State.rectFree (s : State) (p x y w h : Nat) : Bool :=
  let r := s.part p
  decide (x + w ≤ r.w) && decide (y + h ≤ r.h) &&
    !s.cores.any (fun e => !e.2.idle && inRect e.1 (r.x0 + x) (r.y0 + y) w h) &&
    (upto h).all (fun j => [0, 336, 672, w - 1].all (fun i => !s.rowGated (r.pos (x + min i (w - 1)) (y + j))))

/-- The first origin in scan order whose rectangle is free (R340). -/
def State.firstFit (s : State) (p w h : Nat) : Option (Nat × Nat) :=
  let r := s.part p
  (upto (r.h + 1 - h)).findSome? (fun y =>
    ((upto (r.w + 1 - w)).find? (fun x => s.rectFree p x y w h)).map (fun x => (x, y)))

/-- A context with the tag is live, or killed and not yet confirmed (18 R401). -/
def State.tagLive (s : State) (p ctx : Nat) : Bool :=
  s.fields.any (fun e => e.2.part = p && e.2.ctx = ctx && e.2.stage ≠ .retiring && !e.2.confirmed)

/-- Where a candidate can be placed now: first-fit, or the origin the host named (R340, R354), in the mode it was taken in
(R355). -/
def State.originFor (s : State) (p q : Nat) (f : Field) : Option (Nat × Nat) :=
  if s.tagLive p f.ctx then none
  else if inMode (s.part p).candModes 0 then
    match tfind (s.part p).origins q with
    | some (x, y) => if s.rectFree p x y f.fw f.fh then some (x, y) else none
    | none => none
  else s.firstFit p f.fw f.fh

/-- The role of a core of a field (R344). -/
def Field.roleAt (f : Field) (lcn : Nat) : Nat :=
  let v := match f.axis with | 0 => lcn % f.fw | 1 => lcn / f.fw | _ => lcn
  nibble f.map (v % f.period)

/-- A core freed: nothing is left but its local store with its tags, which only placement and destruction clear (09 R267, 16
R376), gst (07 R222), its cell registers (log 24), the requests of killed threads still on their way, and how often each
slot was started; and the sweeps of kill messages, which its routers and its network interface make (18 R398). -/
def Core.freed (k : Core) : Core :=
  { part := k.part, sweeps := k.sweeps, threads := tmap (fun _ h => { inc := h.inc + 1 }) k.threads, reqs := k.reqs, ls := k.ls,
    tags := k.tags, lsUe := k.lsUe, gst := k.gst, cellUe := k.cellUe, ac := k.ac, fa := k.fa, sa := k.sa, sb := k.sb,
    gcount := k.gcount, latch := k.latch, scaleA := k.scaleA, scaleB := k.scaleB, zpA := k.zpA, zpB := k.zpB }

/-- A core as steps 1 and 2 of R267 leave it, with what placement loads (R37, R341). -/
def Field.placed (f : Field) (id : Nat) (k : Core) (pos lcn : Nat) : Core :=
  let r := f.roleAt lcn
  { k.freed with
    ls := [], tags := [], lsUe := [], field := some id, part := f.part, cx := lcn % f.fw, cy := lcn / f.fw, fw := f.fw, fh := f.fh, lcn := lcn, role := r,
    stage := (tget {} f.roles r).stage, ctx := f.ctx, jseed := f.seed, place := pos, placing := true }

/-- Instruction lines of a context in the clusters of some cores are invalidated (R272). -/
def State.dropLines (s : State) (ctx : Nat) (cs : List Nat) : State :=
  let cls := cs.map clusterOf
  { s with icache := s.icache.filter (fun l => !(l.ctx = ctx && cls.contains l.cluster)) }

/-- The purge of a field is under way (18 R397 to R399). -/
def Field.purges (f : Field) : Bool := !f.confirmed && (f.stage = .killing || f.stage = .rolling)

/-- A core that had no state of its own takes the kill messages of the purges under way in its partition (18 R397). -/
def State.joinKills (s : State) (p c : Nat) : State :=
  if (tfind s.cores c).isSome then s
  else (s.fields.filter (fun e => decide (e.2.part = p) && e.2.purges)).foldl (fun s e => s.post (.killMessage c e.2.ctx)) s

/-- Steps 1 to 3 of R267 begin on every core of a field; the gangers start when all have finished. -/
def State.beginPlacing (s : State) (id : Nat) : State :=
  match tfind s.fields id with
  | none => s
  | some f =>
    let s := (upto (f.fw * f.fh)).foldl (fun s n =>
      let c := s.lcnPos f n
      let s := s.joinKills f.part c
      (s.setCore c { f.placed id (s.core c) c n with
        place := (if (s.core c).field = some id then (s.core c).place else c) }).joinChanges c) s
    s.post (.gangerStart id) (s.cyc + 768 + ceilDiv f.lssize 32)

/-- The candidate starts (R336, R337, R341): read index, cores, lines; its interval opens (18 R405). -/
def State.startLaunch (s : State) (p q : Nat) (f : Field) (x y : Nat) : State :=
  match s.writeRix p q ((s.queue p q).rd + 1) with
  | none => s.rixHalt p q
  | some s =>
    let level := s.effPrio p q
    let id := s.nextId
    let f := { f with x0 := x, y0 := y, stage := .placing, interval := s.seqNo, lastCk := s.cyc, ckb := (s.part p).ckbase, cks := (s.part p).ckstride }
    let s := { s with nextId := id + 1, seqNo := s.seqNo + 1, fields := tset s.fields id f }
    let s := s.modQueue p q (fun z => { z with rd := z.rd + 1, head := none, since := none, depBad := false })
    let s := s.modPart p (fun z => { z with cand := none, lastQ := tset z.lastQ level q, origins := tdel z.origins q })
    let s := s.dropLines f.ctx (s.fieldCores f)
    (s.beginPlacing id).post1 (.doorbellWrite p q)

/-- Ticks since heads have been eligible, and reports of dependences that cannot be read (R335, R336). The ticks start again when a
head loses its eligibility and regains it (log 110). -/
def State.noteQueues (s : State) (p : Nat) : State :=
  ((s.part p).queues.map (·.1)).foldl (fun s q =>
    let x := s.queue p q
    let s := match x.head with
      | some f =>
        match (if x.depBad || !x.en || x.hlt then none else s.depUnreadable p f) with
        | some i =>
          let s := s.counterReport p (f.deps.getD i (0, 0)).1
          (s.modQueue p q (fun y => { y with depBad := true })).report (some p) 15 0 (q + i * 256) 3 f.ctx
        | none => s
      | none => s
    let e := s.eligible p q
    if e && x.since = none then s.modQueue p q (fun y => { y with since := some s.cyc })
    else if !e && x.since.isSome then s.modQueue p q (fun y => { y with since := none }) else s) s

/-- One round of dispatch (R336). -/
def State.dispatch (s : State) (p : Nat) : State :=
  let s := s.noteQueues p
  let cand := s.candidate p
  let s := s.modPart p (fun x => { x with cand := cand, candModes := if x.cand = cand then x.candModes else x.modes })
  match cand with
  | none => s
  | some q =>
    match (s.queue p q).head with
    | none => s
    | some f =>
      match s.originFor p q f with
      | some (x, y) => (s.startLaunch p q f x y).post1 (.dispatch p)
      | none => s

/-- DISPATCH (R336). -/
def execDispatch (p : Nat) (s : State) : Out := .next (s.dispatch p)

/-- EFFECTIVE_PRIORITY_RISE (R336): the head's effective priority is one higher; the candidate may change. -/
def execEffectivePriorityRise (p q : Nat) (s : State) : Out :=
  .next (if (s.queue p q).head.isSome then s.dispatch p else s)

/-- Dispatch has something to do: an eligibility to note, another candidate, or room for the candidate. -/
def State.dispatchDue (s : State) (p : Nat) : Bool :=
  (s.part p).queues.any (fun e => e.2.head.isSome && (s.eligible p e.1 ≠ e.2.since.isSome ||
    (!e.2.depBad && e.2.en && !e.2.hlt && (match e.2.head with | some f => (s.depUnreadable p f).isSome | none => false)))) ||
  s.candidate p ≠ (s.part p).cand ||
  (match (s.part p).cand with
    | some q => (match (s.queue p q).head with | some f => (s.originFor p q f).isSome | none => false)
    | none => false)

/-- The effective priority of a queue's head has just risen. -/
def State.prioRises (s : State) (p q : Nat) : Bool :=
  let x := s.queue p q
  match x.since with
  | some t => x.aging ≠ 0 && decide (t < s.cyc) && (s.cyc - t) % x.aging = 0 && decide (x.prio + (s.cyc - t) / x.aging ≤ 7)
  | none => false

/-! ## The start of gangers (R267, R341, R342, R349) -/

/-- The ganger's g registers (R342). -/
def Field.gregs (f : Field) (g4 : Nat) : Vector Word 8 :=
  #v[0, f.arg, wordN (f.x0 + 65536 * f.y0), wordN f.threads, wordN g4, 0, 0, 0]

/-- The ganger of a core starts at its role's entry (R342, R347). -/
def State.startGanger (s : State) (f : Field) (c g4 : Nat) : State :=
  s.modCore c (fun k =>
    k.modThr 0 (fun h => h.start k 0 (BitVec.ofNat 48 (tget {} f.roles k.role).entry) (f.gregs g4)))

/-- The local-store image (R267 step 3): sectors that can be read are written, in order, until one cannot. -/
def State.imageBytes (s : State) (p va : Nat) : Nat → List Byte
  | 0 => []
  | n + 1 =>
    match s.schedRead p va 32 with
    | .ok v => bytesLE v 32 ++ s.imageBytes p (va + 32) n
    | .error _ => []

/-- The checks of R349 on every tape: what each replayed core performs, or the first fault in lcn order as its TPLAY
result, none while a core the checks read from is being placed (09 R265). -/
def State.checkTapes (s : State) (f : Field) : List Nat → State × Except (Option (Nat × Word)) (List (Nat × List TapeItem))
  | [] => (s, .ok [])
  | n :: r =>
    let a := f.tapes.getD n 0
    if a = 0 then s.checkTapes f r
    else match s.checkTape (s.lcnPos f n) 0 (wordN a) (.given f.patch) with
      | (s, .error (.code e i)) => (s, .error (some (n, tapeResult e i)))
      | (s, .error (.flt _ i)) => (s, .error (some (n, tapeResult 6 i)))
      | (s, .error .noPatch) => (s, .error (some (n, tapeResult 6 0)))
      | (s, .error .held) => (s, .error none)
      | (s, .error .away) => (s, .error none)
      | (s, .ok items) =>
        match s.checkTapes f r with
        | (s, .ok l) => (s, .ok ((s.lcnPos f n, items) :: l))
        | e => e

/-- Slot 0 of a core performs a TPLAY on the scheduler's behalf (R349). -/
def State.startReplay (s : State) (c : Nat) (items : List TapeItem) : State :=
  (s.modCore c (fun k => k.modThr 0 (fun h => { h.start k 0 0 (Vector.replicate 8 0) with
    st := .waiting, wait := .tplay none items }))).push (.resume c 0)

/-- GANGER_START (R341, R349): every core of the field has finished steps 1 to 3. -/
def execGangerStart (i : Nat) (s : State) : Out :=
  .next (match tfind s.fields i with
    | none => s
    | some f =>
      if f.stage ≠ .placing then s
      else
        let img := s.imageBytes f.part f.lsimg (ceilDiv f.lssize 32)
        let s := if img.length < f.lssize then s.readReport f.part (f.lsimg + img.length) 32 else s
        let cs := s.fieldCores f
        -- a field whose replay fault was found in the checks has its images already
        let s := cs.foldl (fun s c => if (s.core c).placing then s.modCore c (fun k =>
          { k with ls := mwriteBytes [] 0 (img.take f.lssize), placing := false }) else s) s
        let (s, r) := if f.tFlag then s.checkTapes f (upto (f.fw * f.fh)) else (s, .ok [])
        match r with
        | .error none => s.post (.gangerStart i) (s.cyc + 1)
        | .error (some (n, v)) =>
          (s.modField i (fun g => { g with
            stage := .fallback, fmodes := (s.part f.part).modes, flcn := n, rcode := v.toNat })).post1 (.replayFallback i)
        | .ok plays =>
          let s := s.modField i (fun g => { g with stage := .running })
          let s := cs.foldl (fun s c =>
            if plays.any (fun e => decide (e.1 = c)) then s else s.startGanger f c 0) s
          plays.foldl (fun s e => s.startReplay e.1 e.2) s)

/-! ## Retirement (R337 to R339) -/

/-- The cores of a field, its forwarders and the cores it has taken become free (R337). -/
def State.freeField (s : State) (i : Nat) (f : Field) : State :=
  let mine := (s.cores.filter (fun e => decide (e.2.field = some i))).map (·.1) ++ f.fwds
  let s := mine.foldl (fun s c => s.modCore c Core.freed) s
  ({ s with episodes := s.episodes.filter (fun e => e.2.field ≠ i) } : State).pruneSerial

/-- A launch is to be retired with a status; its cores are free. -/
def State.beginRetire (s : State) (i status : Nat) : State :=
  match tfind s.fields i with
  | none => s
  | some f =>
    (((s.freeField i f).modField i (fun g => { g with stage := .retiring, status := status, moved := [], fwds := [], fw := 0, fh := 0 })).post1
      (.retirement i)).post1 (.dispatch f.part)

/-- The 32 bytes of a completion record (R339): code in bits 7 to 0 of rcode, failing index + 1 above. -/
def Field.record (f : Field) (addf : Bool) (seq : Nat) : List Byte :=
  let rc := f.rcode % 2 ^ 32 % 256 + f.rcode / 2 ^ 32 % 2 ^ 24 * 256
  bytesLE f.id.toNat 8 ++ bytesLE f.queue 1 ++ bytesLE f.status 1 ++ bytesLE f.ctx 2 ++ bytesLE f.flcn 4 ++ bytesLE rc 4 ++
    bytesLE (b2n addf) 4 ++ bytesLE seq 8

/-- RETIREMENT (R338): the record is written when the ring has room; then the done counter is added to. -/
def execRetirement (i : Nat) (s : State) : Out :=
  .next (match tfind s.fields i with
    | none => s
    | some f =>
      if f.stage ≠ .retiring || (s.part f.part).cring.full then s
      else
        let dst : Option Dest := if f.done = 0 || f.doneBad then none
          else match s.schedCounter f.part f.done 3 with | .ok d => some d | .error _ => none
        let addf : Bool := f.done ≠ 0 && dst.isNone
        if dst.any s.held then s.post (.retirement i) (s.cyc + 1)
        else
        let s := if addf && !f.doneBad then s.counterReport f.part f.done else s
        let n := s.seqNo
        let (s, r) := ({ s with seqNo := n + 1 } : State).ringWrite (s.part f.part).cring (f.part + 1) 0 (f.record addf n)
        let s := s.modPart f.part (fun x => { x with cring := r, retired := x.retired + 1 })
        let s := { s with fields := tdel s.fields i }
        let s := match dst with
          | none => s
          | some d =>
            match s.destRead d 8 with
            | .ok v => s.homeWrite none d ((v + 1) % 2 ^ 64) 255 8
            | .error _ => s.ueReport d f.ctx
        s.post1 (.dispatch f.part))

/-- CORE_PART_END (R337): when every core has ended its part the launch is completed. A core of a launch that falls back
only tells that its accepted commands have completed (R350). -/
def execCorePartEnd (c : Nat) (s : State) : Out :=
  .next (match (s.core c).field with
    | none => s
    | some i =>
      match tfind s.fields i with
      | none => s
      | some f =>
        if f.stage = .fallback then s.post1 (.replayFallback i)
        else if f.stage ≠ .running || !(s.core c).partDone then s
        else
          let s := s.modCore c (fun k => { k with ended := true })
          if (s.fieldCores f).all (fun x => (s.core x).ended) then s.beginRetire i f.status else s)

/-! ## The replay fall-back duty (R350, 18 R392) -/

/-- The TAPEFAULT record of the first faulting core goes to the trap ring in either mode (R390, R392). -/
def State.tapeRecord (s : State) (f : Field) (i : Nat) : State :=
  let c := s.lcnPos f f.flcn
  let fa := wordN (f.tapes.getD f.flcn 0)
  let r := mkRec (s.core c) 0 2 .tapefault fa 0 false (wordN f.rcode)
  let n := s.seqNo
  ({ s with seqNo := n + 1 }.modPart f.part (fun x => { x with tpend := x.tpend ++
    [{ r with seq := n, iaddr := 0, ls0 := 0, le0 := 0, ls1 := 0, le1 := 0, lc0 := 0, lc1 := 0, field := i }] })).post1
    (.trapRecordDelivery f.part)

/-- Nothing a core accepted is left to complete. -/
def Core.settled (k : Core) : Bool := k.enginesIdle && k.writeSet (fun _ => true) = []

/-- REPLAY_FALLBACK (R350): the accepted commands complete; then the field runs live, from the state a first run begins
from, or is retired. -/
def execReplayFallback (i : Nat) (s : State) : Out :=
  .next (match tfind s.fields i with
    | none => s
    | some f =>
      if f.stage ≠ .fallback then s
      else
        let cs := s.fieldCores f
        -- the threads stop; what was accepted goes on
        let s := cs.foldl (fun s c =>
          let s := (s.core c).threads.foldl (fun s e => if e.2.st = .empty then s else s.killSlot c e.1) s
          (s.modCore c (fun k => { k with exits := [], seqq := [] })).drain c (fun _ => true)) s
        if cs.any (fun c => !(s.core c).settled) then s.post (.replayFallback i) (s.cyc + 1)
        else
          let s := s.tapeRecord f i
          if inMode f.fmodes 3 then s.beginRetire i 4
          else
            let s := s.modField i (fun g => { g with stage := .placing, tFlag := false, status := 5 })
            if f.reread then s.beginPlacing i else s.post1 (.gangerStart i))

/-! ## Dry timers and recasts (R346, R347) -/

/-- The channel of a core's role is empty (R346). -/
def Core.channelEmpty (k : Core) (r : Role) : Bool :=
  if r.chan = 1 then k.inbound r.dir = []
  else !k.tags.any (fun d => decide (r.roff ≤ 8 * d) && decide (8 * d < r.roff + 8 * r.rwords))

/-- One tick of a dry timer (R346, R353); the timer that reaches its limit is told. -/
def Core.dryTick (k : Core) (r : Role) : Core :=
  if r.chan = 0 || r.dry = 0 || k.dryHeld || k.frozen || k.migTo.isSome || k.ended || k.placing then k
  else if k.channelEmpty r then { k with dry := k.dry + 1 } else { k with dry := 0 }

/-- A duty in host-assisted mode tells the host something (R354): the message takes a number (16 R359; log 92). -/
def State.note (s : State) (p : Nat) (m : Nat → HostNote) : State :=
  ({ s with seqNo := s.seqNo + 1 } : State).modPart p (fun x => { x with notes := x.notes ++ [m s.seqNo] })

/-- DRY_TIMER_EXPIRY (R346): DRY is set in the ganger's evp; the report goes to the agent, which recasts the core in
hardware mode when its role says so, and to the host in host-assisted mode (R347, R354). -/
def execDryTimerExpiry (c : Nat) (s : State) : Out :=
  .next (match s.channel c with
    | none => s
    | some r =>
      let k := s.core c
      if k.dryHeld || r.dry = 0 || k.dry < r.dry then s
      else
        let s := s.modCore c (fun k => { (k.modThr 0 (fun h => h.event 1)) with dryHeld := true })
        if s.assisted k.part 4 then s.note k.part (fun n => .dry n k.ctx k.lcn)
        else if r.recast ≠ 0xFF then s.post1 (.coreRecast c r.recast) else s)

/-- CORE_RECAST (R347): waits while the core is frozen or migrating; never after it has ended its part. An MFS sees the new
role and stage at once (log 7), and the hold of a dry timer that has reported is lifted (log 112). -/
def execCoreRecast (c r : Nat) (s : State) : Out :=
  .next (match (s.core c).field with
    | none => s
    | some i =>
      match tfind s.fields i with
      | none => s
      | some f =>
        let k := s.core c
        if f.stage ≠ .running || k.ended || (tfind f.roles r).isNone then s
        else if k.frozen || k.migTo.isSome then s.post (.coreRecast c r) (s.cyc + 1)
        else
          let s := k.threads.foldl (fun s e => if e.2.st = .empty then s else s.killSlot c e.1) s
          let s := s.modCore c (fun k => { k with
            exits := [], role := r, stage := (tget {} f.roles r).stage, dry := 0, dryHeld := false })
          s.startGanger f c (256 + k.role))

end Sys2Proof.Machine
end

