-- ==== Sys2Proof/Machine/Migrate.lean ====
section
/-! DEFINITION. Migration of a core (15 R351 to R353, 10 R298) and the host's scheduler commands (16 R368). -/

namespace Sys2Proof.Machine

/-! ## Status registers (16 R365) -/

/-- A register of a partition's function. -/
def State.reg (s : State) (p off : Nat) : Word := tget 0 (s.part p).regs off
def State.setReg (s : State) (p off : Nat) (v : Word) : State := s.modPart p (fun x => { x with regs := tset x.regs off v })

/-- The value of a status register on completion: the sequence number assigned then, and a code. -/
def statusWord (seq code : Nat) : Word := wordN (seq % 2 ^ 55 * 2 ^ 8 + code)

/-- A command of a partition completes. -/
def State.complete (s : State) (p off code : Nat) : State :=
  { s with seqNo := s.seqNo + 1 }.setReg p off (statusWord s.seqNo code)

/-- The live launch of a context (R368): one whose purge is confirmed is no longer live, and stands only where no other has its
tag (18 R401). -/
def State.liveField (s : State) (p ctx : Nat) : Option (Nat × Field) :=
  let mine := fun (e : Nat × Field) => e.2.part = p && e.2.ctx = ctx && e.2.stage ≠ .retiring
  match s.fields.find? (fun e => mine e && !e.2.confirmed) with
  | some e => some e
  | none => s.fields.find? mine

/-! ## The switch (R352, R353) -/

/-- Ticks of the next rotation boundary: an action at this tick lands after the last wheel turn before it. -/
def State.boundary (s : State) : Nat := (s.cyc / 16 + 1) * 16 - 1

/-- Everything that names the core at o names it at n. -/
def State.rename (s : State) (o n : Nat) : State :=
  let m := movedPos o n
  let act := fun (a : Action) => match a with
    | .ev e => Action.ev (e.moved o n)
    | .resume c t => Action.resume (m c) t
  let claim := fun (q : Claim) => { q with core := m q.core }
  let leave := fun (r : LeaveReq) => { r with core := m r.core }
  let fe := fun (q : FeOp) => { q with core := m q.core }
  let taken := fun (q : Claim) => { q with taken := q.taken.map m }
  { s with
    claims := (s.claims.map claim).map taken,
    dieTab := tmap (fun _ d => { d with queue := d.queue.map leave }) s.dieTab,
    benches := tmap (fun _ b => { b with core := m b.core }) s.benches,
    watches := s.watches.map (fun w => { w with core := m w.core }),
    cores := tmap (fun _ k => { k with feq := k.feq.map fe, withdraw := k.withdraw.map (fun w => (m w.1, w.2)) }) s.cores,
    parts := tmap (fun _ p => { p with changes := p.changes.map (fun q => { q with todo := q.todo.map m }) }) s.parts,
    inflight := s.inflight.map (fun e => (e.1, act e.2)) }

/-- The fences of a core that has moved stand before the serialisers of its new place (05 R153). -/
def State.moveFences (s : State) (d : Nat) : State :=
  (s.core d).threads.foldl (fun s e => match e.2.wait with
    | .token (w :: _) _ => s.joinSerial d e.1 w
    | _ => s) s.pruneSerial

/-- The core of a field moves to its destination: the old core is a forwarder, every earlier forwarder of it follows. -/
def State.switchCore (s : State) (i : Nat) (f : Field) (c d : Nat) : State :=
  let k := s.core c
  let others := (s.fieldCores f).filter (fun x => x ≠ c)
  let s := s.rename c d
  -- the context's lines go, unless the cluster already holds a core of the field (R353)
  let s := if others.any (fun x => decide (clusterOf x = clusterOf d)) then s else s.dropLines f.ctx [d]
  let k' := { s.core c with migTo := some d, placing := false }
  let s := (((s.setCore d k').setCore c { k.freed with fwdTo := some d, reqs := [] }).moveFences d).joinChanges d
  let s := f.fwds.foldl (fun s x => if (s.core x).fwdTo = some c then s.modCore x (fun y => { y with fwdTo := some d }) else s) s
  s.modField i (fun g => { g with moved := tset g.moved k.lcn d, fwds := g.fwds ++ [c] })

/-- MIGRATION_SWITCH (R352): a bench cell waits for its thaw; then issue stops and the copy queue and the ring pause at a
sector boundary; an MTILE in progress finishes. The state is at the destination from the tick of the switch. -/
def execMigrationSwitch (c : Nat) (s : State) : Out :=
  let k := s.core c
  .next (match k.field, k.migTo with
    | some i, some d =>
      match tfind s.fields i with
      | none => s
      | some f =>
        if d = c then s
        else if k.cell.isSome then s.post (.migrationSwitch c) (s.boundary + 16)
        else
          let s := (s.modCore c (fun k => { k with migStop := true })).toSector c
          if k.mtile.isSome then s.post (.migrationSwitch c) (s.cyc + 1)
          else (s.switchCore i f c d).post (.migrationResume d) (s.boundary + 16)
    | _, _ => s)

/-- MIGRATION_RESUME (R352): issue, queues and waits go on at the destination. -/
def execMigrationResume (c : Nat) (s : State) : Out :=
  .next (if (s.core c).migTo ≠ some c then s
    else
      let s := s.modCore c (fun k => { k with migTo := none, migStop := false })
      ((s.wake c).resumeQueues c).checkEnd c)

/-! ## Commands of the SCMD block (16 R368) -/

/-- Context tag and logical core number of SARG0; none when another bit is set. -/
def scmdTarget (a : Word) : Option (Nat × Nat) :=
  if wbits a 63 60 ≠ 0 ∨ wbits a 47 20 ≠ 0 then none else some (wbits a 59 48, wbits a 19 0)

/-- The field and the core that SARG0 names. -/
def State.scmdCore (s : State) (p : Nat) : Option (Nat × Field × Nat) :=
  match scmdTarget (s.reg p 0x0B08) with
  | none => none
  | some (ctx, lcn) =>
    match s.liveField p ctx with
    | none => none
    | some (i, f) => if lcn < f.fw * f.fh then some (i, f, s.lcnPos f lcn) else none

/-- Begin the migration of core c of field i to d (R351, R352). -/
def State.beginMigration (s : State) (i c d : Nat) : State :=
  let p := (s.core c).part
  let s := (s.joinKills p d).modCore d (fun k => { k.freed with field := some i, part := p, placing := true })
  let s := s.modCore c (fun k => { k with migTo := some d })
  let s := match (s.core c).cell with | some x => s.beginThaw x.bench 5 | none => s
  s.post (.migrationSwitch c) s.boundary

/-- MIGRATE (R351). -/
def execMigrateCore (p : Nat) (s : State) : Out :=
  let a := s.reg p 0x0B10
  let any := wbit a 63
  .next (if wbits a 62 26 ≠ 0 ∨ wbits a 15 10 ≠ 0 then s.complete p 0x0B18 1
    else match s.scmdCore p with
      | none => s.complete p 0x0B18 1
      | some (i, f, c) =>
        if any && s.assisted p 0 then s.complete p 0x0B18 3
        else
          let k := s.core c
          let named := (s.part p).pos (wbits a 9 0) (wbits a 25 16)
          let inMesh : Bool := decide (wbits a 9 0 < (s.part p).w) && decide (wbits a 25 16 < (s.part p).h)
          let dst : Option Nat :=
            if any then (s.firstFit p 1 1).map (fun o => (s.part p).pos o.1 o.2)
            else if inMesh && s.isFree named then some named else none
          match dst with
          | none => s.complete p 0x0B18 2
          | some d =>
            if f.stage ≠ .running || k.placing || k.migTo.isSome || k.ended then s.complete p 0x0B18 2
            else (s.beginMigration i c d).complete p 0x0B18 0)

/-- RECAST as a host command (R347, R368). -/
def execRecastCmd (p : Nat) (s : State) : Out :=
  let r := (s.reg p 0x0B10).toNat
  .next (if 7 < r then s.complete p 0x0B18 1
    else match s.scmdCore p with
      | none => s.complete p 0x0B18 1
      | some (_, f, c) =>
        if f.stage ≠ .running || (s.core c).ended || (tfind f.roles r).isNone then s.complete p 0x0B18 2
        else (s.post1 (.coreRecast c r)).complete p 0x0B18 0)

/-- PLACE (R354, R368). -/
def execPlaceQueue (p : Nat) (s : State) : Out :=
  let (q, a) := (s.reg p 0x0B08, s.reg p 0x0B10)
  .next (if 63 < q.toNat ∨ wbits a 63 26 ≠ 0 ∨ wbits a 15 10 ≠ 0 then s.complete p 0x0B18 1
    else if !s.assisted p 0 then s.complete p 0x0B18 3
    else ((s.modPart p (fun x => { x with origins := tset x.origins q.toNat (wbits a 9 0, wbits a 25 16) })).complete p 0x0B18 0).post1
      (.dispatch p))

end Sys2Proof.Machine
end

