-- ==== Sys2Proof/Machine/Checkpoint.lean ====
section
/-! DEFINITION. Checkpoints (05 R172, 18 R402 to R405), the intervals at which they are asked for (15 R354), and the
restoring of a field by a rollback (18 R408). -/

namespace Sys2Proof.Machine

/-! ## The save (R403, R404) -/

/-- Tags of a local store as the 384 bytes of an image (R403). -/
def Core.tagImage (k : Core) : Nat := k.tags.foldl (fun v i => v + 2 ^ i) 0

/-- Write sectors of a checkpoint area; these writes are not logged (R406). False when one faults: those before it stand, and a
malformed entry is reported (16 R378). -/
def State.ckWrite (s : State) (p va v : Nat) : (sectors : Nat) → State × Bool
  | 0 => (s, true)
  | n + 1 =>
    match s.schedPlace p va 2 with
    | .ok (.hbm pa slot) =>
      ((s.hbmWrite (s.keyPair slot) pa v (2 ^ 32 - 1) 32).notify (.hbm pa slot) 32).ckWrite p (va + 32) (v / 2 ^ 256) n
    | _ => (s.walkReport p va, false)

/-- The image of one core: local store, tags, and the device state to the end, whose bytes the manual does not give (R403;
log 25). -/
def State.ckCore (s : State) (p va : Nat) (k : Core) : State × Bool :=
  match s.ckWrite p va (mread k.ls 0 0x6000) 768 with
  | (s, false) => (s, false)
  | (s, true) => match s.ckWrite p (va + 0x6000) k.tagImage 12 with
    | (s, false) => (s, false)
    | (s, true) => ({ s with free := s.free + 1 } : State).ckWrite p (va + 0x6200) (Config.deviceState s.free) 1264

/-- The images of a field's cores, in lcn order. -/
def State.ckCores (s : State) (f : Field) (base : Nat) : List Nat → State × Bool
  | [] => (s, true)
  | n :: r =>
    match s.ckCore f.part (base + n * 0x10000) (s.core (s.lcnPos f n)) with
    | (s, false) => (s, false)
    | (s, true) => s.ckCores f base r

/-- The header (R403): magic, field size, valid set, interval numbers. -/
def ckHeader (f : Field) (valid n0 n1 : Nat) : Nat :=
  0x54504B43 + f.fw * 2 ^ 32 + f.fh * 2 ^ 48 + valid * 2 ^ 64 + n0 * 2 ^ 128 + n1 * 2 ^ 192

/-- Every core of a field has what step 1 of R404 waits for, its arrival aside: commands and ring chunks complete, no
bench cell. -/
def Core.ckReady (k : Core) : Bool :=
  k.copyQ = [] && k.gatQ = [] && k.joins = [] && k.seqq = [] && k.cell.isNone &&
    (match k.ring with | some r => r.since.isNone | none => true)

/-- Every waiting ganger completes its CKPT with a number (R172). -/
def State.ckComplete (s : State) (f : Field) (n : Nat) : State :=
  (s.fieldCores f).foldl (fun s c => match (s.thr c 0).wait with
    | .ckpt rd => s.modThr c 0 (fun h => (h.setReg rd (wordN n)).retire)
    | _ => s) s

/-- The save itself: the set that is not valid, the header, the new interval; the number of the interval, 0 when a write
faults. -/
def State.ckSave (s : State) (i : Nat) (f : Field) (base : Nat) : State × Nat :=
  let set := match f.valid with | some 0 => 1 | _ => 0
  let cores := f.fw * f.fh
  match s.ckCores f (base + 0x1000 + set * cores * 0x10000) (upto cores) with
  | (s, false) => (s, 0)
  | (s, true) =>
    let n := s.seqNo
    let nos := putAt f.setNo set n
    match s.ckWrite f.part base (ckHeader f set (nos.getD 0 0) (nos.getD 1 0)) 128 with
    | (s, false) => (s, 0)
    | (s, true) =>
      let img : Tab Core := (upto cores).map (fun l => (l, s.core (s.lcnPos f l)))
      (({ s with seqNo := n + 1 } : State).modField i (fun g => { g with
        interval := n, valid := some set, setNo := nos, images := putAt g.images set img, undo := [], unrest := false,
        ckAsked := false, rolls := 0, ckb := f.ckb, cks := f.cks }), n)

/-- CKPT_COLLECTIVE (R172, R404): it begins when every core has arrived, and waits for engines, benches and drains. psr.phase advances, as
R172 says and R286's table does not (log 105). -/
def execCkptCollective (i : Nat) (s : State) : Out :=
  .next (match tfind s.fields i with
    | none => s
    | some f =>
      let cs := s.fieldCores f
      if f.stage ≠ .running || !cs.all (fun c => (s.core c).ckptArrived) ||
          !cs.any (fun c => (match (s.thr c 0).wait with | .ckpt _ => true | _ => false)) then s
      else
        let s' := cs.foldl (fun s c => s.drain c (fun _ => true)) s
        if cs.any (fun c => !(s.core c).ckReady || (s'.core c).writeSet (fun _ => true) ≠ []) then
          s'.post (.ckptCollective i) (s.cyc + 1)
        else
          -- as under PEND, the phase ends and the read set is cleared (05 R172, 10 R287)
          let s := cs.foldl (fun s c => s.modCore c (fun k => { k.clearR with phase := k.phase + 1 })) s
          -- CKBASE and CKSTRIDE as they stand now hold for the interval that opens (16 R367)
          let f := { f with ckb := (s.part f.part).ckbase, cks := (s.part f.part).ckstride }
          match f.ckArea with
          | none => s.ckComplete f 0
          | some (base, _) => let (s, n) := s.ckSave i f base; s.ckComplete f n)

/-- CHECKPOINT_INTERVAL (R354): in hardware mode, CKPT is set in every ganger's evp at the host's interval. -/
def execCheckpointInterval (p : Nat) (s : State) : Out :=
  let due := s.fields.filter (fun e => e.2.part = p && e.2.stage = .running && decide (e.2.lastCk + (s.part p).ckint ≤ s.cyc))
  .next (if (s.part p).ckint = 0 ∨ s.assisted p 6 then s
    else due.foldl (fun s e => (s.eventAll e.2 2).modField e.1 (fun f => { f with lastCk := s.cyc })) s)

/-- The host requests a checkpoint of a context in host-assisted mode: CKPT is set in its gangers' evp (15 R354; log 95). -/
def State.hostCheckpoint (s : State) (p ctx : Nat) : State :=
  match s.liveField p ctx with
  | some (i, f) =>
    if s.assisted p 6 && decide (f.stage = .running) then (s.eventAll f 2).modField i (fun g => { g with lastCk := s.cyc }) else s
  | none => s

/-! ## Restoring (R408) -/

/-- A reply of an image that carries an effect a home had already performed. -/
def Reply.kept (r : Reply) : Bool := match r.body with | .sector .. => false | _ => true

/-- The instruction a thread issued last is to be performed again, with the registers it read then. -/
def Thread.redo (h : Thread) : Thread :=
  match decodeWord h.iw with | .ok i => { h with wait := .retry i } | .error _ => h.reissue

/-- A thread as its image resumes (R44, R408; log 25): its state, what it waits for and the ticks left of its limit. A wait
whose effect had been performed takes its reply; what the purge discarded besides is asked for again. -/
def Thread.restored (h : Thread) (inc : Nat) (replied : Bool) : Thread :=
  let h := { h with inc := inc, recs := 0, tape := none }
  if h.st ≠ .waiting || replied then h
  else match h.wait with
    | .walk none _ _ => h.reissue
    | .line => h.reissue
    | .walk (some i) _ _ => { h with wait := .retry i }
    | .room l fl seed _ => { h with wait := .room l fl seed none }
    | .load .. => h.redo
    | .tld .. => h.redo
    | .seq => h.redo
    | .mtile => h.redo
    | .gang _ => h.redo
    | _ => h

/-- A restored thread takes up its wait. -/
def State.rewait (s : State) (c t : Nat) : State :=
  let h := s.thr c t
  if h.st ≠ .waiting || (s.core c).replies.any (fun r => decide (r.slot = t) && decide (r.inc = h.inc)) then s
  else match h.wait with
    | .retry _ => s.push (.resume c t)
    | .room .. => s.push (.resume c t)
    | .tplay _ _ => s.push (.resume c t)
    | .home rd k a => s.request c t rd k a
    | .bar b scope => s.barArrive c t b scope
    | .token (w :: _) _ => s.joinSerial c t w
    | .drains _ k => s.afterDrains c t k
    | _ => s

/-- A core restored from an image, at the position its field's core now has (R403, R408). -/
def Core.restoredFrom (now img : Core) : Core :=
  let replies := img.replies.filter (fun r => r.kept && decide ((img.thr r.slot).inc = r.inc))
  let inc := fun (t : Nat) => (now.thr t).inc + 1
  let ring := fun (r : Ring) => { r with cmd := { r.cmd with inc := if (img.thr r.cmd.slot).inc = r.cmd.inc then inc r.cmd.slot else r.cmd.inc } }
  { img with
    threads := tmap (fun t h => h.restored (inc t) (replies.any (fun r => decide (r.slot = t)))) img.threads,
    replies := replies.map (fun r => { r with inc := inc r.slot }),
    place := now.place, placing := false, migTo := none, migStop := false, fwdTo := none, feq := now.feq, withdraw := now.withdraw,
    hist := [], pbuf := now.pbuf, fetches := [], reqs := [], portIn := [], portOut := [], evOut := [], westIn := [], northIn := [],
    drainN := [], drainW := [], seqq := [], copyQ := [], gatQ := [], joins := [], scb := [], copyHalt := false, gatHalt := false,
    haltc := now.haltc, ring := img.ring.map ring, tape := none, mtile := none, cell := none, faces := [], bp0 := now.bp0,
    bp1 := now.bp1, haltMask := now.haltMask, sweeps := now.sweeps, regUe := [],
    nextStamp := max now.nextStamp img.nextStamp, nextId := max now.nextId img.nextId }

/-- Sectors of a checkpoint area as they stand, or the first that cannot be read. -/
def State.ckRead (s : State) (p va : Nat) : (sectors : Nat) → Except Nat Nat
  | 0 => .ok 0
  | n + 1 => match s.schedRead p va 32 with
    | .error _ => .error va
    | .ok v => match s.ckRead p (va + 32) n with | .ok w => .ok (v + 2 ^ 256 * w) | e => e

/-- A saved core with its local store and its tags as the valid set in memory holds them (R403, R408); a set that can no
longer be read is restored as it was saved (log 25), and the read that failed is reported (16 R378, 18 R417). -/
def State.ckImage (s : State) (f : Field) (set l : Nat) (k : Core) : State × Core :=
  match f.ckArea with
  | none => (s, k)
  | some (base, _) =>
    let va := base + 0x1000 + (set * (f.fw * f.fh) + l) * 0x10000
    match s.ckRead f.part va 768, s.ckRead f.part (va + 0x6000) 12 with
    | .ok v, .ok tags => (s, { k with ls := mwrite [] 0 v 0x6000, tags := (upto 3072).filter (fun i => bits tags i i = 1) })
    | .error a, _ => (s.readReport f.part a 32, k)
    | _, .error a => (s.readReport f.part a 32, k)

/-- A logged pre-image goes back to its sector, as it was stored (R406, R408). -/
def State.undoOne (s : State) (u : Undo) : State :=
  let s := { s with
    hbm := mwrite s.hbm u.pa u.pre 32,
    hbmKey := match u.key with | some k => tset s.hbmKey (u.pa / 32) k | none => tdel s.hbmKey (u.pa / 32),
    hbmUe := s.hbmUe.filter (fun w => w / 4 ≠ u.pa / 32) }
  s.notify (.hbm u.pa 0) 32

/-- ROLLBACK_RESTORE (R408): after the purge, pre-images, cores and gangers. -/
def execRollbackRestore (i : Nat) (s : State) : Out :=
  .next (match tfind s.fields i with
    | none => s
    | some f =>
      if f.stage ≠ .rolling then s
      else
        let s := f.undo.foldl (fun s u => s.undoOne u) s
        let done := fun (g : Field) => { g with stage := .running, undo := [], rolls := g.rolls + 1 }
        match f.valid with
        | some set =>
          let img : Tab Core := f.images.getD set []
          let s := (upto (f.fw * f.fh)).foldl (fun s l =>
            match tfind img l with
            | some k =>
              let (s, k) := s.ckImage f set l k
              s.modCore (s.lcnPos f l) (fun now => now.restoredFrom k)
            | none => s) s
          let s := (s.ckComplete f f.interval).modField i done
          (s.fieldCores f).foldl (fun s c =>
            let s := (s.core c).replies.foldl (fun s r => s.post (.remoteReply c r.slot)) s
            let s := (s.core c).threads.foldl (fun s e => s.rewait c e.1) s
            (if (s.core c).ring.isSome then s.post1 (.ringChunkStart c) else s).checkEnd c) s
        | none =>
          -- the placement state (R405): steps 1 to 3 of R267 stand at once, and every ganger starts at its entry
          let s := (upto (f.fw * f.fh)).foldl (fun s l =>
            let c := s.lcnPos f l
            let now := s.core c
            s.setCore c { f.placed i now c l with
              place := now.place, feq := now.feq, withdraw := now.withdraw, bp0 := now.bp0, bp1 := now.bp1 }) s
          (s.modField i (fun g => { done g with stage := .placing })).post1 (.gangerStart i))

end Sys2Proof.Machine
end

