-- ==== Sys2Proof/Machine/Traps.lean ====
section
/-! DEFINITION. How trap records are settled (18 R391 to R396, R328), the page-fault service (09 R279, 16 R378, R442), the
completion of a change of translation (09 R275), kill and rollback (18 R397 to R401, R408 to R412). -/

namespace Sys2Proof.Machine

/-! ## Page-table entries the duty rewrites -/

/-- The entry a walk ends at: its level, partition physical address and value; none when the walk cannot go on. -/
def State.entryFrom (s : State) (part va : Nat) (key : BitVec 512) : (left : Nat) → (level table : Nat) → Option (Nat × Nat × Nat)
  | 0, _, _ => none
  | n + 1, level, table =>
    let a := pteAddr table level va
    if s.hbmBad (part * 2 ^ 40 + a) 8 then none
    else
      let e := s.hbmRead key (part * 2 ^ 40 + a) 8
      if bits e 0 0 = 0 ∨ bits e 1 1 = 1 ∨ level = 3 then some (level, a, e)
      else if (s.part part).ppaOk (bits e 39 8 * 256) then s.entryFrom part va key n (level + 1) (bits e 39 8 * 256) else none

/-- The key pair the tables are under (R377). -/
def State.tableKey (s : State) (p : Nat) : BitVec 512 := s.keyPair (wbits (s.part p).ptroot 5 0)

/-- The entry for a virtual address. -/
def State.entryOf (s : State) (p va : Nat) : Option (Nat × Nat × Nat) :=
  s.entryFrom p va (s.tableKey p) 4 0 (wbits (s.part p).ptroot 39 12 * 2 ^ 12)

/-- Rewrite an entry. -/
def State.setEntry (s : State) (p a e : Nat) : State := s.hbmWrite (s.tableKey p) (p * 2 ^ 40 + a) e 255 8

/-- An entry with another frame, and with V, SV and REP as given. -/
def entryWith (e frame v sv rep : Nat) : Nat :=
  e - bits e 39 16 * 2 ^ 16 - bits e 0 0 - bits e 6 6 * 64 - bits e 5 5 * 32 + frame / 2 ^ 16 * 2 ^ 16 + v + sv * 64 + rep * 32

/-- A 64 KiB frame is written as zero under a key (R442). -/
def State.zeroFrame (s : State) (key : BitVec 512) (pa : Nat) : State :=
  { s with
    hbm := s.hbm.filter (fun x => !(decide (pa ≤ x.1) && decide (x.1 < pa + 0x10000))),
    hbmKey := (upto 2048).foldl (fun t i => tset t (pa / 32 + i) (key, (s.part (pa / 2 ^ 40)).era)) s.hbmKey,
    hbmUe := s.hbmUe.filter (fun w => !(decide (pa ≤ 8 * w) && decide (8 * w < pa + 0x10000))) }

/-- The next frame of the demand-zero pool; none when the pool is empty or its entry cannot be read or is malformed
(R378). -/
def State.poolFrame (s : State) (p : Nat) (rep : Bool) : Option Nat :=
  let x := s.part p
  let a := wbits x.pool 63 16
  if wbits x.pool 15 0 = 0 ∨ a % 8 ≠ 0 then none
  else match s.schedRead p a 8 with
    | .error _ => none
    | .ok e =>
      let f := bits e 39 16 * 2 ^ 16
      let all : Bool := !rep || (upto 3).all (fun g => x.groupStacks g = 0 || x.ppaOk (g * 2 ^ 38 + f % 2 ^ 38))
      if e ≠ f ∨ !x.ppaOk f ∨ !all then none else some f

/-- A pool entry that could not be read is reported (R378, 18 R417). -/
def State.poolReport (s : State) (p : Nat) : State :=
  let w := (s.part p).pool
  if wbits w 15 0 = 0 ∨ wbits w 63 16 % 8 ≠ 0 then s else s.readReport p (wbits w 63 16) 8

/-- POOL after a frame is taken (R364). -/
def poolNext (w : Word) : Word := wordN ((wbits w 63 16 + 8) % 2 ^ 48 * 2 ^ 16 + (wbits w 15 0 - 1))

/-- What the page-fault service duty does with a fault (R354, R395). -/
inductive Service where
  /-- Serviced: the replay follows at once. -/
  | done (s : State)
  /-- A change of translation has begun; the replay follows its completion. -/
  | busy (s : State)
  /-- Passed to the host. -/
  | pass (s : State)

/-- Service of PAGE in hardware mode (R378, R442). A page that has become valid meanwhile is serviced by replay (log 26). -/
def State.servePage (s : State) (p va : Nat) : Service :=
  match s.entryOf p va with
  | none => .pass (s.walkReport p va)
  | some (level, a, e) =>
    if bits e 0 0 = 1 then (match s.walk p va with | .leaf _ => .done s | w => .pass (s.walkSaid p w))
    else if level ≠ 3 ∨ bits e 6 6 = 0 ∨ bits e 1 1 = 0 ∨ s.keyFault p (bits e 12 7) ≠ none then .pass s
    else
      let rep := bits e 5 5 = 1
      match s.poolFrame p rep with
      | none => .pass (s.poolReport p)
      | some f =>
        let key := s.keyPair (bits e 12 7)
        let s := s.modPart p (fun x => { x with pool := poolNext x.pool })
        let groups := if rep then (upto 3).filter (fun g => decide ((s.part p).groupStacks g ≠ 0)) else [f / 2 ^ 38]
        let s := groups.foldl (fun s g => s.zeroFrame key (p * 2 ^ 40 + g * 2 ^ 38 + f % 2 ^ 38)) s
        .done (s.setEntry p a (entryWith e f 1 0 (bits e 5 5)))

/-- The entry of a page loses its replicas but that of the lowest group number (R279). -/
def State.collapse (s : State) (p va : Nat) : State :=
  match s.entryOf p va with
  | some (_, a, e) =>
    if bits e 5 5 = 0 then s
    else
      let g := ((upto 3).find? (fun g => decide ((s.part p).groupStacks g ≠ 0))).getD 0
      s.setEntry p a (entryWith e (g * 2 ^ 38 + bits e 37 16 * 2 ^ 16) (bits e 0 0) (bits e 6 6) 0)
  | none => s

/-- Service of COLLAPSE in hardware mode (R279): the replication bit is cleared, then the change of translation is made; of
a page that is being collapsed it is awaited, and a page already collapsed is replayed alone. -/
def State.serveCollapse (s : State) (p va seq : Nat) : Service :=
  match s.walk p va with
  | .leaf x =>
    if s.collapsing x then .busy s
    else if !x.rep then .done s
    else .busy ((s.collapse p va).beginChange p { kind := 0, base := x.base, len := 2 ^ x.bits, todo := [], then' := 3, arg := seq })
  | w => .pass (s.walkSaid p w)

/-! ## Kill and rollback: the purge (R397, R398, R408) -/

/-- Records of a field that have not been served, and those that await the host, are discarded (R396). -/
def State.dropRecords (s : State) (i : Nat) : State :=
  let keep := fun (r : TrapRec) => r.field ≠ i
  let part := fun (p : Part) => { p with
    await := p.await.filter keep, tpend := p.tpend.filter keep, serving := p.serving.filter keep }
  { s with dieTab := tmap (fun _ d => { d with recs := d.recs.filter keep }) s.dieTab, parts := tmap (fun _ p => part p) s.parts }

/-- A core, free or not, lies in a partition. -/
def State.coreOf (s : State) (p : Nat) (e : Nat × Core) : Bool :=
  if e.2.field = none then bits (s.part p).dies (dieOf e.1) (dieOf e.1) = 1 else e.2.part = p

/-- The kill message goes to every core of the partition (R397); one that has no state yet takes it when it is placed. -/
def State.purge (s : State) (i : Nat) (f : Field) (stage : Stage) : State :=
  let cs := (s.cores.filter (s.coreOf f.part)).map (·.1)
  let s := ({ s with seqNo := s.seqNo + 1 } : State).modField i (fun g => { g with stage := stage, killSeq := s.seqNo })
  cs.foldl (fun s c => s.post (.killMessage c f.ctx)) (s.dropRecords i)

/-- Kill a context; a second kill has no further effect (R397, R400). -/
def State.killField (s : State) (i : Nat) : State :=
  match tfind s.fields i with
  | none => s
  | some f => if f.stage = .killing || f.stage = .retiring then s else s.purge i f .killing

/-- Roll a context back, or kill it (R411, R412). -/
def State.rollField (s : State) (i : Nat) : State :=
  match tfind s.fields i with
  | none => s
  | some f =>
    if f.stage = .killing || f.stage = .retiring || f.stage = .rolling then s
    else if f.ckArea.isNone || f.unrest || decide (3 ≤ f.rolls) then s.killField i
    else s.purge i f .rolling

/-- A bench of a purged field ends without thaw (11 R310). -/
def State.endBench (s : State) (id : Nat) (b : Bench) : State :=
  let s := (b.cells s).foldl (fun s p => s.modCore p (fun k => { k with cell := none, westIn := [], northIn := [] })) s
  let s := (b.faces s).foldl (fun s p => s.modCore p (fun k => { k with drainN := [], drainW := [] })) s
  s.dropBench id b

/-- What a core of the context discards (R398, 10 R299). -/
def Core.purged (k : Core) : Core :=
  { k with
    exits := [], copyQ := [], gatQ := [], ring := none, joins := [], seqq := [], tape := none, gen0 := {}, gen1 := {}, deque := [],
    tens := [], scb := [], copyHalt := false, gatHalt := false, evOut := [], portOut := [], reqs := [], replies := [], fetches := [],
    pbuf := (k.pbuf.filter (fun e => e.mask ≠ 0 && e.d)).map (fun e => { e with r := false }), hist := [] }

/-- KILL_MESSAGE (R398): step 1 in a core of the context, step 2 in every home, step 3 for 8,192 ticks. -/
def execKillMessage (c x : Nat) (s : State) : Out :=
  let k := s.core c
  let mine : Option (Nat × Field) := match k.field with
    | none => none
    | some i => match tfind s.fields i with
      | some f => if f.ctx = x && (f.stage = .killing || f.stage = .rolling) then some (i, f) else none
      | none => none
  .next (
    let s : State := match mine with
      | none => s
      | some (i, f) =>
        let s := (s.benches.filter (fun e => decide (e.2.field = i))).foldl (fun s e => s.endBench e.1 e.2) s
        let s := (s.core c).threads.foldl (fun s e => if e.2.st = .empty then s else s.killSlot c e.1) s
        let s := (s.endMtile c).modCore c Core.purged
        let s := match (s.core c).migTo with
          | some d => if d = c || decide (f.stage ≠ Stage.rolling) then s else s.modCore d Core.freed
          | none => s
        s.modCore c (fun k => { k with migTo := none, migStop := false })
    (s.modCore c (fun k => { k with
      feq := k.feq.filter (fun q => q.ctx ≠ x), sweeps := k.sweeps ++ [(x, s.cyc + 8192)] })).post (.killSweepEnd c x) (s.cyc + 8192))

/-- The purges that the end of a core's sweep may complete: of every field of its partition with the tag that is not confirmed. -/
def State.purging (s : State) (c x : Nat) : List Nat :=
  (s.fields.filter (fun e => s.coreOf e.2.part (c, s.core c) && e.2.ctx = x && e.2.purges)).map (·.1)

/-- KILL_SWEEP_END (R398, R399). -/
def execKillSweepEnd (c x : Nat) (s : State) : Out :=
  let s := s.modCore c (fun k => { k with sweeps := k.sweeps.filter (fun w => !(decide (w.1 = x) && decide (w.2 ≤ s.cyc))) })
  .next ((s.purging c x).foldl (fun s i => s.post1 (.killConfirmation i)) s)

/-- KILL_CONFIRMATION (R399): every core has confirmed; the launch retires with status 3, or its rollback goes on, unless the
drains of the purge have made the interval unrestorable (R412). In host-assisted mode the host is told, and retires the launch
(15 R354; log 50). -/
def execKillConfirmation (i : Nat) (s : State) : Out :=
  .next (match tfind s.fields i with
    | none => s
    | some f =>
      let waits := s.cores.any (fun e => s.coreOf f.part e && e.2.sweeps.any (fun w => decide (w.1 = f.ctx)))
      let wset := s.cores.any (fun e => e.2.field = some i && e.2.writeSet (fun _ => true) ≠ [])
      let told := s.inflight.any (fun a => match a.2 with
        | .ev (.killMessage c x) => decide (x = f.ctx) && s.coreOf f.part (c, s.core c)
        | _ => false)
      if (f.stage ≠ .killing && f.stage ≠ .rolling) || waits || told then s
      else if wset then s.post (.killConfirmation i) (s.cyc + 1)
      else if f.stage = .rolling && !f.unrest then s.post1 (.rollbackRestore i)
      else if f.confirmed then s
      else if s.assisted f.part 5 then
        (s.modField i (fun g => { g with stage := .killing, confirmed := true })).note f.part (fun n => .purged n f.ctx)
      else s.beginRetire i 3)

/-- The host retires a launch of whose purge it was told (15 R354). -/
def State.hostRetire (s : State) (p ctx : Nat) : State :=
  match s.fields.find? (fun e => e.2.part = p && e.2.ctx = ctx && e.2.confirmed && e.2.stage = .killing) with
  | some (i, _) => s.beginRetire i 3
  | none => s

/-! ## Settling a record (R328, R394, R395) -/

/-- The record goes to the trap ring for the host or the debugger (R370, R394). -/
def State.toRing (s : State) (p : Nat) (r : TrapRec) : State :=
  (s.modPart p (fun x => { x with tpend := x.tpend ++ [r] })).post1 (.trapRecordDelivery p)

/-- The core of a record. -/
def State.recCore (s : State) (r : TrapRec) : Option Nat :=
  match tfind s.fields r.field with
  | some f => if r.lcn < f.fw * f.fh then some (s.lcnPos f r.lcn) else none
  | none => none

/-- Replay (R394, R396): the queue reopens; the thread resumes when its last record is settled. -/
def State.replayRec (s : State) (r : TrapRec) : State :=
  match s.recCore r with
  | none => s
  | some c =>
    let s := if r.org = 1 then s.reopen c r.queue else s
    let h := s.thr c r.slot
    if r.e || h.inc ≠ r.inc || h.st ≠ .parked then s
    else
      let s := s.modThr c r.slot (fun h => if r.cause = .brk || r.cause = .trapi then h.replayPast else h.replay)
      -- the scheduler's TPLAY goes on (15 R349)
      if (s.thr c r.slot).st = .waiting then s.push (.resume c r.slot) else s

/-- The replay of this record would be the sixteenth repeat (R394). -/
def State.repeated (s : State) (r : TrapRec) : Bool :=
  match s.recCore r with
  | some c => let h := s.thr c r.slot; r.org = 0 && h.inc = r.inc && decide (16 ≤ h.repCount)
  | none => false

/-- Forward (R328, R394): the record is written at 0x5FC0 of the handler core, then FWD is set in its ganger's evp. -/
def State.forwardRec (s : State) (p : Nat) (r : TrapRec) (handler : Nat) : State :=
  match tfind s.fields r.field with
  | none => s
  | some f =>
    if handler = r.lcn ∨ f.fw * f.fh ≤ handler then s.toRing p r
    else
      let c := s.lcnPos f handler
      let v := ofBytesLE (r.words.flatMap (fun w => bytesLE w.toNat 8))
      (s.homeWrite none (.ls c 0x5FC0) v (2 ^ 64 - 1) 64).modThr c 0 (fun h => h.event 0)

/-- Replay after any service (R395), in the modes the record was taken in (15 R355): a fault the duty passes goes to the
trap ring. -/
def State.serveReplay (s : State) (p : Nat) (r : TrapRec) : State :=
  let va := bits r.faddr.toNat 47 0
  let global := wbits r.faddr 63 60 = 2
  let serviced : Service :=
    if r.held then .done s
    else match r.cause with
      | .page => if inMode r.modes 2 || !global then .pass s else s.servePage p va
      | .collapse => if inMode r.modes 2 || !global then .pass s else s.serveCollapse p va r.seq
      | .prot => .pass s
      | .keyrev => .pass s
      | _ => .done s
  match serviced with
  | .done s => s.replayRec r
  | .busy s => s.modPart p (fun x => { x with serving := x.serving ++ [r] })
  | .pass s => s.toRing p { r with held := true }

/-- A thread's record is parked while its thread is: not after a TKILL (05 R171, R391; log 32). -/
def State.stillParked (s : State) (r : TrapRec) : Bool :=
  match s.recCore r with
  | some c => r.org ≠ 0 || ((s.thr c r.slot).inc = r.inc && (s.thr c r.slot).st = .parked)
  | none => false

/-- Kill of an engine fault whose slot is empty: the halted command and everything behind it in its queue are discarded, and no
counter advances (08 R232); their scoreboard entries are retirable (09 R268). -/
def State.killQueue (s : State) (c q : Nat) : State :=
  let s := s.modCore c (fun k => match q with
    | 2 => (match k.ring with | some r => { k.retirable r.cmd.id with ring := none } | none => k)
    | 3 => { k with joins := k.joins.filter (fun x => x.fault.isNone) }
    | _ =>
      let both : Bool := match k.head q with | some x => x.op = .join && wbits x.rb 1 0 = 3 | none => false
      let cq : Bool := q = 0 || both
      let gq : Bool := q = 1 || both
      let ids := (if cq then k.copyQ.map (·.id) else []) ++ (if gq then k.gatQ.map (·.id) else [])
      let keep := fun (x : Cmd) => !ids.contains x.id
      { ids.foldl Core.retirable k with
        copyQ := k.copyQ.filter keep, gatQ := k.gatQ.filter keep, copyHalt := k.copyHalt && !cq, gatHalt := k.gatHalt && !gq })
  let s := if (s.core c).joins = [] then s else s.post1 (.qjoinFenceComplete c)
  (((s.runQueues c).wake c).kickSeq c).checkEnd c

/-- The action kill (R394): the context is killed; of an engine fault whose slot is empty the action applies to the queue alone
(08 R232). -/
def State.killRec (s : State) (r : TrapRec) : State :=
  if r.org = 1 && r.e then (match s.recCore r with | some c => s.killQueue c r.queue | none => s) else s.killField r.field

/-- Settle a record by an action: 0 kill, 1 replay, 2 park, 3 forward, 4 rollback (R394). -/
def State.settle (s : State) (p : Nat) (r : TrapRec) (act handler : Nat) : State :=
  match act with
  | 0 => s.killRec r
  | 1 =>
    if r.cause = .ue && r.org = 3 then s.toRing p r
    else if s.repeated r then s.toRing p { r with rpt := true }
    else s.serveReplay p r
  | 2 => s.toRing p r
  | 3 => s.forwardRec p r handler
  | _ => s.rollField r.field

/-- The page-fault service is the leader's: while no leader runs, it waits (19 R419, R422). -/
def State.serviceWaits (s : State) (r : TrapRec) : Bool :=
  !s.leaderUp && !r.held && !inMode r.modes 2 && wbits r.faddr 63 60 = 2 && (r.cause = .page || r.cause = .collapse)

/-- The service of a record must wait: for the leader, or for an earlier record of its context still being served (R391). -/
def State.recordWaits (s : State) (p : Nat) (f : Field) (r : TrapRec) : Bool :=
  (s.part p).serving.any (fun x => decide (x.field = r.field)) ||
    (!inMode r.modes 1 && (f.action r.cause).1 = 1 && !s.repeated r && s.serviceWaits r)

/-- A record is discarded: its context is being killed or rolled back, or has ended (R396, R400). -/
def Field.discards (f : Field) : Bool := decide (f.stage ∈ [.killing, .rolling, .retiring])

/-- TRAP_SERVICE (R391): the agent serves the oldest record of the context, in the modes it was taken in (15 R355);
uncorrectable data is reported (R417). The action on a record whose thread is gone has no effect (05 R171). -/
def execTrapService (d n : Nat) (s : State) : Out :=
  .next (match (s.die d).recs.find? (fun r => r.seq = n) with
    | none => s
    | some r0 =>
      match takeFirst (fun r => decide (r.field = r0.field)) (s.die d).recs with
      | none => s
      | some (r, rest) =>
        -- a step that comes before that of an older record serves the older one, and comes again for its own
        let taken := (s.modDie d (fun x => { x with recs := rest })).postIf (r.seq ≠ n) (.trapService d n)
        match tfind s.fields r.field with
        | none => taken
        | some f =>
          if f.discards then taken
          else if s.recordWaits f.part f r then s.post (.trapService d n) (s.cyc + 1)
          else
          let s := taken
          let s := match s.recCore r with
            | some c => if r.org = 3 || r.reg then s else s.ueMet c r.cause r.faddr
            | none => s
          if inMode r.modes 1 then s.toRing f.part r
          else if !s.stillParked r then s
          else let (a, h) := f.action r.cause; s.settle f.part r a h)

/-- TRAP_RECORD_DELIVERY (16 R370): the oldest record is written when the ring has room, and awaits a TACT; the record of a
scheduler-issued replay awaits none (R392). -/
def execTrapRecordDelivery (p : Nat) (s : State) : Out :=
  .next (match (s.part p).tpend with
    | [] => s
    | r :: rest =>
      if (s.part p).tring.full then s
      else
        let (s, g) := s.ringWrite (s.part p).tring (p + 1) 2 (r.words.flatMap (fun w => bytesLE w.toNat 8))
        let s := s.modPart p (fun x => { x with tring := g, tpend := rest, await := if r.org = 2 then x.await else x.await ++ [r] })
        if rest = [] then s else s.post1 (.trapRecordDelivery p))

/-- A TACT names a record that is parked and awaits the host; it has no effect otherwise (R391). -/
def State.tact (s : State) (p n : Nat) (f : State → TrapRec → State) : State :=
  match takeFirst (fun (r : TrapRec) => decide (r.seq % 2 ^ 61 = n)) (s.part p).await with
  | none => s
  | some (r, rest) => if !s.stillParked r then s else f (s.modPart p (fun x => { x with await := rest })) r

/-- The record goes on awaiting the host. -/
def State.keepAwait (s : State) (p : Nat) (r : TrapRec) : State := s.modPart p (fun x => { x with await := x.await ++ [r] })

def execTactKill (p n : Nat) (s : State) : Out := .next (s.tact p n (fun s r => s.killRec r))
def execTactReplay (p n : Nat) (s : State) : Out :=
  .next (s.tact p n (fun s r =>
    if r.cause = .ue && r.org = 3 then s.keepAwait p r
    else if s.repeated r && !r.rpt then s.toRing p { r with rpt := true }
    else if s.serviceWaits r then (s.keepAwait p r).post (.tactReplay p n) (s.cyc + 1)
    else s.serveReplay p r))
def execTactPark (p n : Nat) (s : State) : Out := .next (s.tact p n (fun s r => s.keepAwait p r))
def execTactForward (p n : Nat) (s : State) : Out :=
  .next (s.tact p n (fun s r => match tfind s.fields r.field with
    | some f =>
      let (a, h) := f.action r.cause
      if a = 3 && h ≠ r.lcn then s.forwardRec p r h else s.keepAwait p r
    | none => s))
def execTactRollback (p n : Nat) (s : State) : Out := .next (s.tact p n (fun s r => s.rollField r.field))

/-! ## A change of translation completes (09 R275, R279, 16 R381) -/

/-- A new import entry takes effect; no core keeps a sector fetched through the old one (16 R373). -/
def State.installImport (s : State) (p h : Nat) : State :=
  let s := s.modPart p (fun x => match tfind x.imports (4096 + h) with
    | some e => { x with imports := tset (tdel x.imports (4096 + h)) h e }
    | none => x)
  let old := fun (d : Dest) => match d with | .imp r g _ _ => r = p && g = h | _ => false
  { s with cores := tmap (fun _ k => if k.pbuf.any (fun e => e.r && old e.dst) then k.evictR old else k) s.cores }

/-- An access to HBM under a key slot. -/
def Dest.under (slot : Nat) : Dest → Bool | .hbm _ k => decide (k = slot) | _ => false

/-- The destination of a request that its home has yet to perform; a WAITGE's counter is read at each examination. -/
def ReqKind.awaited (slot : Nat) : ReqKind → Bool
  | .lda d _ _ _ => d.under slot
  | .strel d _ _ => d.under slot
  | .atomic _ _ d _ _ => d.under slot
  | _ => false

/-- A thread waits with an access that is translated and not yet sent: the own access of a request behind its drains, or stores
that wait for room in the phase buffer (R275, 16 R381). -/
def Wait.awaited (slot : Nat) : Wait → Bool
  | .drains _ (.req _ k _) => k.awaited slot
  | .room l _ _ _ => l.any (fun x => match x with | .far d _ _ => d.under slot | _ => false)
  | _ => false

/-- A controller has still to finish an access of the partition under a key slot (16 R381). -/
def State.accepted (s : State) (p slot : Nat) : Bool :=
  s.cores.any (fun e => decide (e.2.part = p) &&
    (e.2.fetches.any (fun f => f.got.isNone && f.dst.under slot) || e.2.reqs.any (fun r => r.k.awaited slot) ||
      e.2.pbuf.any (fun x => decide (x.mask ≠ 0) && x.dst.under slot) || e.2.threads.any (fun t => t.2.wait.awaited slot) ||
      e.2.gatQ.any (fun q => q.parts.any (fun x => x.dst.under slot))))

/-- The last steps of a REVOKE (16 R381): the atomic engines write back the lines they own under the slot, and its key is
zeroised. -/
def State.zeroise (s : State) (slot : Nat) : State :=
  let key := s.keyPair slot
  let mine := fun (sec : Nat) => match tfind s.hbmKey sec with | some (k, _) => decide (k = key) | none => false
  { s with owned := s.owned.filter (fun o => !(mine (2 * o.2) || mine (2 * o.2 + 1))), keys := tset s.keys slot .revoked }

/-- A change that every core has acknowledged can complete: the controllers have finished, or, of a collapse, a leader runs
(16 R381, 19 R422). -/
def State.completes (s : State) (p : Nat) (q : Change) : Bool :=
  decide (q.todo = []) && !(q.then' = 1 && s.accepted p q.arg) && !(q.then' = 3 && !s.leaderUp)

/-- The records of a partition whose service awaited a collapse are served again, and find the page collapsed (R279): so
does a leader that takes a service again from its start (19 R422). -/
def State.serveAgain (s : State) (p : Nat) (q : Change) : State :=
  let mine := fun (r : TrapRec) => decide (q.base ≤ bits r.faddr.toNat 47 0) && decide (bits r.faddr.toNat 47 0 < q.base + q.len)
  let l := (s.part p).serving.filter mine
  l.foldl (fun s r => s.serveReplay p r) (s.modPart p (fun x => { x with serving := x.serving.filter (fun r => !mine r) }))

/-- TRANSLATION_CHANGE_COMPLETE: every core has acknowledged; the other translators forget the range; what the change was
for follows. -/
def execTranslationChangeComplete (p : Nat) (s : State) : Out :=
  .next (match takeFirst (s.completes p) (s.part p).changes with
    | none => if (s.part p).changes.any (fun q => decide (q.todo = [])) then s.post (.translationChangeComplete p) (s.cyc + 1) else s
    | some (q, rest) =>
      let keep := fun (x : Xlate) => !q.hits p x
      let s := { s with xlate := s.xlate.filter keep, xpast := s.xpast.filter keep }.modPart p (fun x => { x with changes := rest })
      match q.then' with
      | 0 => s.complete p 0x0628 0
      | 1 => (s.zeroise q.arg).complete p 0x0708 0
      | 2 => (s.installImport p q.arg).complete p 0x0828 0
      | _ => s.serveAgain p q)

/-- UE_CORE_STATE (18 R417, 19 R426): the die's firmware core sends the record; when the error stands in a cell register or
latch of a bench cell, its bench thaws with reason cell fault. -/
def execUeCoreState (c : Nat) (s : State) : Out :=
  let k := s.core c
  .next (if k.field.isNone then s
    else
      let s := match k.cell with
        | some x => if k.cellUe then (s.modCore c (fun k => { k with cellUe := false })).beginThaw x.bench 4 else s
        | none => s
      s.sendRec c (mkRec k 0 3 .ue 0 0 false 0))

end Sys2Proof.Machine
end

