-- ==== Sys2Proof/Machine/Functions.lean ====
section
/-! DEFINITION. Commands of a partition's register block (16 R365, R369, R372, R373, R379, R381): INV, LOAD, REVOKE, IMPORT,
EXPORT, and the clearing of a halted queue. -/

namespace Sys2Proof.Machine

/-- A status register that shows BUSY (R365). -/
def busyWord : Word := wordN (2 ^ 63)

/-- INV (R365, R379). -/
def execInvRange (p : Nat) (s : State) : Out :=
  let (b, n) := ((s.reg p 0x0610).toNat, (s.reg p 0x0618).toNat)
  .next (if b % 0x10000 ≠ 0 ∨ n % 0x10000 ≠ 0 ∨ n = 0 ∨ 2 ^ 48 < b + n then s.complete p 0x0628 1
    else (s.setReg p 0x0628 busyWord).beginChange p { kind := 0, base := b, len := n, todo := [], then' := 0, arg := 0 })

/-! ## Key slots (R380, R381, 19 R432) -/

/-- The slot a KEYOP names. -/
def State.keyOp (s : State) (p : Nat) : Nat := wbits (s.reg p 0x0700) 13 8

/-- The 72-byte blob (R365). -/
def State.keyBlob (s : State) (p : Nat) : List Byte := (upto 9).flatMap (fun i => bytesLE (s.reg p (0x0710 + 8 * i)).toNat 8)

/-- A partition's measurement is extended (R432). -/
def State.extend (s : State) (p slot : Nat) (l : List Byte) : State :=
  s.modPart p (fun x => { x with pmeas := sha256 (bytesLE x.pmeas.toNat 32 ++ bytesLE slot 1 ++ l) })

/-- LOAD (R381). -/
def execLoadKey (p : Nat) (s : State) : Out :=
  let k := s.keyOp p
  .next (if bits (s.part p).keys k k = 0 then s.complete p 0x0708 1
    else if tget KeySlot.empty s.keys k ≠ .empty then s.complete p 0x0708 3
    else match keyUnwrap (s.part p).wrap (s.keyBlob p) with
      | none => s.complete p 0x0708 2
      | some pair =>
        (({ s with keys := tset s.keys k (.loaded pair) }).extend p k (bytesLE (sha256 (s.keyBlob p)).toNat 32)).complete p
          0x0708 0)

/-- REVOKE (R381): new translations fault, a change of translation drains what is under the slot, the key is zeroised. -/
def execRevoke (p : Nat) (s : State) : Out :=
  let k := s.keyOp p
  .next (if bits (s.part p).keys k k = 0 then s.complete p 0x0708 1
    else
      let s := { s with keys := tset s.keys k (.revoking (s.keyPair k)) }
      let s := (s.extend p k (List.replicate 32 0xFF)).setReg p 0x0708 busyWord
      s.beginChange p { kind := 1, base := k, len := 0, todo := [], then' := 1, arg := k })

/-! ## Imports and exports (R372, R373) -/

/-- Where a new entry waits until its change of translation completes: beyond the 4,096 handles. -/
def pendingHandle (h : Nat) : Nat := 4096 + h

/-- IMPORT (R365, R373): the entry takes effect when its change of translation completes. -/
def execImportEntry (p : Nat) (s : State) : Out :=
  let e := fun i => s.reg p (0x0808 + 8 * i)
  let h := (s.reg p 0x0800).toNat
  .next (if wbits (e 0) 63 40 ≠ 0 ∨ wbits (e 0) 15 5 ≠ 0 ∨ e 3 ≠ 0 ∨ 4095 < h then s.complete p 0x0828 1
    else
      let s := s.modPart p (fun x => { x with imports := tset x.imports (pendingHandle h) ⟨e 0, e 1, e 2⟩ })
      (s.setReg p 0x0828 busyWord).beginChange p { kind := 2, base := h, len := 0, todo := [], then' := 2, arg := h })

/-- EXPORT (R365, R372). -/
def execExportRange (p : Nat) (s : State) : Out :=
  let (n, b, l) := (wbits (s.reg p 0x0900) 7 0, (s.reg p 0x0908).toNat, (s.reg p 0x0910).toNat)
  .next (if l = 0 then (s.modPart p (fun x => { x with exports := tdel x.exports n })).complete p 0x0920 0
    else if b % 0x10000 ≠ 0 ∨ 2 ^ 48 < b + l then s.complete p 0x0920 1
    else (s.modPart p (fun x => { x with exports := tset x.exports n ⟨b, l, wbit (s.reg p 0x0918) 0⟩ })).complete p 0x0920 0)

/-! ## Queues (R331, R369) -/

/-- HLT_CLEAR (R369): after an overflow the pending entries, by the write index that the doorbell holds now, are discarded; otherwise
dispatch resumes at the head. -/
def execHltClear (p q : Nat) (s : State) : Out :=
  let x := s.queue p q
  .next (if !x.hlt then s
    else
      let s := s.modQueue p q (fun y => { y with hlt := false, err := 0 })
      if x.err = 1 then
        let v := match s.doorbell p q with | .ok v => v | .error _ => x.wr
        match s.writeRix p q v with
        | some s => s.modQueue p q (fun y => { y with rd := v, wr := v })
        | none => s.rixHalt p q
      else s.post1 (.doorbellWrite p q))

end Sys2Proof.Machine
end

