-- ==== Sys2Proof/Machine/Partition.lean ====
section
/-! DEFINITION. Management commands of function 0 (16 R367, R376, R380), package reset (R359, 19 R428), power (19 R433,
R434), sensors and scrubs (R423, R425, R434). -/

namespace Sys2Proof.Machine

/-! ## PCMD -/

/-- A management command completes (R365, R366). -/
def State.pdone (s : State) (code : Nat) : State := { s with pstat := statusWord s.seqNo code, seqNo := s.seqNo + 1 }

/-- Doubleword i of the staged configuration record. -/
def State.stage (s : State) (i : Nat) : Word := tget 0 s.pstage i

/-- The dies of a mask as a rectangle of the 3 × 3 grid: column, row, width, height (R375). -/
def dieRect (m : Nat) : Option (Nat × Nat × Nat × Nat) :=
  let ds := (upto 9).filter (fun d => bits m d d = 1)
  match ds with
  | [] => none
  | d :: _ =>
    let x0 := ds.foldl (fun a e => min a (e % 3)) (d % 3)
    let x1 := ds.foldl (fun a e => max a (e % 3)) (d % 3)
    let y0 := ds.foldl (fun a e => min a (e / 3)) (d / 3)
    let y1 := ds.foldl (fun a e => max a (e / 3)) (d / 3)
    if ds.length = (x1 + 1 - x0) * (y1 + 1 - y0) then some (x0, y0, x1 + 1 - x0, y1 + 1 - y0) else none

/-- A resv field of the record is not zero, a number is out of range, or an address is misaligned: status 4 (R367). -/
def State.stageBad (s : State) : Bool :=
  let w := s.stage
  wbits (w 0) 15 8 ≠ 0 || wbits (w 0) 63 48 ≠ 0 || decide (8 < wbits (w 0) 7 0) || wbits (w 0) 31 25 ≠ 0 || wbits (w 0) 47 44 ≠ 0 ||
    wbits (w 2) 63 18 ≠ 0 || (w 3).toNat % 0x10000 ≠ 0 || (w 4).toNat % 0x10000 ≠ 0 ||
    [5, 6, 7, 12, 13, 14, 15].any (fun i => w i ≠ 0)

/-- The bytes of the staged record, its wrapping key as zeros (19 R432). -/
def State.stageBytes (s : State) : List Byte :=
  (upto 16).flatMap (fun i => bytesLE (if 8 ≤ i ∧ i < 12 then 0 else (s.stage i).toNat) 8)

/-- The partition the record describes (R376). -/
def State.stagePart (s : State) (r : Nat × Nat × Nat × Nat) : Part :=
  let w := s.stage
  { dies := wbits (w 0) 31 16, stackSet := wbits (w 0) 47 32, keys := (w 1).toNat, ports := wbits (w 2) 31 0,
    wrap := w 11 ++ w 10 ++ w 9 ++ w 8, ckbase := (w 3).toNat, ckstride := (w 4).toNat, pmeas := sha256 s.stageBytes,
    x0 := 336 * r.1, y0 := 336 * r.2.1, w := 336 * r.2.2.1, h := 336 * r.2.2.2, lastTel := s.cyc }

/-- A resource is named by two partitions (R376). -/
def Part.clash (a b : Part) : Bool :=
  (a.dies &&& b.dies) ≠ 0 || (a.stackSet &&& b.stackSet) ≠ 0 || (a.keys &&& b.keys) ≠ 0 || (a.ports &&& b.ports) ≠ 0

/-- The stacks of a mask. -/
def stacksOf (m : Nat) : List Nat := (upto 12).filter (fun h => bits m h h = 1)

/-- The span of holding its stacks that a new partition is in, and whether one of them was another's before: the same number
with the same stacks, which nobody has held since, goes on in its span and finds what it stored (R380; log 15). -/
def State.stackSpan (s : State) (p set : Nat) : Nat × Bool :=
  let l := (stacksOf set).map (tfind s.stackUse)
  match l.head? with
  | some (some u) =>
    if u.part = p && u.set = set && l.all (fun x => x = some u) then (u.era, u.used) else (s.nextId, l.any Option.isSome)
  | _ => (s.nextId, l.any Option.isSome)

/-- The stacks of a partition that is gone. -/
def State.leftStacks (s : State) (p : Nat) (x : Part) : Tab StackUse :=
  (stacksOf x.stackSet).foldl (fun t h => tset t h ⟨p, x.stackSet, x.era, x.usedBefore⟩) s.stackUse

/-- CREATE (R367, R376): statuses in the order 4, 3, 2, 1, 5. -/
def execCreatePart (s : State) : Out :=
  let p := wbits (s.stage 0) 7 0
  .next (if !s.leaderUp then ({ s with pstat := busyWord } : State).post .createPart (s.cyc + 1)
    else if s.stageBad then s.pdone 4
    else if (tfind s.parts p).isSome then s.pdone 3
    else match dieRect (wbits (s.stage 0) 31 16) with
      | none => s.pdone 2
      | some r =>
        let x := s.stagePart r
        if x.stackSet = 0 then s.pdone 2
        else if s.parts.any (fun e => e.2.clash x) then s.pdone 1
        else if (upto 9).any (fun d => bits x.dies d d = 1 && !(s.die d).clk) then s.pdone 5
        else
          let (era, used) := s.stackSpan p x.stackSet
          let x := { x with era := era, usedBefore := used }
          ({ s with parts := tset s.parts p x, nextId := s.nextId + 1 } : State).pdone 0)

/-- The last of a partition's destruction (R376): cores, caches, buffers and keys go. -/
def State.razePart (s : State) (p : Nat) (x : Part) : State :=
  let inside := fun (c : Nat) => bits x.dies (dieOf c) (dieOf c) = 1
  let cl := fun (n : Nat) => inside (n / 126 * 8 * 1008 + n % 126 * 8)
  { s with
    cores := s.cores.filter (fun e => !inside e.1), icache := s.icache.filter (fun l => !cl l.cluster),
    xlate := s.xlate.filter (fun t => t.part ≠ p), xpast := s.xpast.filter (fun t => t.part ≠ p),
    owned := s.owned.filter (fun o => !cl o.1),
    fields := s.fields.filter (fun f => f.2.part ≠ p), inParts := s.inParts.filter (fun q => q.part ≠ p),
    inReads := s.inReads.filter (fun q => q.part ≠ p),
    keys := s.keys.filter (fun k => bits x.keys k.1 k.1 = 0), stackUse := s.leftStacks p x, parts := tdel s.parts p }

/-- Every context of a partition is gone but for retirements that await room in a ring. -/
def State.partQuiet (s : State) (p : Nat) : Bool := !s.fields.any (fun e => e.2.part = p && e.2.stage ≠ .retiring)

/-- DESTROY (R376): every context is killed; when the purges are confirmed the resources are free. -/
def execDestroyPart (s : State) : Out :=
  .next (if !s.leaderUp then ({ s with pstat := busyWord } : State).post .destroyPart (s.cyc + 1)
    else match s.parts.find? (fun e => e.2.destroying) with
    | some (p, x) => if s.partQuiet p then (s.razePart p x).pdone 0 else s
    | none =>
      let p := wbits s.parg 3 0
      match tfind s.parts p with
      | none => s.pdone 3
      | some x =>
        if s.partQuiet p then (s.razePart p x).pdone 0
        else
          let s := (s.fields.filter (fun e => decide (e.2.part = p))).foldl (fun s e => s.killField e.1) s
          ({ s with pstat := busyWord } : State).modPart p (fun x => { x with destroying := true }))

/-- CKSET (R367). -/
def execCkset (s : State) : Out :=
  let p := wbits (s.stage 0) 7 0
  let (b, n) := ((s.stage 3).toNat, (s.stage 4).toNat)
  .next (if (tfind s.parts p).isNone then s.pdone 3
    else if b % 0x10000 ≠ 0 ∨ n % 0x10000 ≠ 0 then s.pdone 4
    else (s.modPart p (fun x => { x with ckbase := b, ckstride := n })).pdone 0)

/-- KILL (R367, R397). -/
def execKillCtx (s : State) : Out :=
  let p := wbits s.parg 3 0
  .next (if (tfind s.parts p).isNone then s.pdone 3
    else match s.liveField p (wbits s.parg 27 16) with
      | none => s.pdone 3
      | some (i, _) => (s.killField i).pdone 0)

/-- KRET (R367, R380). -/
def execKret (s : State) : Out :=
  let (p, k) := (wbits s.parg 3 0, wbits s.parg 13 8)
  .next (if bits (s.part p).keys k k = 1 ∧ tget KeySlot.empty s.keys k = .revoked then
      ({ s with keys := tdel s.keys k } : State).pdone 0
    else s.pdone 6)

/-! ## Package reset -/

/-- POWER_ON_RESET (R359, 19 R428, R429): everything as at reset, but for what the manual keeps: SVNMIN, the owner store,
the active image, which is now the running one; the bytes in HBM and in the host's memory are not touched (log 27). -/
def execPowerOnReset (s : State) : Out :=
  let img := s.active.getD s.running
  .next { State.reset with
    hbm := s.hbm, hbmKey := s.hbmKey,
    stackUse := s.parts.foldl (fun t e => ({ s with stackUse := t } : State).leftStacks e.1 e.2) s.stackUse,
    hostMem := s.hostMem, svnMin := s.svnMin, owners := s.owners, moduli := s.moduli, active := s.active, running := img,
    script := s.script, free := s.free, nonces := [], nextId := s.nextId }

/-! ## Power (19 R433, R434) -/

/-- CAP_WRITE (R433): the cap holds at the governor's next examination of its head request. -/
def execCapWrite (d : Nat) (v : BitVec 64) (s : State) : Out :=
  .next ((s.modDie d (fun x => { x with cap := wbits v 35 0 })).post1 (.leaveGrant d))

/-- GATE_WRITE (R433): ramp and gate of a die. -/
def execGateWrite (d : Nat) (v : BitVec 64) (s : State) : Out :=
  .next (s.modDie d (fun x => { x with ramp := max 1 (min 42 (wbits v 55 48)), gate := BitVec.ofNat 42 (wbits v 47 6) }))

/-- CLK_WRITE (R433, R434): a write of 0 to a die of a partition is refused. -/
def execClkWrite (d : Nat) (v : BitVec 64) (s : State) : Out :=
  .next (if !wbit v 0 && (s.dieOwner d).isSome then s.modDie d (fun x => { x with cref := true })
    else s.modDie d (fun x => { x with clk := wbit v 0 }))

/-- A core of cluster row r of die d belongs to a field or is a forwarder (R434). -/
def State.rowUsed (s : State) (d r : Nat) : Bool :=
  s.cores.any (fun e => decide (dieOf e.1 = d) && decide (posY e.1 % 336 / 8 = r) && (e.2.field.isSome || e.2.fwdTo.isSome || e.2.placing))

/-- A row is to be gated now; a row is to be ungated now (R434). -/
def State.gateDue (s : State) (d r : Nat) : Bool :=
  (s.die d).gate.getLsbD r && !(s.die d).gated.getLsbD r && !s.rowUsed d r
def State.ungateDue (s : State) (d r : Nat) : Bool :=
  let x := s.die d
  !x.gate.getLsbD r && x.gated.getLsbD r && (decide (x.span + 1400 ≤ s.cyc) || decide (x.ungated < x.ramp)) &&
    !(upto r).any (fun q => !x.gate.getLsbD q && x.gated.getLsbD q)

/-- ROW_GATE (R434). -/
def execRowGate (d r : Nat) (s : State) : Out :=
  .next (if s.gateDue d r then s.modDie d (fun x => { x with gated := x.gated ||| BitVec.ofNat 42 (2 ^ r) }) else s)

/-- ROW_UNGATE (R434): at most ramp rows in 1,400 ticks, in ascending order. -/
def execRowUngate (d r : Nat) (s : State) : Out :=
  .next (if !s.ungateDue d r then s
    else s.modDie d (fun x =>
      let fresh := x.span + 1400 ≤ s.cyc
      { x with gated := x.gated &&& ~~~ BitVec.ofNat 42 (2 ^ r), span := if fresh then s.cyc else x.span,
               ungated := if fresh then 1 else x.ungated + 1 }))

/-! ## Die duties (19 R423, R425, R434) -/

/-- SENSOR_READ (R434): sensor n of die d reads v; at or above the threshold only a report of class 13 follows. -/
def execSensorRead (d n v : Nat) (s : State) : Out :=
  .next (if s.tthr ≤ v then s.report (s.dieOwner d) 13 0 d n 0 else s)

/-- SCRUB (R425): unit u is a die's local stores, or 9 for HBM; each uncorrectable word found is reported and left. -/
def execScrub (u : Nat) (s : State) : Out :=
  .next (if u < 9 then
      let bad := s.cores.flatMap (fun e => if dieOf e.1 = u then e.2.lsUe.map (fun w => (e.1, w)) else [])
      bad.foldl (fun s w => s.ueReport (.ls w.1 (8 * w.2)) 0) s
    else s.hbmUe.foldl (fun s w => s.ueReport (.hbm (8 * w) 0) 0) s)

end Sys2Proof.Machine
end

