-- ==== Sys2Proof/Machine/Firmware.lean ====
section
/-! DEFINITION. Firmware cores and their lease (19 R419 to R422), images and ownership (R427 to R430), attestation (R431,
R432). Keys the device is never given, its own signatures and its nonces are opaque (log 17). -/

namespace Sys2Proof.Machine

/-! ## The lease (R420, R421) -/

/-- Every firmware core that runs and holds itself to be the leader sends a renewal, with its epoch (R420, R421). -/
def State.sendRenewals (s : State) : State :=
  (s.epochs.filter (fun e => !s.fwStopped.contains e.1)).foldl
    (fun s e => ({ s with renewals := s.renewals ++ [e] } : State).post .leaseRenewal) s

/-- LEASE_RENEWAL (R420, R421): the oldest renewal arrives at the lease word; one that names an earlier epoch is refused, and
its core becomes a follower. -/
def execLeaseRenewal (s : State) : Out :=
  .next (match s.renewals with
    | [] => s
    | (i, e) :: r =>
      if e < s.leaseEpoch then { s with renewals := r, epochs := tdel s.epochs i }
      else { s with renewals := r, leaseExpiry := s.cyc + 28000000 })

/-- The delay of a follower's attempt (R420). -/
def leaseDelay (i : Nat) : Nat := if i = 9 then 0 else (i + 1) * 140000

/-- LEASE_TAKEOVER (R420): an indivisible compare-and-swap; an early attempt, or one of a stopped core, does nothing. -/
def execLeaseTakeover (i : Nat) (s : State) : Out :=
  .next (if 9 < i ∨ s.fwStopped.contains i ∨ i = s.leaseHolder ∨ s.cyc < s.leaseExpiry + leaseDelay i then s
    else
      let e := s.leaseEpoch + 1
      { s with leaseHolder := i, leaseEpoch := e, leaseExpiry := s.cyc + 28000000, epochs := tset s.epochs i e })

/-! ## Security commands (R428 to R430) -/

/-- A security command completes. -/
def State.fwdone (s : State) (code : Nat) : State := { s with fwstat := statusWord s.seqNo code, seqNo := s.seqNo + 1 }

/-- n bytes of host memory. -/
def State.hostBytes (s : State) (a n : Nat) : List Byte := mreadBytes s.hostMem a n

/-- The leader is down: the command waits, busy. -/
def State.fwWait (s : State) (e : Ev) : State := ({ s with fwstat := busyWord } : State).post e (s.cyc + 1)

/-- The modulus behind an owner hash (R427): one the device has taken with OWNADD, or, of an owner key it was given by its
hash alone (R428 OWNXFER), the opaque one of log 17. -/
def State.ownerModulus (s : State) (h : BitVec 256) : List Byte :=
  (s.moduli.find? (fun m => decide (sha256 m = h))).getD (Config.ownerKey h)

/-- A key held in the owner store verifies a signature (R427). -/
def State.ownerSigned (s : State) (msg sig : List Byte) : Bool :=
  s.owners.any (fun h => pssVerify (s.ownerModulus h) msg sig)

/-- The header and body of an image at a host address (R427). -/
def State.imageAt (s : State) (a : Nat) : List Byte :=
  s.hostBytes a (1024 + ofBytesLE (s.hostBytes (a + 8) 8))

/-- svn of an image; 0 when there is none. -/
def imageSvn (l : List Byte) : Nat := ofBytesLE ((l.drop 4).take 4)

/-- VERIFY (R428). -/
def execVerifyImage (s : State) : Out :=
  let a := s.fwarg.toNat
  let size := ofBytesLE (s.hostBytes (a + 8) 8)
  .next (if !s.leaderUp then s.fwWait .verifyImage
    else if s.hostBytes a 4 ≠ [0x4A, 0x52, 0x46, 0x57] ∨ size % 64 ≠ 0 ∨ 2 ^ 24 < size then s.fwdone 1
    else
      let img := s.imageAt a
      let hdr := img.take 0x80
      if bytesLE (sha256 (img.drop 1024)).toNat 32 ≠ (img.drop 0x10).take 32 then s.fwdone 2
      else if !pssVerify Config.makerKey hdr ((img.drop 0x80).take 384) then s.fwdone 3
      else if !s.ownerSigned hdr ((img.drop 0x200).take 384) then s.fwdone 4
      else if imageSvn img < s.svnMin.toNat then s.fwdone 5
      else ({ s with verified := some img } : State).fwdone 0)

/-- ACTIVATE (R428). -/
def execActivate (s : State) : Out :=
  .next (if !s.leaderUp then s.fwWait .activate
    else match s.verified with
      | none => s.fwdone 6
      | some img => ({ s with active := some img } : State).fwdone 0)

/-- SVNSET (R428, R429). -/
def execSvnset (s : State) : Out :=
  let v := ofBytesLE (s.hostBytes s.fwarg.toNat 4)
  .next (if !s.leaderUp then s.fwWait .svnset
    else if s.svnMin.toNat ≤ v ∧ v ≤ imageSvn (s.active.getD s.running) then
      ({ s with svnMin := BitVec.ofNat 32 v } : State).fwdone 0
    else s.fwdone 5)

/-- OWNADD (R428). -/
def execOwnadd (s : State) : Out :=
  let m := s.hostBytes s.fwarg.toNat 384
  .next (if !s.leaderUp then s.fwWait .ownadd
    else if s.owners ≠ [] && !s.ownerSigned m (s.hostBytes (s.fwarg.toNat + 384) 384) then s.fwdone 4
    else if 4 ≤ s.owners.length then s.fwdone 7
    else ({ s with owners := s.owners ++ [sha256 m], moduli := s.moduli ++ [m] } : State).fwdone 0)

/-- NONCE (R428). -/
def execFreshNonce (s : State) : Out :=
  .next (if !s.leaderUp then s.fwWait .freshNonce
    else
      let n := Config.nonce s.free
      ({ s with free := s.free + 1, nonces := s.nonces ++ [n],
                hostMem := mwriteBytes s.hostMem s.fwarg.toNat (bytesLE n.toNat 32) } : State).fwdone 0)

/-- OWNXFER (R428, R430): the nonce it names is consumed in any case. -/
def execOwnxfer (s : State) : Out :=
  let a := s.fwarg.toNat
  let n : BitVec 256 := BitVec.ofNat 256 (ofBytesLE (s.hostBytes a 32))
  let h : BitVec 256 := BitVec.ofNat 256 (ofBytesLE (s.hostBytes (a + 32) 32))
  .next (if !s.leaderUp then s.fwWait .ownxfer
    else
      let had := s.nonces.contains n
      let good := s.ownerSigned (s.hostBytes a 64) (s.hostBytes (a + 64) 384)
      let s := { s with nonces := s.nonces.filter (fun x => x ≠ n) }
      if s.parts ≠ [] then s.fwdone 8
      else if !had || !good then s.fwdone 4
      else ({ s with keys := [], owners := [h] } : State).fwdone 0)

/-! ## Attestation (R432) -/

/-- The owner field: SHA-256 over the four store entries, empty ones as zero. -/
def State.ownerDigest (s : State) : BitVec 256 :=
  sha256 ((upto 4).flatMap (fun i => bytesLE (s.owners.getD i 0).toNat 32))

/-- The 640 bytes of a report. -/
def State.attestBytes (s : State) (part seq nonce : Nat) (pmeas : BitVec 256) : List Byte :=
  let body := [0x4A, 0x52, 0x41, 0x54] ++ bytesLE 1 2 ++ bytesLE part 1 ++ bytesLE 0 1 ++ bytesLE seq 8 ++ bytesLE nonce 32 ++
    bytesLE (sha256 s.running).toNat 32 ++ bytesLE (imageSvn s.running) 4 ++ bytesLE s.svnMin.toNat 4 ++ bytesLE 0 8 ++
    bytesLE s.ownerDigest.toNat 32 ++ bytesLE pmeas.toNat 32 ++ bytesLE 0 96
  body ++ bytesLE (Config.identitySign body).toNat 384

/-- Write a report to host memory under a fresh sequence number. -/
def State.attestTo (s : State) (a part nonce : Nat) (pmeas : BitVec 256) : State :=
  { s with seqNo := s.seqNo + 1, hostMem := mwriteBytes s.hostMem a (s.attestBytes part s.seqNo nonce pmeas) }

/-- ATTEST (R428, R432): a package report. -/
def execAttest (s : State) : Out :=
  let a := s.fwarg.toNat
  .next (if !s.leaderUp then s.fwWait .attest
    else (s.attestTo (ofBytesLE (s.hostBytes (a + 32) 8)) 0xFF (ofBytesLE (s.hostBytes a 32)) 0).fwdone 0)

/-- ATTREQ (16 R365, R432): a report of a partition. -/
def execAttreq (p : Nat) (s : State) : Out :=
  let n := (upto 4).foldl (fun v i => v + (s.reg p (0x0A00 + 8 * i)).toNat * 2 ^ (64 * i)) 0
  .next (if !s.leaderUp then (s.setReg p 0x0A28 busyWord).post (.attreq p) (s.cyc + 1)
    else (s.attestTo (s.reg p 0x0A20).toNat p n (s.part p).pmeas).complete p 0x0A28 0)

end Sys2Proof.Machine
end

