-- ==== Sys2Proof/Machine/Debug.lean ====
section
/-! DEFINITION. The debugger of a partition (19 R435 to R440): its commands, breakpoints, and the delivery of its events. -/

namespace Sys2Proof.Machine

/-! ## Events (R440) -/

/-- An event waits, in the order the events were raised, until the ring has room (16 R370). -/
def State.debugEvent (s : State) (c slot kind iaddr : Nat) : State :=
  let k := s.core c
  let rec' := bytesLE s.seqNo 8 ++ bytesLE k.lcn 4 ++ bytesLE slot 1 ++ bytesLE kind 1 ++ bytesLE k.ctx 2 ++ bytesLE iaddr 8 ++ bytesLE 0 8
  (({ s with seqNo := s.seqNo + 1 } : State).modPart k.part (fun x => { x with debugEv := x.debugEv ++ [rec'] })).post1 (.debugEventDelivery k.part)

/-- DEBUG_EVENT_DELIVERY (16 R370). -/
def execDebugEventDelivery (p : Nat) (s : State) : Out :=
  .next (match (s.part p).debugEv with
    | [] => s
    | b :: r =>
      if (s.part p).dring.full then s
      else
        let (s, g) := s.ringWrite (s.part p).dring (p + 1) 3 b
        (s.modPart p (fun x => { x with dring := g, debugEv := r })).post1 (.debugEventDelivery p))

/-! ## Halting (R436, R438, R439) -/

/-- A halted thread; when every slot a halt names has halted, its event is posted (R436). -/
def State.haltSlot (s : State) (c t : Nat) : State :=
  s.modThr c t (fun h => { h with halted := true, haltReq := false })

/-- The slots of a mask that are not empty. -/
def Core.liveMask (k : Core) (m : Nat) : Nat :=
  (upto 16).foldl (fun a t => if bits m t t = 1 ∧ (k.thr t).st ≠ .empty then a + 2 ^ t else a) 0

/-- Every slot of a halt command has halted, or is empty. -/
def Core.allHalted (k : Core) (m : Nat) : Bool :=
  k.threads.all (fun e => bits m e.1 e.1 = 0 || e.2.st = .empty || e.2.halted)

/-- The events of the halt commands that are complete, in the order of the commands; a slot that empties is waited for no more,
whatever is started in it then. -/
def State.checkHalt (s : State) (c : Nat) : State :=
  let k := s.core c
  (k.haltMask.filter k.allHalted).foldl (fun s _ => s.debugEvent c 0xFF 3 0)
    (s.modCore c (fun k => { k with haltMask := (k.haltMask.filter (fun m => !k.allHalted m)).map k.liveMask }))

/-- BREAKPOINT_HIT (R439): the slot becomes halted instead of issuing; it will issue this word without checking again. -/
def execBreakpointHit (c t : Nat) (s : State) : Out :=
  .next ((s.modThr c t (fun h => { h with halted := true, haltReq := false, skipBp := true, stepReq := false, stepped := false })).debugEvent c t 1
    (s.thr c t).pc.toNat)

/-! ## Commands (R435 to R437) -/

/-- DARG0's fields. -/
def State.dmask (s : State) (p : Nat) : Nat := wbits (s.reg p 0x2008) 35 20
def State.ditem (s : State) (p : Nat) : Nat := wbits (s.reg p 0x2008) 43 36
def State.dindex (s : State) (p : Nat) : Bool := wbit (s.reg p 0x2008) 44

/-- A command is done with a status, and a result (R435). -/
def State.dstat (s : State) (p code : Nat) : State := s.setReg p 0x2020 (wordN code)
def State.dres (s : State) (p : Nat) (v : Word) : State := (s.setReg p 0x2018 v).dstat p 0

/-- The core a command names, or the status that refuses it: 1 no such context or core, 3 migrating (R437). -/
def State.dcore (s : State) (p : Nat) : Except Nat Nat :=
  let a := s.reg p 0x2008
  match s.liveField p (wbits a 59 48) with
  | none => .error 1
  | some (_, f) =>
    if f.fw * f.fh ≤ wbits a 19 0 then .error 1
    else
      let c := s.lcnPos f (wbits a 19 0)
      if (s.core c).migTo.isSome then .error 3 else .ok c

/-- Run a command on the core it names. -/
def State.onCore (s : State) (p : Nat) (f : Nat → State → State) : State :=
  match s.dcore p with
  | .error e => s.dstat p e
  | .ok c => f c s

/-- Change every slot of a mask that is not empty. -/
def Core.modSlots (k : Core) (m : Nat) (f : Thread → Thread) : Core :=
  { k with threads := tmap (fun t h => if bits m t t = 1 ∧ h.st ≠ .empty then f h else h) k.threads }

/-- A slot is to halt: a thread that may issue, at its next opportunity; one that may not, at once (R436; log 33). -/
def Thread.halt (h : Thread) (frozen : Bool) : Thread :=
  if h.halted then h else if h.st = .ready && !frozen then { h with haltReq := true } else { h with halted := true }

/-- The slots of a mask that are not empty are to halt (R436). -/
def State.haltMaskOf (s : State) (c m : Nat) : State :=
  (s.modCore c (fun k => { k.modSlots m (fun h => h.halt k.frozen) with haltMask := k.haltMask ++ [k.liveMask m] })).checkHalt c

/-- HALT. -/
def execHaltSlots (p : Nat) (s : State) : Out :=
  .next (s.onCore p (fun c s => (s.haltMaskOf c (s.dmask p)).dstat p 0))

/-- HALTC: all sixteen slots; the copy queue and the ring pause at a sector boundary. -/
def execHaltc (p : Nat) (s : State) : Out :=
  .next (s.onCore p (fun c s => (((s.modCore c (fun k => { k with haltc := true })).toSector c).haltMaskOf c 0xFFFF).dstat p 0))

/-- RESUME: slots return to their underlying states; the queues of a HALTC resume. A halt still pending that names one of
the slots is withdrawn, with its event (log 86). -/
def execResumeSlots (p : Nat) (s : State) : Out :=
  .next (s.onCore p (fun c s =>
    let s := s.modCore c (fun k => { k.modSlots (s.dmask p) (fun h =>
      { h with halted := false, haltReq := false, stepReq := false, stepped := false }) with
      haltc := false, haltMask := k.haltMask.filter (fun m => m &&& s.dmask p = 0) })
    ((s.wake c).resumeQueues c).dstat p 0))

/-- The one slot a mask names (R436). -/
def oneSlot (m : Nat) : Option Nat :=
  match (upto 16).filter (fun t => bits m t t = 1) with | [t] => some t | _ => none

/-- Run a command on the halted thread it names: status 1 without one such slot, 2 when it is not halted. -/
def State.onHalted (s : State) (p : Nat) (f : Nat → Nat → State → State) : State :=
  s.onCore p (fun c s => match oneSlot (s.dmask p) with
    | none => s.dstat p 1
    | some t =>
      if (s.thr c t).st = .empty then s.dstat p 1 else if !(s.thr c t).halted then s.dstat p 2 else f c t s)

/-- STEP (R439): the thread issues exactly one word. -/
def execStepSlot (p : Nat) (s : State) : Out :=
  .next (s.onHalted p (fun c t s => (s.modThr c t (fun h => { h with halted := false, stepReq := true, stepped := false })).dstat p 0))

/-- RDREG. -/
def execRdreg (p : Nat) (s : State) : Out :=
  .next (s.onHalted p (fun c t s =>
    let h := s.thr c t
    let i := s.ditem p
    if i < 16 then s.dres p (h.reg (BitVec.ofNat 4 i))
    else if i = 16 then s.dres p (h.pc.setWidth 64)
    else if i = 17 then s.dres p (wordN (5 + h.code * 256))
    else s.dstat p 3))

/-- WRREG: g0 ignores a write, the instruction address takes an aligned one, the state is read only. -/
def execWrreg (p : Nat) (s : State) : Out :=
  .next (s.onHalted p (fun c t s =>
    let i := s.ditem p
    let v := s.reg p 0x2010
    if i < 16 then (s.modThr c t (fun h => h.setReg (BitVec.ofNat 4 i) v)).dstat p 0
    else if i = 16 then (s.modThr c t (fun h => { h with pc := (v &&& ~~~ 3).setWidth 48, skipBp := false })).dstat p 0
    else s.dstat p 3))

/-- The thread copies of R37. -/
def threadCopy (n : Nat) : Bool :=
  [0x00, 0x10, 0x11, 0x12, 0x13, 0x1C, 0x20, 0x21, 0x22, 0x24, 0x25, 0x26, 0x27, 0x28, 0x29, 0x3C, 0x3D].contains n

/-- RDSPR. -/
def execRdspr (p : Nat) (s : State) : Out :=
  let n := (s.reg p 0x2010).toNat
  .next (match sprRead {} {} 0 0 n with
    | none => s.onCore p (fun _ s => s.dstat p 1)
    | some _ =>
      let read := fun (c t : Nat) (s : State) => match sprRead (s.core c) (s.thr c t) t s.cyc n with
        | some v => s.dres p v
        | none => s.dstat p 1
      if threadCopy n then s.onHalted p read else s.onCore p (fun c s => read c 0 s))

/-- RDCELL: a cell register as MFA reads it. -/
def execRdcell (p : Nat) (s : State) : Out :=
  .next (s.onCore p (fun c s =>
    let n := (s.reg p 0x2010).toNat
    if 39 < n then s.dstat p 1 else s.dres p ((s.core c).mfa (BitVec.ofNat 6 n))))

/-- BRKSET and BRKCLR (R439). -/
def execBrkset (p : Nat) (s : State) : Out :=
  .next (s.onCore p (fun c s =>
    let b := some ((s.reg p 0x2010).toNat, s.dmask p)
    (s.modCore c (fun k => if s.dindex p then { k with bp1 := b } else { k with bp0 := b })).dstat p 0))
def execBrkclr (p : Nat) (s : State) : Out :=
  .next (s.onCore p (fun c s =>
    (s.modCore c (fun k => if s.dindex p then { k with bp1 := none } else { k with bp0 := none })).dstat p 0))

/-- DEBUG_THAW. -/
def execDebugThaw (p : Nat) (s : State) : Out :=
  .next (s.onCore p (fun c s => match (s.core c).cell with
    | some x => (s.beginThaw x.bench 6).dstat p 0
    | none => s.dstat p 3))

/-- BARRD: completed episodes of the barrier for the core, and the cores arrived in the open one. -/
def execBarrd (p : Nat) (s : State) : Out :=
  .next (s.onCore p (fun c s =>
    let b := s.ditem p
    if 3 < b then s.dstat p 1
    else
      let k := s.core c
      let num := match k.field with
        | some i => (match tfind s.fields i with | some f => tget 0 f.episodes (k.lcn * 4 + b) | none => 0)
        | none => 0
      let arrived := match s.episodeOf c b with
        | some (_, e) => ((s.regionCores e).filter (fun x => (s.core x).arrived b)).length
        | none => 0
      s.dres p (wordN (num * 2 ^ 32 + arrived))))

end Sys2Proof.Machine
end

