-- ==== Sys2Proof/Machine/Integer.lean ====
section
/-! DEFINITION. Integer instructions (04 R109 to R118) and integer compare-skips (R119, R120, R122). Each meaning reads
its sources at issue, writes one register and retires; none sets a flag or traps (R109, R117). -/

namespace Sys2Proof.Machine

/-! ## Results -/

/-- bits(SX(bits(v, 31, 0), 32), 63, 0). -/
def sext32 (v : Word) : Word := (v.setWidth 32).signExtend 64

/-- A condition as 1 or 0. -/
def wordB (b : Bool) : Word := if b then 1 else 0

/-- MULH: bits(SX(a, 64) × SX(b, 64), 127, 64) (R110). -/
def mulHigh (a b : Word) : Word := wordI (a.toInt * b.toInt / 2 ^ 64)

/-- MULHU: bits(a × b, 127, 64) (R110). -/
def mulHighU (a b : Word) : Word := wordN (a.toNat * b.toNat / 2 ^ 64)

/-- DIV truncates toward zero; by zero −1; −2^63 by −1 is −2^63 (R111). -/
def divS (a b : Word) : Word := if b = 0 then BitVec.allOnes 64 else wordI (a.toInt.tdiv b.toInt)

/-- REM takes the sign of the dividend; by zero the dividend (R111). -/
def remS (a b : Word) : Word := if b = 0 then a else wordI (a.toInt.tmod b.toInt)

/-- DIVU: by zero 2^64 − 1 (R111). -/
def divU (a b : Word) : Word := if b = 0 then BitVec.allOnes 64 else wordN (a.toNat / b.toNat)

/-- REMU: by zero the dividend (R111). -/
def remU (a b : Word) : Word := if b = 0 then a else wordN (a.toNat % b.toNat)

/-- Low bits of a shift amount (R112). -/
def amt6 (b : Word) : Nat := b.toNat % 64
def amt5 (b : Word) : Nat := b.toNat % 32

/-- Number of zero bits above the highest 1 bit (R113). -/
def clz64 (a : Word) : Nat := if a = 0 then 64 else 63 - Nat.log2 a.toNat

/-- Zero bits below the lowest 1 bit, counting up to a fuel (R113). -/
def ctzN (x : Nat) : Nat → Nat
  | 0 => 0
  | n + 1 => if x % 2 = 1 then 0 else 1 + ctzN (x / 2) n

/-- Byte i of the result is byte 7 − i (R113). -/
def bswap64 (a : Word) : Word := wordN (ofBytesLE (bytesLE a.toNat 8).reverse)

/-- EXTR (R115). -/
def extract (a b : Word) : Word := wordN (a.toNat / 2 ^ wbits b 5 0 % 2 ^ (wbits b 11 6 + 1))

/-- INSR (R115). -/
def insert' (d a b : Word) : Word :=
  let p := wbits b 5 0
  let m := wordN ((2 ^ (wbits b 11 6 + 1) - 1) * 2 ^ p)
  (d &&& ~~~ m) ||| (wordN (a.toNat * 2 ^ p) &&& m)

/-- Complete with a result from two registers. -/
def State.int2 (s : State) (d a b : Reg) (f : Word → Word → Word) : Out :=
  .next (s.retireWith d (f (s.readReg a) (s.readReg b)))

/-- Complete with a result from one register. -/
def State.int1 (s : State) (d a : Reg) (f : Word → Word) : Out := .next (s.retireWith d (f (s.readReg a)))

/-! ## Register forms (R110 to R116) -/

def execAdd (d a b : Reg) (s : State) : Out := s.int2 d a b (· + ·)
def execAddw (d a b : Reg) (s : State) : Out := s.int2 d a b (fun x y => sext32 (x + y))
def execSub (d a b : Reg) (s : State) : Out := s.int2 d a b (· - ·)
def execSubw (d a b : Reg) (s : State) : Out := s.int2 d a b (fun x y => sext32 (x - y))
def execMul (d a b : Reg) (s : State) : Out := s.int2 d a b (· * ·)
def execMulw (d a b : Reg) (s : State) : Out := s.int2 d a b (fun x y => sext32 (x * y))
def execMulh (d a b : Reg) (s : State) : Out := s.int2 d a b mulHigh
def execMulhu (d a b : Reg) (s : State) : Out := s.int2 d a b mulHighU
def execDiv (d a b : Reg) (s : State) : Out := s.int2 d a b divS
def execDivu (d a b : Reg) (s : State) : Out := s.int2 d a b divU
def execRem (d a b : Reg) (s : State) : Out := s.int2 d a b remS
def execRemu (d a b : Reg) (s : State) : Out := s.int2 d a b remU
def execAndr (d a b : Reg) (s : State) : Out := s.int2 d a b (· &&& ·)
def execOrr (d a b : Reg) (s : State) : Out := s.int2 d a b (· ||| ·)
def execXorr (d a b : Reg) (s : State) : Out := s.int2 d a b (· ^^^ ·)
def execAndn (d a b : Reg) (s : State) : Out := s.int2 d a b (fun x y => x &&& ~~~ y)
def execOrn (d a b : Reg) (s : State) : Out := s.int2 d a b (fun x y => x ||| ~~~ y)
def execShl (d a b : Reg) (s : State) : Out := s.int2 d a b (fun x y => x <<< amt6 y)
def execShr (d a b : Reg) (s : State) : Out := s.int2 d a b (fun x y => x >>> amt6 y)
def execSar (d a b : Reg) (s : State) : Out := s.int2 d a b (fun x y => x.sshiftRight (amt6 y))
def execRol (d a b : Reg) (s : State) : Out := s.int2 d a b (fun x y => x.rotateLeft (amt6 y))
def execShlw (d a b : Reg) (s : State) : Out := s.int2 d a b (fun x y => sext32 (x <<< amt5 y))
def execShrw (d a b : Reg) (s : State) : Out :=
  s.int2 d a b (fun x y => ((x.setWidth 32) >>> amt5 y).signExtend 64)
def execSarw (d a b : Reg) (s : State) : Out :=
  s.int2 d a b (fun x y => ((x.setWidth 32).sshiftRight (amt5 y)).signExtend 64)
def execMinS (d a b : Reg) (s : State) : Out := s.int2 d a b (fun x y => if x.slt y then x else y)
def execMaxS (d a b : Reg) (s : State) : Out := s.int2 d a b (fun x y => if x.slt y then y else x)
def execMinu (d a b : Reg) (s : State) : Out := s.int2 d a b (fun x y => if x.ult y then x else y)
def execMaxu (d a b : Reg) (s : State) : Out := s.int2 d a b (fun x y => if x.ult y then y else x)
def execAbs (d a : Reg) (s : State) : Out := s.int1 d a (fun x => if x.slt 0 then -x else x)
def execClz (d a : Reg) (s : State) : Out := s.int1 d a (fun x => wordN (clz64 x))
def execCtz (d a : Reg) (s : State) : Out := s.int1 d a (fun x => wordN (ctzN x.toNat 64))
def execPopc (d a : Reg) (s : State) : Out := s.int1 d a (fun x => wordN (popcount x.toNat 64))
def execBrev (d a : Reg) (s : State) : Out := s.int1 d a (fun x => x.reverse)
def execBswap (d a : Reg) (s : State) : Out := s.int1 d a bswap64
def execSext (d a : Reg) (w : BitVec 6) (s : State) : Out := s.int1 d a (fun x => wordI (sx x.toNat (w.toNat + 1)))
def execZext (d a : Reg) (w : BitVec 6) (s : State) : Out := s.int1 d a (fun x => wordN (x.toNat % 2 ^ (w.toNat + 1)))
def execExtr (d a b : Reg) (s : State) : Out := s.int2 d a b extract
def execInsr (d a b : Reg) (s : State) : Out := s.int2 d a b (insert' (s.readReg d))
def execSlt (d a b : Reg) (s : State) : Out := s.int2 d a b (fun x y => wordB (x.slt y))
def execSltu (d a b : Reg) (s : State) : Out := s.int2 d a b (fun x y => wordB (x.ult y))
def execSeq (d a b : Reg) (s : State) : Out := s.int2 d a b (fun x y => wordB (x == y))
def execSne (d a b : Reg) (s : State) : Out := s.int2 d a b (fun x y => wordB (x != y))
def execLea (d a b : Reg) (sh : BitVec 2) (s : State) : Out := s.int2 d a b (fun x y => x + (y <<< sh.toNat))

/-! ## Immediate forms (R117, R118) -/

def execAddi (d a : Reg) (i : BitVec 18) (s : State) : Out := s.int1 d a (· + s.immS i)
def execAddwi (d a : Reg) (i : BitVec 18) (s : State) : Out := s.int1 d a (fun x => sext32 (x + s.immS i))
def execAndi (d a : Reg) (i : BitVec 18) (s : State) : Out := s.int1 d a (· &&& s.immU i)
def execOri (d a : Reg) (i : BitVec 18) (s : State) : Out := s.int1 d a (· ||| s.immU i)
def execXori (d a : Reg) (i : BitVec 18) (s : State) : Out := s.int1 d a (· ^^^ s.immU i)
def execShli (d a : Reg) (n : BitVec 6) (s : State) : Out := s.int1 d a (· <<< n.toNat)
def execShri (d a : Reg) (n : BitVec 6) (s : State) : Out := s.int1 d a (· >>> n.toNat)
def execSari (d a : Reg) (n : BitVec 6) (s : State) : Out := s.int1 d a (fun x => x.sshiftRight n.toNat)
def execSlti (d a : Reg) (i : BitVec 18) (s : State) : Out := s.int1 d a (fun x => wordB (x.slt (s.immS i)))
def execSltui (d a : Reg) (i : BitVec 18) (s : State) : Out := s.int1 d a (fun x => wordB (x.ult (s.immS i)))
def execLi (d : Reg) (i : BitVec 18) (s : State) : Out := .next (s.retireWith d (s.immS i))
def execLih (d a : Reg) (i : BitVec 18) (s : State) : Out :=
  s.int1 d a (fun x => wordN (i.toNat * 2 ^ 46 + x.toNat % 2 ^ 46))
def execLeai (d : Reg) (i : BitVec 18) (s : State) : Out := .next (s.retireWith d (codeWord s.pc + s.immS i))

/-! ## Compare-skips (R119, R120, R122) -/

/-- A compare-skip completes; when its condition holds the next n words are annulled (R35, R122). -/
def State.skip (s : State) (holds : Bool) (n : BitVec 2) : Out :=
  .next (if holds then s.retire.modTh (fun h => { h with annul := n.toNat }) else s.retire)

/-- The immediate y of a compare-skip. -/
def skipImm (i : BitVec 15) : Word := i.signExtend 64

/-- Bit k of a word, k taken modulo 64. -/
def bitAt (x : Word) (k : Nat) : Bool := x.getLsbD (k % 64)

def execSkeqReg (a b : Reg) (n : BitVec 2) (s : State) : Out := s.skip (s.readReg a == s.readReg b) n
def execSkeqImm (a : Reg) (i : BitVec 15) (n : BitVec 2) (s : State) : Out := s.skip (s.readReg a == skipImm i) n
def execSkneReg (a b : Reg) (n : BitVec 2) (s : State) : Out := s.skip (s.readReg a != s.readReg b) n
def execSkneImm (a : Reg) (i : BitVec 15) (n : BitVec 2) (s : State) : Out := s.skip (s.readReg a != skipImm i) n
def execSkltReg (a b : Reg) (n : BitVec 2) (s : State) : Out := s.skip ((s.readReg a).slt (s.readReg b)) n
def execSkltImm (a : Reg) (i : BitVec 15) (n : BitVec 2) (s : State) : Out := s.skip ((s.readReg a).slt (skipImm i)) n
def execSkgeReg (a b : Reg) (n : BitVec 2) (s : State) : Out := s.skip (!(s.readReg a).slt (s.readReg b)) n
def execSkgeImm (a : Reg) (i : BitVec 15) (n : BitVec 2) (s : State) : Out := s.skip (!(s.readReg a).slt (skipImm i)) n
def execSkltuReg (a b : Reg) (n : BitVec 2) (s : State) : Out := s.skip ((s.readReg a).ult (s.readReg b)) n
def execSkltuImm (a : Reg) (i : BitVec 15) (n : BitVec 2) (s : State) : Out := s.skip ((s.readReg a).ult (skipImm i)) n
def execSkgeuReg (a b : Reg) (n : BitVec 2) (s : State) : Out := s.skip (!(s.readReg a).ult (s.readReg b)) n
def execSkgeuImm (a : Reg) (i : BitVec 15) (n : BitVec 2) (s : State) : Out := s.skip (!(s.readReg a).ult (skipImm i)) n
def execSkbsReg (a b : Reg) (n : BitVec 2) (s : State) : Out := s.skip (bitAt (s.readReg a) (amt6 (s.readReg b))) n
def execSkbsImm (a : Reg) (k : BitVec 6) (n : BitVec 2) (s : State) : Out := s.skip (bitAt (s.readReg a) k.toNat) n
def execSkbcReg (a b : Reg) (n : BitVec 2) (s : State) : Out := s.skip (!bitAt (s.readReg a) (amt6 (s.readReg b))) n
def execSkbcImm (a : Reg) (k : BitVec 6) (n : BitVec 2) (s : State) : Out := s.skip (!bitAt (s.readReg a) k.toNat) n

end Sys2Proof.Machine
end

