-- ==== Sys2Proof/Machine/Float.lean ====
section
/-! DEFINITION. Floating-point instructions (04 R123 to R130) and floating compare-skips (R121). Operands are FP32 values
in bits 31 to 0; results are written zero-extended; every flag raised is ORed into fxf. -/

namespace Sys2Proof.Machine

/-- Commit a rounded FP32 result. -/
def State.float (s : State) (d : Reg) (op : (mode u : Nat) → Nat × Flags5) : Out :=
  let (r, v) := s.rc.elem op
  .next (s.commit d (r, wordN v))

/-- Commit a result that does not round, with its flags. -/
def State.floatFixed (s : State) (d : Reg) (x : Nat × Flags5) : Out := .next (s.commit d ((s.rc.flag x).1, wordN x.1))

def execFadd (d a b : Reg) (s : State) : Out := s.float d (fun m u => fp32.add m u (f32 (s.readReg a)) (f32 (s.readReg b)))
def execFsub (d a b : Reg) (s : State) : Out :=
  s.float d (fun m u => fp32.add m u (f32 (s.readReg a)) (f32 (s.readReg b)).negate)
def execFmul (d a b : Reg) (s : State) : Out := s.float d (fun m u => fp32.mul m u (f32 (s.readReg a)) (f32 (s.readReg b)))
def execFma (d a b c : Reg) (s : State) : Out :=
  s.float d (fun m u => fp32.fma m u (f32 (s.readReg a)) (f32 (s.readReg b)) (f32 (s.readReg c)))
def execFms (d a b c : Reg) (s : State) : Out :=
  s.float d (fun m u => fp32.fma m u (f32 (s.readReg a)) (f32 (s.readReg b)) (f32 (s.readReg c)).negate)
def execFnma (d a b c : Reg) (s : State) : Out :=
  s.float d (fun m u => fp32.fma m u (f32 (s.readReg a)).negate (f32 (s.readReg b)) (f32 (s.readReg c)))
def execFdiv (d a b : Reg) (s : State) : Out := s.float d (fun m u => fp32.div m u (f32 (s.readReg a)) (f32 (s.readReg b)))
def execFsqrt (d a : Reg) (s : State) : Out := s.float d (fun m u => fp32.sqrt m u (f32 (s.readReg a)))
def execFmin (d a b : Reg) (s : State) : Out := s.floatFixed d (fp32.minMax false (lo32 (s.readReg a)) (lo32 (s.readReg b)))
def execFmax (d a b : Reg) (s : State) : Out := s.floatFixed d (fp32.minMax true (lo32 (s.readReg a)) (lo32 (s.readReg b)))

/-- A sign operation on an encoding: NaN gives the canonical NaN, a signalling one sets NV (R127). -/
def Fmt.signOp (f : Fmt) (x : Nat) (sign : Bool) (alsoSnan : Bool) : Nat × Flags5 :=
  let v := f.val x
  (if v.isNan then f.nan else x % f.signBit + b2n sign * f.signBit, nvIf (v.isSnan || alsoSnan))

def execFabs (d a : Reg) (s : State) : Out := s.floatFixed d (fp32.signOp (lo32 (s.readReg a)) false false)
def execFneg (d a : Reg) (s : State) : Out :=
  let x := lo32 (s.readReg a)
  s.floatFixed d (fp32.signOp x (x / 2 ^ 31 = 0) false)
def execFsgn (d a b : Reg) (s : State) : Out :=
  let y := lo32 (s.readReg b)
  s.floatFixed d (fp32.signOp (lo32 (s.readReg a)) (y / 2 ^ 31 = 1) (fp32.val y).isSnan)

/-- The class bit of an FP32 encoding (R128). -/
def classBit (x : Nat) : Nat :=
  match fp32.val x with
  | .nan sig => if sig then 8 else 9
  | .inf n => if n then 0 else 7
  | .fin n m _ =>
    if m = 0 then (if n then 3 else 4)
    else if x / 2 ^ 23 % 256 = 0 then (if n then 2 else 5) else (if n then 1 else 6)

def execFclass (d a : Reg) (s : State) : Out := .next (s.retireWith d (wordN (2 ^ classBit (lo32 (s.readReg a)))))

def execFcvtfi (d a : Reg) (f : BitVec 6) (s : State) : Out :=
  let (r, v) := s.rc.elem (fun m u => let (t, fl) := toInt (widthOf f.toNat) m u (f32 (s.readReg a)); (low t 64, fl))
  .next (s.commit d (r, wordN v))

def execFcvtif (d a : Reg) (f : BitVec 6) (s : State) : Out :=
  s.float d (fun m u => fp32.conv m u (valInt (sx (s.readReg a).toNat (widthOf f.toNat))))

def execFcvth (d a : Reg) (x : BitVec 1) (f : BitVec 5) (s : State) : Out :=
  match fmtOf f.toNat with
  | none => .next (s.trap .illegal)
  | some g =>
    if x = 0 then s.float d (fun m u => g.conv m u (f32 (s.readReg a)))
    else s.floatFixed d (fp32.conv 0 0 (g.val ((s.readReg a).toNat % 2 ^ g.width)))

/-- A floating compare-skip: condition, and whether NV is set (R121). -/
def State.skipF (s : State) (holds nv : Bool) (n : BitVec 2) : Out :=
  (s.modTh (fun h => { h with fxf := h.fxf ||| nvIf nv })).skip holds n

def execSkfeq (a b : Reg) (n : BitVec 2) (s : State) : Out :=
  let x := f32 (s.readReg a); let y := f32 (s.readReg b)
  s.skipF (x.eq y) (x.isSnan || y.isSnan) n
def execSkflt (a b : Reg) (n : BitVec 2) (s : State) : Out :=
  let x := f32 (s.readReg a); let y := f32 (s.readReg b)
  s.skipF (x.lt y) (x.isNan || y.isNan) n
def execSkfle (a b : Reg) (n : BitVec 2) (s : State) : Out :=
  let x := f32 (s.readReg a); let y := f32 (s.readReg b)
  s.skipF (x.lt y || x.eq y) (x.isNan || y.isNan) n
def execSkfun (a b : Reg) (n : BitVec 2) (s : State) : Out :=
  let x := f32 (s.readReg a); let y := f32 (s.readReg b)
  s.skipF (x.isNan || y.isNan) (x.isSnan || y.isSnan) n

end Sys2Proof.Machine
end

