-- ==== Sys2Proof/Machine/Registers.lean ====
section
/-! DEFINITION. The BAR0 register blocks (16 R364 to R370, 19 R428, R431, R433, R435): what a host read returns and what a
host write does. -/

namespace Sys2Proof.Machine

/-! ## Rings (R370) -/

/-- Doubleword i of a ring. -/
def HostRing.dw (r : HostRing) (i : Nat) : Word :=
  match i with | 0 => wordN r.base | 1 => wordN r.size | 2 => wordN r.wix | _ => wordN r.rix

/-- A host write of doubleword i: the write index is the device's. -/
def HostRing.put (r : HostRing) (i : Nat) (v : Word) : HostRing :=
  match i with
  | 0 => { r with base := v.toNat / 64 * 64, isSet := true }
  | 1 => { r with size := max 4 (min 16 v.toNat) }
  | 2 => r
  | _ => { r with rix := v.toNat }

/-! ## Queues (R369) -/

/-- Doubleword j of a queue's state. -/
def Queue.dw (q : Queue) (j : Nat) : Word :=
  match j with
  | 0 => wordN q.base
  | 1 => wordN (q.aging * 2 ^ 16 + q.err * 2 ^ 9 + b2n q.hlt * 2 ^ 8 + b2n q.en * 2 ^ 7 + q.prio * 2 ^ 4 + q.size)
  | 2 => q.wix
  | _ => q.rix

/-- A host write of doubleword j, HLT aside: base, size, wix and rix only while en is 0. A head already
read stays the head (log 108). -/
def Queue.put (q : Queue) (j : Nat) (v : Word) : Queue :=
  match j with
  | 0 => if q.en then q else { q with base := wbits v 47 8 * 2 ^ 8 }
  | 1 =>
    let q' := { q with aging := wbits v 47 16, en := wbit v 7, prio := wbits v 6 4 }
    if q.en then q' else { q' with size := min 12 (wbits v 3 0) }
  | 2 => if q.en then q else { q with wix := v }
  | _ => if q.en then q else { q with rix := v }

/-! ## Reads -/

/-- A power doubleword of a die (19 R433). -/
def Die.dw (d : Die) (i : Nat) : Word :=
  match i with
  | 0 => wordN d.cap
  | 1 => wordN (d.ramp * 2 ^ 48 + d.gate.toNat * 2 ^ 6 + b2n d.clk)
  | 2 => wordN d.held
  | _ => wordN (d.gated.toNat * 2 ^ 6 + b2n d.cref)

/-- Eight bytes of the identity certificate (19 R431). -/
def certWord (a : Nat) : Word :=
  wordN (ofBytesLE ((upto 8).map (fun i => if a + i < Config.certLength then Config.certByte (a + i) else 0)))

/-- A read of function 0 (R366). -/
def State.readMgmt (s : State) (o : Nat) : Word :=
  if o = 0x0000 then wordN (s.parts.foldl (fun v e => v + 2 ^ e.1) 0)
  else if o = 0x0108 then s.parg
  else if o = 0x0110 then s.pstat
  else if 0x0300 ≤ o ∧ o ≤ 0x0318 then s.pring.dw ((o - 0x0300) / 8)
  else if 0x0400 ≤ o ∧ o ≤ 0x0478 then tget 0 s.pstage ((o - 0x0400) / 8)
  else if 0x2000 ≤ o ∧ o < 0x2120 then (s.die ((o - 0x2000) / 32)).dw (o % 32 / 8)
  else if o = 0x2120 then wordN s.tthr
  else if o = 0x3008 then s.fwarg
  else if o = 0x3010 then s.fwstat
  else if o = 0x3FF8 then wordN Config.certLength
  else if 0x4000 ≤ o then certWord (o - 0x4000)
  else 0

/-- A read of a partition's function (R364). -/
def State.readPart (s : State) (p o : Nat) : Word :=
  let x := s.part p
  if o = 0x0000 then wordN (p + popcount x.dies 9 * 2 ^ 8 + x.w * 2 ^ 16 + x.h * 2 ^ 32)
  else if o = 0x0100 then wordN x.modes
  else if o = 0x0108 then wordN x.ckint
  else if 0x0200 ≤ o ∧ o ≤ 0x0218 then x.cring.dw ((o - 0x0200) / 8)
  else if 0x0300 ≤ o ∧ o ≤ 0x0318 then x.rring.dw ((o - 0x0300) / 8)
  else if o = 0x0320 then wordN x.telint
  else if 0x0400 ≤ o ∧ o ≤ 0x0418 then x.tring.dw ((o - 0x0400) / 8)
  else if o = 0x0500 then x.apbase
  else if o = 0x0600 then x.ptroot
  else if o = 0x0608 then x.pool
  else if 0x1000 ≤ o ∧ o < 0x1800 then (s.queue p ((o - 0x1000) / 32)).dw (o % 32 / 8)
  else if 0x2100 ≤ o ∧ o ≤ 0x2118 then x.dring.dw ((o - 0x2100) / 8)
  else tget 0 x.regs o

/-- A read of a register of a function; a function whose partition does not exist has only its ID, zero (R356). -/
def State.readBar0 (s : State) (fn o : Nat) : Word :=
  if o % 8 ≠ 0 ∨ 0x10000 ≤ o then 0 else if fn = 0 then s.readMgmt o
  else if (tfind s.parts (fn - 1)).isNone then 0 else s.readPart (fn - 1) o

/-! ## Writes -/

/-- The state of an outcome. -/
def outState (s : State) : Out → State | .next t => t | _ => s

/-- Run one step at once. -/
def State.now (s : State) (f : State → Out) : State := outState s (f s)

/-- A command register shows BUSY (R365). -/
def busy (v : Word) : Bool := wbit v 63

/-- PCMD (R367). -/
def State.pcmd (s : State) (v : Word) : State :=
  match wbits v 7 0 with
  | 1 => s.now execCreatePart
  | 2 => s.now execDestroyPart
  | 3 => s.now execCkset
  | 4 => s.now execKillCtx
  | 5 => s.now execKret
  | _ => s.pdone 7

/-- FWCMD (19 R428); a code it does not list does nothing. -/
def State.fwcmd (s : State) (v : Word) : State :=
  match wbits v 7 0 with
  | 1 => s.now execVerifyImage
  | 2 => s.now execActivate
  | 3 => s.now execSvnset
  | 4 => s.now execOwnadd
  | 5 => s.now execFreshNonce
  | 6 => s.now execOwnxfer
  | 7 => s.now execAttest
  | _ => s

/-- A write of a power doubleword (19 R433). -/
def State.powerWrite (s : State) (d i : Nat) (v : Word) : State :=
  match i with
  | 0 => s.now (execCapWrite d v)
  | 1 => (s.now (execGateWrite d v)).now (execClkWrite d v)
  | 2 => s
  | _ => if wbit v 0 then s.modDie d (fun x => { x with cref := false }) else s

/-- A write to function 0 (R366). -/
def State.writeMgmt (s : State) (o : Nat) (v : Word) : State :=
  if o = 0x0100 then (if busy s.pstat then s else s.pcmd v)
  else if o = 0x0108 then { s with parg := v }
  else if 0x0300 ≤ o ∧ o ≤ 0x0318 then { s with pring := s.pring.put ((o - 0x0300) / 8) v }
  else if 0x0400 ≤ o ∧ o ≤ 0x0478 then { s with pstage := tset s.pstage ((o - 0x0400) / 8) v }
  else if 0x2000 ≤ o ∧ o < 0x2120 then s.powerWrite ((o - 0x2000) / 32) (o % 32 / 8) v
  else if o = 0x2120 then { s with tthr := wbits v 15 0 }
  else if o = 0x3000 then (if busy s.fwstat then s else s.fwcmd v)
  else if o = 0x3008 then { s with fwarg := v }
  else s

/-- TACT (R364). -/
def State.tactWrite (s : State) (p : Nat) (v : Word) : State :=
  let n := wbits v 63 3
  match wbits v 2 0 with
  | 0 => s.now (execTactKill p n)
  | 1 => s.now (execTactReplay p n)
  | 2 => s.now (execTactPark p n)
  | 3 => s.now (execTactForward p n)
  | 4 => s.now (execTactRollback p n)
  | _ => s

/-- SCMD (R368); a code it does not list gives status 1. -/
def State.scmd (s : State) (p : Nat) (v : Word) : State :=
  match wbits v 7 0 with
  | 1 => s.now (execMigrateCore p)
  | 2 => s.now (execRecastCmd p)
  | 3 => s.now (execPlaceQueue p)
  | _ => s.complete p 0x0B18 1

/-- DCMD (19 R436); a code it does not list is refused. -/
def State.dcmd (s : State) (p : Nat) (v : Word) : State :=
  match wbits v 7 0 with
  | 1 => s.now (execHaltSlots p)
  | 2 => s.now (execHaltc p)
  | 3 => s.now (execResumeSlots p)
  | 4 => s.now (execStepSlot p)
  | 5 => s.now (execRdreg p)
  | 6 => s.now (execWrreg p)
  | 7 => s.now (execRdspr p)
  | 8 => s.now (execRdcell p)
  | 9 => s.now (execBrkset p)
  | 10 => s.now (execBrkclr p)
  | 11 => s.now (execDebugThaw p)
  | 12 => s.now (execBarrd p)
  | _ => s.dstat p 3

/-- KEYOP (R365, R381). -/
def State.keyopWrite (s : State) (p : Nat) (v : Word) : State :=
  if busy (s.reg p 0x0708) then s
  else
    let s := s.setReg p 0x0700 v
    if wbits v 63 14 ≠ 0 then s.complete p 0x0708 4
    else match wbits v 7 0 with
      | 1 => s.now (execLoadKey p)
      | 2 => s.now (execRevoke p)
      | _ => s.complete p 0x0708 4

/-- A write to a queue register (R369). -/
def State.queueWrite (s : State) (p q j : Nat) (v : Word) : State :=
  let s := s.modQueue p q (fun x => x.put j v)
  let s := if j = 1 && wbit v 8 then s.now (execHltClear p q) else s
  (s.post1 (.doorbellWrite p q)).post1 (.dispatch p)

/-- Registers of a partition's function that hold what was written, and read it back. -/
def plainReg (o : Nat) : Bool :=
  [0x0610, 0x0618, 0x0800, 0x0808, 0x0810, 0x0818, 0x0900, 0x0908, 0x0910, 0x0A00, 0x0A08, 0x0A10, 0x0A18, 0x0B08, 0x0B10, 0x2008,
    0x2010].contains o || (decide (0x0710 ≤ o) && decide (o ≤ 0x0750))

/-- A write to a partition's function (R364). Bits outside the fields of MODES, APBASE and PTROOT are dropped (log 113). -/
def State.writePart (s : State) (p o : Nat) (v : Word) : State :=
  let md := fun (f : Part → Part) => s.modPart p f
  let start := fun (stat : Nat) (f : State → Out) => if busy (s.reg p stat) then s else (s.setReg p o v).now f
  if plainReg o then s.setReg p o v
  else if o = 0x0100 then md (fun x => { x with modes := wbits v 6 0 })
  else if o = 0x0108 then md (fun x => { x with ckint := v.toNat })
  else if 0x0200 ≤ o ∧ o ≤ 0x0218 then md (fun x => { x with cring := x.cring.put ((o - 0x0200) / 8) v })
  else if 0x0300 ≤ o ∧ o ≤ 0x0318 then md (fun x => { x with rring := x.rring.put ((o - 0x0300) / 8) v })
  else if o = 0x0320 then md (fun x => { x with telint := v.toNat, lastTel := s.cyc })
  else if 0x0400 ≤ o ∧ o ≤ 0x0418 then md (fun x => { x with tring := x.tring.put ((o - 0x0400) / 8) v })
  else if o = 0x0420 then s.tactWrite p v
  else if o = 0x0500 then md (fun x => { x with apbase := wordN (wbits v 63 36 * 2 ^ 36) })
  else if o = 0x0600 then md (fun x => { x with ptroot := wordN (wbits v 39 12 * 2 ^ 12 + wbits v 5 0) })
  else if o = 0x0608 then md (fun x => { x with pool := v })
  else if o = 0x0620 then (if v = 1 then start 0x0628 (execInvRange p) else s)
  else if o = 0x0700 then s.keyopWrite p v
  else if o = 0x0820 then start 0x0828 (execImportEntry p)
  else if o = 0x0918 then start 0x0920 (execExportRange p)
  else if o = 0x0A20 then start 0x0A28 (execAttreq p)
  else if o = 0x0B00 then (if busy (s.reg p 0x0B18) then s else s.scmd p v)
  else if 0x1000 ≤ o ∧ o < 0x1800 then s.queueWrite p ((o - 0x1000) / 32) (o % 32 / 8) v
  else if o = 0x2000 then (if busy (s.reg p 0x2020) then s else s.dcmd p v)
  else if 0x2100 ≤ o ∧ o ≤ 0x2118 then md (fun x => { x with dring := x.dring.put ((o - 0x2100) / 8) v })
  else s

/-- REGISTER_WRITE (R364, R366): an aligned 8-byte write to BAR0 of a function. -/
def execRegisterWrite (fn off : Nat) (v : BitVec 64) (s : State) : Out :=
  .next (if off % 8 ≠ 0 ∨ 0x10000 ≤ off then s
    else if fn = 0 then s.writeMgmt off v
    else if (tfind s.parts (fn - 1)).isNone then s
    else s.writePart (fn - 1) off v)

end Sys2Proof.Machine
end

