-- ==== Sys2Proof/Machine/Inbound.lean ====
section
/-! DEFINITION. The ordering point (16 R359 to R363): inbound writes and reads of the host and of peers, their parts, routes
and acknowledgements; refusals. -/

namespace Sys2Proof.Machine

/-! ## Sources, routes, refusals -/

/-- The source of a function on a port, and of a remote partition (R356). -/
def hostSrc (port fn : Nat) : Nat := port * 16 + fn
def peerSrc (pkg rpart x : Nat) : Nat := 2 ^ 32 + x * 2 ^ 24 + pkg * 16 + rpart

/-- Two sources are one: an export number does not part a peer's stream (R374). -/
def sameSrc (a b : Nat) : Bool :=
  if a < 2 ^ 32 ∨ b < 2 ^ 32 then decide (a = b) else decide (a % 2 ^ 24 = b % 2 ^ 24)

/-- Location of a class 10 report (R383). -/
def srcLoc (src : Nat) : Nat :=
  if src < 2 ^ 32 then src % 16 + src / 16 * 2 ^ 8
  else 2 ^ 16 + src / 2 ^ 24 % 2 ^ 8 * 2 ^ 24 + src % 16 * 2 ^ 32 + src % 2 ^ 24 / 16 * 2 ^ 36

/-- An access is refused with one report (R363, R383). -/
def State.refuse (s : State) (p src reason : Nat) : State := s.report (some p) 10 0 (srcLoc src) reason 0

/-- The reason of a refusal at translation (R383). -/
def State.refusal (s : State) (p va : Nat) (c : Cause) : Nat :=
  match c with
  | .keyrev => 4
  | .prot => (match s.walk p va with | .leaf x => if s.keyFault p x.key = some .prot then 2 else 3 | _ => 2)
  | _ => 2

/-- Where an inbound access of memory goes: PPAs of every replica for a write, of one for a read (R278). -/
def State.inboundPlace (s : State) (p va acc : Nat) : Except Nat (List (Nat × Nat)) :=
  if 2 ^ 48 ≤ va then .error 2
  else match (s.walk p va).found with
    | .error c => .error (s.refusal p va c)
    | .ok x =>
      match s.walkDenies x acc with
      | some .collapse =>
        let ppa := x.frame + va % 2 ^ x.bits
        .ok (((upto 3).filter (fun g => decide ((s.part p).groupStacks g ≠ 0))).map (fun g =>
          (p * 2 ^ 40 + g * 2 ^ 38 + ppa % 2 ^ 38, x.key)))
      | some c => .error (s.refusal p va c)
      | none => .ok [(s.physical x 0 va, x.key)]

/-- The route of a part at the time it is sent (R360). -/
def State.routeOf (s : State) (q : InPart) : Nat :=
  if q.kind = 2 then
    match (s.part q.part).named q.addr with | some c => dieOf (s.locate c) | none => 0
  else match s.inboundPlace q.part q.addr 2 with
    | .ok l => 16 + (l.map (fun d => 2 ^ s.stackOf q.part d.1)).foldl (· ||| ·) 0
    | .error _ => 16

/-! ## Writes -/

/-- Split bytes at every multiple of a size; the fuel is their number. -/
def splitAt (size : Nat) : (fuel : Nat) → Nat → List Byte → List (Nat × List Byte)
  | 0, _, _ => []
  | n + 1, a, l =>
    let k := size - a % size
    if l.length ≤ k then [(a, l)] else (a, l.take k) :: splitAt size n (a + k) (l.drop k)

/-- The parts of a write take consecutive numbers in ascending address order (R360). -/
def State.addParts (s : State) (src p kind size a : Nat) (l : List Byte) : State :=
  if l = [] then s
  else (splitAt size l.length a l).foldl (fun s x =>
    let n := s.seqNo
    ({ s with seqNo := n + 1, inParts := s.inParts ++
        [{ n := n, src := src, part := p, kind := kind, addr := x.1, bytes := x.2, route := 0 }] } : State).post (.partSend n)) s

/-- A host's request of n bytes lies outside the apertures of its function: an Unsupported Request (R356, R358). Of the
function of an absent partition only the ID register is there, to be read. -/
def State.unsupported (s : State) (fn bar off n : Nat) (read : Bool) : Bool :=
  let absent := (tfind s.parts (fn - 1)).isNone
  match bar with
  | 0 => decide (9 < fn) || decide (0x10000 < off + n) || (fn ≠ 0 && absent && !(read && off = 0))
  | 2 => fn = 0 || absent || decide (2 ^ 35 < off + n)
  | 4 => fn = 0 || absent || decide (2 ^ 36 < off + n)
  | _ => true

/-- INBOUND_WRITE (R357, R358, R360): an Unsupported Request, or a payload beyond 512 bytes, is recorded by Advanced Error
Reporting and does nothing else (R356; log 77). -/
def execInboundWrite (port fn bar off : Nat) (bytes : List (BitVec 8)) (s : State) : Out :=
  let p := fn - 1
  .next (if 512 < bytes.length then s.aerRecord port fn 3
    else if s.unsupported fn bar off bytes.length false then s.aerRecord port fn 1
    else if bar = 0 then
      if bytes.length = 8 then s.now (execRegisterWrite fn off (wordN (ofBytesLE bytes))) else s
    else if bar = 2 then s.addParts (hostSrc port fn) p 2 0x8000 off bytes
    else s.addParts (hostSrc port fn) p 4 256 ((s.part p).apbase.toNat + off) bytes)

/-- A virtual page is being collapsed: no write to it is performed before its change of translation is complete (09 R279). -/
def State.collapsingAt (s : State) (p va : Nat) : Bool := match s.walk p va with | .leaf x => s.collapsing x | _ => false

/-- The part is performed at its home, or refused (R361, R363); none while its core is being placed (09 R265), or its page is
being collapsed (09 R279). -/
def State.performPart (s : State) (q : InPart) : Option State :=
  let n := q.bytes.length
  let v := ofBytesLE q.bytes
  if q.kind = 2 then
    match (s.part q.part).named q.addr with
    | none => some (s.refuse q.part q.src 1)
    | some c =>
      if (s.core (s.locate c)).placing then none
      else
        let off := q.addr % 0x8000
        let m := min n (0x6000 - off)
        let s := if m = 0 then s else s.homeWrite none (.ls c off) v (2 ^ m - 1) m
        some (if m < n then s.refuse q.part q.src 1 else s)
  else if s.collapsingAt q.part q.addr then none
  else match s.inboundPlace q.part q.addr 2 with
    | .error r => some ((s.walkReport q.part q.addr).refuse q.part q.src r)
    | .ok l => some (l.foldl (fun s d => s.homeWrite none (.hbm d.1 d.2) v (2 ^ n - 1) n) s)

/-- A part waits for an earlier one of its source: unsent, or unacknowledged on another route (R361). -/
def State.partHeld (s : State) (q : InPart) : Bool :=
  let r := s.routeOf q
  s.inParts.any (fun m => sameSrc m.src q.src && decide (m.n < q.n) && (!m.sent || decide (m.route ≠ r)))

/-- The parts of a source that may go next. -/
def State.kickSource (s : State) (src : Nat) : State :=
  (s.inParts.filter (fun m => sameSrc m.src src && !m.sent)).foldl (fun s m => s.post1 (.partSend m.n)) s

/-- PART_SEND (R361). -/
def execPartSend (n : Nat) (s : State) : Out :=
  .next (match s.inParts.find? (fun q => q.n = n) with
    | none => s
    | some q =>
      if q.sent || s.partHeld q then s
      else
        let q' := { q with sent := true, route := s.routeOf q }
        match s.performPart q with
        | none => s.post (.partSend n) (s.cyc + 1)
        | some s =>
          let l := s.inParts.map (fun (m : InPart) => if m.n = n then q' else m)
          let s : State := { s with inParts := l }
          (s.post (.partAcknowledgement n) (s.cyc + 1)).kickSource q.src)

/-- PART_ACKNOWLEDGEMENT (R361): later parts and reads of the source may go. -/
def execPartAcknowledgement (n : Nat) (s : State) : Out :=
  .next (match s.inParts.find? (fun q => q.n = n) with
    | none => s
    | some q =>
      let s := ({ s with inParts := s.inParts.filter (fun m => m.n ≠ n) } : State).kickSource q.src
      (s.inReads.filter (fun r => sameSrc r.src q.src)).foldl (fun s r => s.post1 (.inboundReadPerform r.id)) s)

/-! ## Reads (R362, R363) -/

/-- A read waits behind the parts of its source that came before it. -/
def State.addRead (s : State) (src p kind a len : Nat) : State :=
  let id := s.nextId
  ({ s with nextId := id + 1, inReads := s.inReads ++
      [{ id := id, src := src, part := p, kind := kind, addr := a, len := len, before := s.seqNo }] } : State).post (.inboundReadPerform id)

/-- The device answers a read. -/
def State.answer (s : State) (id status : Nat) (l : List Byte) : State :=
  { s with inReads := s.inReads.filter (fun r => r.id ≠ id), completions := s.completions ++ [{ id := id, status := status, bytes := l }] }

/-- A read is aborted by the completer: recorded for a host's function (R357, R363). -/
def State.abortRead (s : State) (src id : Nat) : State :=
  (if src < 2 ^ 32 then s.aerRecord (src / 16) (src % 16) 2 else s).answer id 2 []

/-- INBOUND_READ (R356 to R358, R362): an Unsupported Request is answered at once and recorded; a request beyond 4,096 bytes
is recorded alone (log 77). -/
def execInboundRead (port fn bar off len : Nat) (s : State) : Out :=
  let src := hostSrc port fn
  .next (if 4096 < len then s.aerRecord port fn 3
    else if s.unsupported fn bar off len true then
      (({ s with nextId := s.nextId + 1 } : State).answer s.nextId 3 []).aerRecord port fn 1
    else s.addRead src (fn - 1) bar (if bar = 4 then (s.part (fn - 1)).apbase.toNat + off else off) len)

/-- Bytes of memory at consecutive virtual addresses with the uncorrectable doublewords among them, or the reason of a
refusal. -/
def State.readVirtual (s : State) (p va : Nat) : Nat → Except Nat (List Byte × List Nat)
  | 0 => .ok ([], [])
  | n + 1 =>
    match s.inboundPlace p va 1 with
    | .error r => .error r
    | .ok l =>
      match s.readVirtual p (va + 1) n with
      | .error r => .error r
      | .ok (bs, bad) =>
        let d := l.headD (0, 0)
        let (v, b) := s.homeRead (.hbm d.1 d.2) 1
        .ok (BitVec.ofNat 8 v :: bs, if b && !bad.contains (d.1 / 8) then d.1 / 8 :: bad else bad)

/-- The first of some virtual addresses that an inbound read is refused at. -/
def State.refusedAt (s : State) (p va : Nat) : Nat → Nat
  | 0 => va
  | n + 1 => match s.inboundPlace p va 1 with | .error _ => va | .ok _ => s.refusedAt p (va + 1) n

/-- Poisoned data: the values of the bytes are not defined (R362; log 14). -/
def State.poison (s : State) (id len : Nat) : State :=
  let l := (upto len).map (fun i => Config.freeByte (s.free + i))
  ({ s with free := s.free + len } : State).answer id 1 l

/-- One report for each uncorrectable word an inbound read met (R362). -/
def State.readReports (s : State) (l : List Dest) : State := l.foldl (fun s d => s.ueReport d 0) s

/-- The uncorrectable doublewords among n bytes of a local store. -/
def Core.badWords (k : Core) (off n : Nat) : List Nat := ((upto (n / 8 + 2)).map (· + off / 8)).filter (fun w =>
  k.lsUe.contains w && decide (8 * w < off + n))

/-- INBOUND_READ_PERFORM (R362): after every earlier part of its source; a refused read is a Completer Abort (R363). -/
def execInboundReadPerform (n : Nat) (s : State) : Out :=
  .next (match s.inReads.find? (fun r => r.id = n) with
    | none => s
    | some r =>
      if s.inParts.any (fun q => sameSrc q.src r.src && decide (q.n < r.before)) then s
      else if r.kind = 0 then
        s.answer n 0 (if r.len = 8 ∧ r.addr % 8 = 0 then bytesLE (s.readBar0 (r.src % 16) r.addr).toNat 8 else List.replicate r.len 0)
      else if r.kind = 2 then
        match (s.part r.part).named r.addr with
        | none => (s.refuse r.part r.src 1).abortRead r.src n
        | some c =>
          let off := r.addr % 0x8000
          if 0x6000 < off + r.len then (s.refuse r.part r.src 1).abortRead r.src n
          else if (s.core (s.locate c)).placing then s.post (.inboundReadPerform n) (s.cyc + 1)
          else
            let (v, bad) := s.homeRead (.ls c off) r.len
            let home := s.locate c
            if bad then (s.readReports (((s.core home).badWords off r.len).map (fun w => .ls home (8 * w)))).poison n r.len
            else s.answer n 0 (bytesLE v r.len)
      else match s.readVirtual r.part r.addr r.len with
        | .error e => ((s.walkReport r.part (s.refusedAt r.part r.addr r.len)).refuse r.part r.src e).abortRead r.src n
        | .ok (l, bad) =>
          if bad = [] then s.answer n 0 l else (s.readReports (bad.map (fun w => .hbm (8 * w) 0))).poison n r.len)

/-! ## Peers (R372, R374) -/

/-- PEER_INBOUND: an access of a remote partition to an export of p; a read has no bytes (R372, R374). -/
def execPeerInbound (p pkg rpart x off len : Nat) (bytes : List (BitVec 8)) (s : State) : Out :=
  let src := peerSrc pkg rpart x
  let write := bytes ≠ []
  let n := if write then bytes.length else len
  let no := fun (s : State) (reason : Nat) =>
    let s := s.refuse p src reason
    if write then s else ({ s with nextId := s.nextId + 1 } : State).answer s.nextId 2 []
  .next (match tfind (s.part p).exports x with
    | none => no s 5
    | some e =>
      if e.len < off + n then no s 5
      else if write && !e.w then no s 3
      else if write then s.addParts src p 3 256 (e.base + off) bytes
      else s.addRead src p 3 (e.base + off) len)

end Sys2Proof.Machine
end

