-- ==== Sys2Proof/Machine/Links.lean ====
section
/-! DEFINITION. Links that fail or retry (18 R413 to R416, 16 R371, R383), PCIe training (R357), discarded packets, and
telemetry (R384). -/

namespace Sys2Proof.Machine

/-! ## Die edges (R413 to R416) -/

/-- The two dies of an edge. -/
def edgeDies (e : Nat) : Nat × Nat := if e < 6 then (e / 2 * 3 + e % 2, e / 2 * 3 + e % 2 + 1) else (e - 6, e - 3)

/-- The partition a die edge lies in, none between two partitions. -/
def State.edgeOwner (s : State) (e : Nat) : Option Nat :=
  let (a, b) := edgeDies e
  match s.dieOwner a with | some p => if s.dieOwner b = some p then some p else none | none => none

/-- The edge between two adjoining dies. -/
def edgeOf (a b : Nat) : Option Nat := (upto 12).find? (fun e => edgeDies e = (a, b) || edgeDies e = (b, a))

/-- An edge is down in either direction (R414). -/
def State.edgeDead (s : State) (e : Nat) : Bool := (s.edge (2 * e)).down || (s.edge (2 * e + 1)).down

/-- Dies of a partition reached from a list of them, in a number of rounds. -/
def State.reach (s : State) (dies : Nat) : Nat → List Nat → List Nat
  | 0, l => l
  | n + 1, l =>
    s.reach dies n (l ++ (upto 9).filter (fun d => bits dies d d = 1 && !l.contains d &&
      l.any (fun a => match edgeOf a d with | some e => !s.edgeDead e | none => false)))

/-- Location of a link report (R383; log 29): in bytes 0 to 2 the die that sends, its edge by the numbers of R6 (0 north,
1 east, 2 south, 3 west), and the channel. Direction 0 of an edge runs east or south, 1 west or north. -/
def linkLoc (e dir ch : Nat) : Nat :=
  let (a, b) := edgeDies e
  (if dir = 0 then a + (if e < 6 then 1 else 2) * 2 ^ 8 else b + (if e < 6 then 3 else 0) * 2 ^ 8) + ch * 2 ^ 16

/-- The retry count of a report of a failed link (R383; log 29): the manual gives no budget. -/
def State.retryReport (s : State) (part : Option Nat) (cls loc : Nat) : State :=
  ({ s with free := s.free + 1 } : State).report part cls 0 loc (Config.retryCount s.free) 0

/-- A partition is cut: every context with cores on both sides is killed (R416, 19 R424). -/
def State.checkCut (s : State) (e : Nat) : State :=
  match s.edgeOwner e with
  | none => s
  | some p =>
    let (a, b) := edgeDies e
    let side := s.reach (s.part p).dies 9 [a]
    if side.contains b then s
    else
      let both := s.fields.filter (fun f => decide (f.2.part = p) &&
        (s.fieldCores f.2).any (fun c => side.contains (dieOf c)) && (s.fieldCores f.2).any (fun c => !side.contains (dieOf c)))
      both.foldl (fun s f => s.killField f.1) (s.retryReport (some p) 6 (linkLoc e 0 0))

/-- Benches that cross an edge in a direction thaw with reason link (R221, R413). -/
def State.thawCrossing (s : State) (key : Nat) : State :=
  (s.benches.filter (fun b => b.2.chans.any (fun c => decide (c.1 = key)))).foldl (fun s b => s.beginThaw b.1 7) s

/-- The bench that holds the n-th reserved channel of a direction. -/
def State.holder (s : State) (key n : Nat) : Option Nat :=
  (s.benches.foldl (fun (r : Option Nat × Nat) b =>
    let k := (b.2.chans.filter (fun c => decide (c.1 = key))).foldl (fun a c => a + c.2) 0
    if r.1.isSome then r else if n < r.2 + k then (some b.1, r.2 + k) else (none, r.2 + k)) (none, 0)).1

/-- An edge is down (R414). -/
def State.markDown (s : State) (e : Nat) : State :=
  let mark := fun (s : State) (key : Nat) => { s with edges := tset s.edges key { s.edge key with down := true } }
  mark (mark s (2 * e)) (2 * e + 1)

/-- A bench loses a channel it holds in a direction: the channel is among the retired and no longer among the reserved (R305). -/
def State.loseChan (s : State) (id key : Nat) : State :=
  { s with
    benches := tmap (fun i b => if i = id then { b with chans := b.chans.map (fun c => if c.1 = key then (key, c.2 - 1) else c) } else b) s.benches,
    edges := tset s.edges key { s.edge key with reserved := (s.edge key).reserved - 1 } }

/-- CHANNEL_RETIREMENT (R413): a channel of edge e in direction d exhausts its retry budget; which one, and so whether a
bench holds it, is not the manual's to say (log 16). -/
def execChannelRetirement (e d : Nat) (s : State) : Out :=
  let key := 2 * e + d % 2
  let x := s.edge key
  .next (if 84 ≤ x.retired then s
    else
      let n := Config.freeChoice s.free % (84 - x.retired)
      let held := s.holder key n
      let s : State := { s with free := s.free + 1, edges := tset s.edges key { x with retired := x.retired + 1 } }
      let s := s.retryReport (s.edgeOwner e) 6 (linkLoc e (d % 2) x.retired)
      let s : State := match held with | some b => (s.loseChan b key).beginThaw b 7 | none => s
      if (s.edge key).retired = 84 then (s.markDown e).post1 (.edgeDown e) else s)

/-- The lane entries on their way over an edge to a core are lost (11 R310). -/
def Core.loseInFlight (k : Core) (west north : Bool) (cyc : Nat) : Core :=
  let lane := fun (b : Bool) (l : List Pulse) => if b then l.filter (fun x => decide (x.at' ≤ cyc)) else l
  let drain := fun (b : Bool) (l : List DrainEntry) => if b then l.filter (fun x => decide (x.at' ≤ cyc)) else l
  { k with westIn := lane west k.westIn, northIn := lane north k.northIn, drainW := drain west k.drainW, drainN := drain north k.drainN }

/-- A bridge has failed as a whole: what its links carried between cores is lost (11 R310, R414). -/
def State.bridgeLost (s : State) (e : Nat) : State :=
  let across := fun (c from' : Nat) => edgeOf (dieOf c) (dieOf from') = some e
  { s with cores := tmap (fun c k => k.loseInFlight (posX c ≠ 0 && across c (c - 1)) (decide (1008 ≤ c) && across c (c - 1008)) s.cyc) s.cores }

/-- EDGE_DOWN (R414, R416): a bridge fails as a whole, or its channels have been retired; routes go around it, claims that
would cross it are refused, benches that cross it thaw; a cut partition loses the contexts that span the cut, which is for
the leader to see. -/
def execEdgeDown (e : Nat) (s : State) : Out :=
  .next (
    let whole : Bool := !s.edgeDead e && decide ((s.edge (2 * e)).retired < 84) && decide ((s.edge (2 * e + 1)).retired < 84)
    let s := if whole then s.bridgeLost e else s
    let s := ((s.markDown e).thawCrossing (2 * e)).thawCrossing (2 * e + 1)
    if s.leaderUp then s.checkCut e else s.post (.edgeDown e) (s.cyc + 1))

/-! ## Other links (R357, R371, R383) -/

/-- LINK_RETRY: k is 5 for a mesh or bridge link, whose location's lowest byte names its die, 7 for a haul port; n the retry
count. Nothing but a report follows. -/
def execLinkRetry (k loc n : Nat) (s : State) : Out :=
  .next (if k = 7 then s.report (s.portOwner loc) 7 0 loc n 0 else s.report (s.dieOwner (loc % 256)) 5 0 loc n 0)

/-- HAUL_PORT_FAILURE (R371): the port leaves its partition's set. -/
def execHaulPortFailure (i : Nat) (s : State) : Out :=
  let o := s.portOwner i
  let s := if bits s.portsDown i i = 1 then s else { s with portsDown := s.portsDown + 2 ^ i }
  .next (match o with
    | none => s.retryReport none 8 i
    | some p => (s.modPart p (fun x => { x with ports := x.ports - 2 ^ i })).retryReport (some p) 8 i)

/-- TRANSIT_FLIT (R371): traffic between other packages crosses the transit switch and touches nothing here. -/
def execTransitFlit (_pkg _flit : Nat) (s : State) : Out := .next s

/-- MESH_PACKET_DISCARD (R383): a malformed packet at a core leaves only a report of class 9. -/
def execMeshPacketDiscard (c op mask : Nat) (s : State) : Out :=
  let (o, x, y) := s.coreAt c
  .next (s.report o 9 0 (x * 2 ^ 16 + y) (op % 2 ^ 8 + mask * 2 ^ 8) 0)

/-- PCIE_LINK_TRAINING (R357): a port trains to a rate and width of the manual. -/
def execPcieLinkTraining (port rate width : Nat) (s : State) : Out :=
  .next (if port < 2 ∧ [128, 64, 32, 16].contains rate ∧ [16, 8, 4].contains width then
      { s with links := tset s.links port (rate, width) } else s)

/-! ## Telemetry (R384) -/

/-- The value of a counter on a die (R383): cumulative since reset; energy is not defined further (log 21). -/
def State.telValue (s : State) (p d k : Nat) : Word :=
  match k with
  | 1 => wordN (s.part p).retired
  | 2 => wordN (s.die d).nPulse
  | 3 => wordN (s.die d).nElem
  | 4 => wordN (s.die d).nCorr
  | _ => Config.telemetry k d s.free

/-- TELEMETRY_INTERVAL (R384): one record per counter and die of the partition. -/
def execTelemetryInterval (p : Nat) (s : State) : Out :=
  let ds := (upto 9).filter (fun d => bits (s.part p).dies d d = 1)
  .next (if (s.part p).telint = 0 then s
    else
      let s := { s.modPart p (fun x => { x with lastTel := s.cyc }) with free := s.free + 1 }
      ds.foldl (fun s d => [1, 2, 3, 4, 5].foldl (fun s k => s.report (some p) 14 0 k (s.telValue p d k).toNat 0) s) s)

end Sys2Proof.Machine
end

