-- ==== Sys2Proof/Machine/Vector.lean ====
section
/-! DEFINITION. Short-vector instructions (06 R178 to R197). -/

namespace Sys2Proof.Machine

/-- Lane i of a word, of width n (R179). -/
def lane (x : Word) (n i : Nat) : Nat := x.toNat / 2 ^ (n * i) % 2 ^ n

/-- Lanes 0 to L − 1 of width n in ascending order, with the rounding state threaded through (R60, R197). -/
def lanes (n cnt : Nat) (rc : Rc) (f : Rc → Nat → Rc × Nat) : Rc × Word :=
  let r := (upto cnt).foldl (fun (a : Rc × Nat) i => let (r, v) := f a.1 i; (r, a.2 + v % 2 ^ n * 2 ^ (n * i))) (rc, 0)
  (r.1, wordN r.2)

/-- A short-vector instruction: ILLEGAL unless the effective format is allowed (R180), else its result is committed. -/
def State.vec (s : State) (d : Reg) (ok : Nat → Bool) (go : Nat → Rc × Word) : Out :=
  let f := s.th.lanes
  .next (if laneCode f && ok f then s.commit d (go f) else s.trap .illegal)

/-- The Formats column of R182. -/
def anyFmt (_ : Nat) : Bool := true
def intFmt (f : Nat) : Bool := decide (f ≤ 5)
def floatFmt (f : Nat) : Bool := decide (6 ≤ f)

/-- Lane-wise: an integer rule on width, x and y, and a floating rule on format, mode, u, x and y that rounds. -/
def State.laneWise (s : State) (d a b : Reg) (ok : Nat → Bool) (int : Nat → Nat → Nat → Int)
    (flt : Fmt → Rc → Nat → Nat → Rc × Nat) : Out :=
  let x := s.readReg a
  let y := s.readReg b
  s.vec d ok (fun f =>
    let n := widthOf f
    lanes n (lanesOf f) s.rc (fun r i =>
      match fmtOf f with
      | none => (r, low (int n (lane x n i) (lane y n i)) n)
      | some m => flt m r (lane x n i) (lane y n i)))

/-- No floating rule: the format is refused before. -/
def noFloat (_ : Fmt) (r : Rc) (_ _ : Nat) : Rc × Nat := (r, 0)

def execVadd (d a b : Reg) (s : State) : Out :=
  s.laneWise d a b anyFmt (fun n x y => sx x n + sx y n) (fun m r x y => r.elem (fun md u => m.add md u (m.val x) (m.val y)))
def execVsub (d a b : Reg) (s : State) : Out :=
  s.laneWise d a b anyFmt (fun n x y => sx x n - sx y n)
    (fun m r x y => r.elem (fun md u => m.add md u (m.val x) (m.val y).negate))
def execVadds (d a b : Reg) (s : State) : Out :=
  s.laneWise d a b intFmt (fun n x y => clampS (sx x n + sx y n) n) noFloat
def execVsubs (d a b : Reg) (s : State) : Out :=
  s.laneWise d a b intFmt (fun n x y => clampS (sx x n - sx y n) n) noFloat
def execVmul (d a b : Reg) (s : State) : Out :=
  s.laneWise d a b anyFmt (fun n x y => sx x n * sx y n) (fun m r x y => r.elem (fun md u => m.mul md u (m.val x) (m.val y)))
def execVmulh (d a b : Reg) (s : State) : Out :=
  s.laneWise d a b intFmt (fun n x y => sx x n * sx y n / ((2 ^ n : Nat) : Int)) noFloat
def execVmin (d a b : Reg) (s : State) : Out :=
  s.laneWise d a b anyFmt (fun n x y => min (sx x n) (sx y n)) (fun m r x y => r.flag (m.minMax false x y))
def execVmax (d a b : Reg) (s : State) : Out :=
  s.laneWise d a b anyFmt (fun n x y => max (sx x n) (sx y n)) (fun m r x y => r.flag (m.minMax true x y))
def execVabs (d a : Reg) (s : State) : Out :=
  s.laneWise d a 0 anyFmt (fun n x _ => (sx x n).natAbs) (fun m r x _ => r.flag (m.signOp x false false))
def execVneg (d a : Reg) (s : State) : Out :=
  s.laneWise d a 0 anyFmt (fun n x _ => - sx x n)
    (fun m r x _ => r.flag (m.signOp x (x / m.signBit % 2 = 0) false))
def execVavg (d a b : Reg) (s : State) : Out :=
  s.laneWise d a b intFmt (fun n x y => (sx x n + sx y n + 1) / 2) noFloat

/-- VMAC (R185): rd is the third operand. -/
def execVmac (d a b : Reg) (s : State) : Out :=
  let x := s.readReg a
  let y := s.readReg b
  let z := s.readReg d
  s.vec d anyFmt (fun f =>
    let n := widthOf f
    lanes n (lanesOf f) s.rc (fun r i =>
      match fmtOf f with
      | none => (r, low (sx (lane z n i) n + sx (lane x n i) n * sx (lane y n i) n) n)
      | some m => r.elem (fun md u => m.fma md u (m.val (lane x n i)) (m.val (lane y n i)) (m.val (lane z n i)))))

/-! ## Shifts (R186) -/

def execVshl (d a b : Reg) (s : State) : Out :=
  s.laneWise d a b intFmt (fun n x y => if n ≤ y then 0 else (x * 2 ^ y : Nat)) noFloat
def execVshr (d a b : Reg) (s : State) : Out :=
  s.laneWise d a b intFmt (fun n x y => if n ≤ y then 0 else (x / 2 ^ y : Nat)) noFloat
def execVsar (d a b : Reg) (s : State) : Out :=
  s.laneWise d a b intFmt (fun n x y => if n ≤ y then (if sx x n < 0 then -1 else 0) else sx x n / ((2 ^ y : Nat) : Int)) noFloat

/-! ## Reductions (R187, R188) -/

/-- A running FP32 value combined with each lane in ascending order, one rounding a step. -/
def reduce (cnt : Nat) (rc : Rc) (acc : Nat) (op : (mode u : Nat) → (acc : Val) → (i : Nat) → Nat × Flags5) : Rc × Word :=
  let r := (upto cnt).foldl (fun (a : Rc × Nat) i => a.1.elem (fun md u => op md u (fp32.val a.2) i)) (rc, acc)
  (r.1, wordN r.2)

/-- A sum over lanes, exact. -/
def sumLanes (cnt : Nat) (f : Nat → Int) : Int := (upto cnt).foldl (fun a i => a + f i) 0

def execVdot (d a b : Reg) (s : State) : Out :=
  let x := s.readReg a
  let y := s.readReg b
  let z := s.readReg d
  s.vec d anyFmt (fun f =>
    let n := widthOf f
    match fmtOf f with
    | none => (s.rc, wordI (sval z + sumLanes (lanesOf f) (fun i => sx (lane x n i) n * sx (lane y n i) n)))
    | some m => reduce (lanesOf f) s.rc (lo32 z)
        (fun md u acc i => fp32.fma md u (m.val (lane x n i)) (m.val (lane y n i)) acc))

def execVsum (d a b : Reg) (s : State) : Out :=
  let x := s.readReg a
  let y := s.readReg b
  s.vec d anyFmt (fun f =>
    let n := widthOf f
    match fmtOf f with
    | none => (s.rc, wordI (sval y + sumLanes (lanesOf f) (fun i => sx (lane x n i) n)))
    | some m => reduce (lanesOf f) s.rc (lo32 y) (fun md u acc i => fp32.add md u acc (m.val (lane x n i))))

def execVmaxr (d a : Reg) (s : State) : Out :=
  let x := s.readReg a
  s.vec d anyFmt (fun f =>
    let n := widthOf f
    let rest := (upto (lanesOf f)).drop 1
    match fmtOf f with
    | none => (s.rc, wordI (rest.foldl (fun m i => max m (sx (lane x n i) n)) (sx (lane x n 0) n)))
    | some m =>
      let r := rest.foldl (fun (a : Rc × Nat) i => a.1.flag (m.minMax true a.2 (lane x n i))) (s.rc, lane x n 0)
      (r.1, wordN (if (m.val r.2).isNan then fp32.nan else (fp32.conv 0 0 (m.val r.2)).1)))

/-! ## Comparison, selection, movement (R189 to R191) -/

/-- The integer conditions of R189. -/
def cmpInt (c n x y : Nat) : Bool :=
  match c with
  | 0 => x = y
  | 1 => x ≠ y
  | 2 => sx x n < sx y n
  | 3 => sx x n ≤ sx y n
  | 4 => x < y
  | _ => x ≤ y

/-- The floating conditions of R189, and NV. -/
def cmpFlt (c : Nat) (x y : Val) : Bool × Bool :=
  let nan := x.isNan || y.isNan
  let snan := x.isSnan || y.isSnan
  match c with
  | 0 => (x.eq y, snan)
  | 1 => (!x.eq y, snan)
  | 2 => (!nan && x.lt y, nan)
  | _ => (!nan && (x.lt y || x.eq y), nan)

/-- All ones or all zeros. -/
def fill (n : Nat) (b : Bool) : Nat := if b then 2 ^ n - 1 else 0

def execVcmp (d a b : Reg) (c : BitVec 3) (s : State) : Out :=
  let x := s.readReg a
  let y := s.readReg b
  s.vec d (fun f => intFmt f || decide (c.toNat < 4)) (fun f =>
    let n := widthOf f
    lanes n (lanesOf f) s.rc (fun r i =>
      match fmtOf f with
      | none => (r, fill n (cmpInt c.toNat n (lane x n i) (lane y n i)))
      | some m =>
        let q := cmpFlt c.toNat (m.val (lane x n i)) (m.val (lane y n i))
        r.flag (fill n q.1, nvIf q.2)))

/-- A move of lanes: no flag, no rounding. -/
def State.laneMove (s : State) (d : Reg) (f : (n cnt i : Nat) → Nat) : Out :=
  s.vec d anyFmt (fun fm => lanes (widthOf fm) (lanesOf fm) s.rc (fun r i => (r, f (widthOf fm) (lanesOf fm) i)))

def execVsel (d a b : Reg) (s : State) : Out :=
  let (x, y, z) := (s.readReg a, s.readReg b, s.readReg d)
  s.laneMove d (fun n _ i => if wbit z (n * i + n - 1) then lane x n i else lane y n i)
def execVsplat (d a : Reg) (s : State) : Out := let x := s.readReg a; s.laneMove d (fun n _ _ => lane x n 0)
def execVshuf (d a b : Reg) (s : State) : Out :=
  let (x, y) := (s.readReg a, s.readReg b)
  s.laneMove d (fun n cnt i => let j := lane y 4 i; if j < cnt then lane x n j else 0)

def execVpack (d a b : Reg) (s : State) : Out :=
  let (x, y) := (s.readReg a, s.readReg b)
  s.vec d (fun f => decide (f ∈ [0, 3, 4, 5])) (fun f =>
    let n := widthOf f
    let l := lanesOf f
    lanes (n / 2) (2 * l) s.rc (fun r i =>
      let v := if i < l then lane x n i else lane y n (i - l)
      (r, low (clampS (sx v n) (n / 2)) (n / 2))))

/-- VUNPKL and VUNPKH: lanes from a starting lane, widened. -/
def State.unpack (s : State) (d a : Reg) (high : Bool) : Out :=
  let x := s.readReg a
  s.vec d (fun f => decide (f ∈ [1, 0, 3, 4])) (fun f =>
    let n := widthOf f
    let half := lanesOf f / 2
    lanes (2 * n) half s.rc (fun r i => (r, low (sx (lane x n (if high then half + i else i)) n) (2 * n))))

def execVunpkl (d a : Reg) (s : State) : Out := s.unpack d a false
def execVunpkh (d a : Reg) (s : State) : Out := s.unpack d a true

/-! ## Conversion (R192) -/

def execVcvt (d a b : Reg) (g : BitVec 6) (s : State) : Out :=
  let x := s.readReg a
  let o := wbits (s.readReg b) 3 0
  s.vec d (fun _ => laneCode g.toNat) (fun f =>
    let n := widthOf f
    lanes (widthOf g.toNat) (lanesOf g.toNat) s.rc (fun r i =>
      if o + i < lanesOf f then
        let v := lane x n (o + i)
        if convRounds f g.toNat then r.elem (fun md u => convert f g.toNat md u v) else (r, (convert f g.toNat 0 0 v).1)
      else (r, 0)))

/-! ## Sparse selection (R193, R194) -/

/-- A lane is non-zero: any bit, or any bit but a floating lane's sign. -/
def live (f v : Nat) : Bool := match fmtOf f with | none => v ≠ 0 | some m => v % m.signBit ≠ 0

/-- Indices of the non-zero lanes, ascending. -/
def liveLanes (f : Nat) (x : Word) : List Nat := (upto (lanesOf f)).filter (fun i => live f (lane x (widthOf f) i))

def execVnzs (d a : Reg) (s : State) : Out :=
  let x := s.readReg a
  s.vec d anyFmt (fun f =>
    let l := liveLanes f x
    (s.rc, wordN (l.headD 16 * 2 ^ 24 + l.length * 2 ^ 16 + l.foldl (fun m i => m + 2 ^ i) 0)))

def execVcompr (d a b : Reg) (s : State) : Out :=
  let (x, y) := (s.readReg a, s.readReg b)
  s.vec d anyFmt (fun f =>
    let l := liveLanes f x
    lanes (widthOf f) (lanesOf f) s.rc (fun r j => (r, match l[j]? with | some i => lane y (widthOf f) i | none => 0)))

/-! ## Clamping (R195) -/

/-- VRELU on a floating lane. -/
def Fmt.relu (m : Fmt) (x : Nat) : Nat × Flags5 :=
  let v := m.val x
  if v.isNan then (m.nan, nvIf v.isSnan) else if v.neg then (0, 0) else (x, 0)

/-- VCLAMP on a floating lane: the bound against hi comes second, and a NaN bound is ignored. -/
def Fmt.clamp (m : Fmt) (x lo hi : Nat) : Nat × Flags5 :=
  let (v, l, h) := (m.val x, m.val lo, m.val hi)
  let nv := nvIf (v.isSnan || l.isSnan || h.isSnan)
  if v.isNan then (m.nan, nv)
  else
    let y := if !l.isNan && v.below l then lo else x
    (if !h.isNan && h.below (m.val y) then hi else y, nv)

def execVrelu (d a : Reg) (s : State) : Out :=
  s.laneWise d a 0 anyFmt (fun n x _ => max (sx x n) 0) (fun m r x _ => r.flag (m.relu x))
def execVclamp (d a b : Reg) (s : State) : Out :=
  let (x, y, z) := (s.readReg a, s.readReg b, s.readReg d)
  s.vec d anyFmt (fun f =>
    let n := widthOf f
    lanes n (lanesOf f) s.rc (fun r i =>
      match fmtOf f with
      | none => (r, low (min (max (sx (lane z n i) n) (sx (lane x n i) n)) (sx (lane y n i) n)) n)
      | some m => r.flag (m.clamp (lane z n i) (lane x n i) (lane y n i))))

/-! ## Special functions (R196) -/

/-- A special function lane by lane. -/
def State.special (s : State) (fn : Nat) (d a : Reg) : Out :=
  let x := s.readReg a
  s.vec d floatFmt (fun f =>
    let n := widthOf f
    lanes n (lanesOf f) s.rc (fun r i =>
      match fmtOf f with
      | none => (r, 0)
      | some m => r.elem (fun md u => specialFn fn f m (lane x n i) md u)))

def execVexp2 (d a : Reg) (s : State) : Out := s.special 0 d a
def execVlog2 (d a : Reg) (s : State) : Out := s.special 1 d a
def execVrcp (d a : Reg) (s : State) : Out := s.special 2 d a
def execVrsq (d a : Reg) (s : State) : Out := s.special 3 d a

end Sys2Proof.Machine
end

