-- ==== Sys2Proof/Machine/Dispatch.lean ====
section
/-! DEFINITION. One arm per row of the opcode table: each is one call of that row's meaning. -/

namespace Sys2Proof.Machine

def exec (i : Instr) (s : State) : Host.Outcome State Fault Refusal :=
  match i with
  | .add d a b => Sys2Proof.Machine.execAdd d a b s
  | .addw d a b => Sys2Proof.Machine.execAddw d a b s
  | .sub d a b => Sys2Proof.Machine.execSub d a b s
  | .subw d a b => Sys2Proof.Machine.execSubw d a b s
  | .mul d a b => Sys2Proof.Machine.execMul d a b s
  | .mulw d a b => Sys2Proof.Machine.execMulw d a b s
  | .mulh d a b => Sys2Proof.Machine.execMulh d a b s
  | .mulhu d a b => Sys2Proof.Machine.execMulhu d a b s
  | .div d a b => Sys2Proof.Machine.execDiv d a b s
  | .divu d a b => Sys2Proof.Machine.execDivu d a b s
  | .rem d a b => Sys2Proof.Machine.execRem d a b s
  | .remu d a b => Sys2Proof.Machine.execRemu d a b s
  | .andr d a b => Sys2Proof.Machine.execAndr d a b s
  | .orr d a b => Sys2Proof.Machine.execOrr d a b s
  | .xorr d a b => Sys2Proof.Machine.execXorr d a b s
  | .andn d a b => Sys2Proof.Machine.execAndn d a b s
  | .orn d a b => Sys2Proof.Machine.execOrn d a b s
  | .shl d a b => Sys2Proof.Machine.execShl d a b s
  | .shr d a b => Sys2Proof.Machine.execShr d a b s
  | .sar d a b => Sys2Proof.Machine.execSar d a b s
  | .rol d a b => Sys2Proof.Machine.execRol d a b s
  | .shlw d a b => Sys2Proof.Machine.execShlw d a b s
  | .shrw d a b => Sys2Proof.Machine.execShrw d a b s
  | .sarw d a b => Sys2Proof.Machine.execSarw d a b s
  | .minS d a b => Sys2Proof.Machine.execMinS d a b s
  | .maxS d a b => Sys2Proof.Machine.execMaxS d a b s
  | .minu d a b => Sys2Proof.Machine.execMinu d a b s
  | .maxu d a b => Sys2Proof.Machine.execMaxu d a b s
  | .abs d a => Sys2Proof.Machine.execAbs d a s
  | .clz d a => Sys2Proof.Machine.execClz d a s
  | .ctz d a => Sys2Proof.Machine.execCtz d a s
  | .popc d a => Sys2Proof.Machine.execPopc d a s
  | .brev d a => Sys2Proof.Machine.execBrev d a s
  | .bswap d a => Sys2Proof.Machine.execBswap d a s
  | .sext d a w => Sys2Proof.Machine.execSext d a w s
  | .zext d a w => Sys2Proof.Machine.execZext d a w s
  | .extr d a b => Sys2Proof.Machine.execExtr d a b s
  | .insr d a b => Sys2Proof.Machine.execInsr d a b s
  | .slt d a b => Sys2Proof.Machine.execSlt d a b s
  | .sltu d a b => Sys2Proof.Machine.execSltu d a b s
  | .seq d a b => Sys2Proof.Machine.execSeq d a b s
  | .sne d a b => Sys2Proof.Machine.execSne d a b s
  | .lea d a b sf => Sys2Proof.Machine.execLea d a b sf s
  | .addi d a im => Sys2Proof.Machine.execAddi d a im s
  | .addwi d a im => Sys2Proof.Machine.execAddwi d a im s
  | .andi d a im => Sys2Proof.Machine.execAndi d a im s
  | .ori d a im => Sys2Proof.Machine.execOri d a im s
  | .xori d a im => Sys2Proof.Machine.execXori d a im s
  | .shli d a sf => Sys2Proof.Machine.execShli d a sf s
  | .shri d a sf => Sys2Proof.Machine.execShri d a sf s
  | .sari d a sf => Sys2Proof.Machine.execSari d a sf s
  | .slti d a im => Sys2Proof.Machine.execSlti d a im s
  | .sltui d a im => Sys2Proof.Machine.execSltui d a im s
  | .li d im => Sys2Proof.Machine.execLi d im s
  | .lih d a im => Sys2Proof.Machine.execLih d a im s
  | .leai d im => Sys2Proof.Machine.execLeai d im s
  | .skeqReg a b n => Sys2Proof.Machine.execSkeqReg a b n s
  | .skeqImm a im n => Sys2Proof.Machine.execSkeqImm a im n s
  | .skneReg a b n => Sys2Proof.Machine.execSkneReg a b n s
  | .skneImm a im n => Sys2Proof.Machine.execSkneImm a im n s
  | .skltReg a b n => Sys2Proof.Machine.execSkltReg a b n s
  | .skltImm a im n => Sys2Proof.Machine.execSkltImm a im n s
  | .skgeReg a b n => Sys2Proof.Machine.execSkgeReg a b n s
  | .skgeImm a im n => Sys2Proof.Machine.execSkgeImm a im n s
  | .skltuReg a b n => Sys2Proof.Machine.execSkltuReg a b n s
  | .skltuImm a im n => Sys2Proof.Machine.execSkltuImm a im n s
  | .skgeuReg a b n => Sys2Proof.Machine.execSkgeuReg a b n s
  | .skgeuImm a im n => Sys2Proof.Machine.execSkgeuImm a im n s
  | .skbsReg a b n => Sys2Proof.Machine.execSkbsReg a b n s
  | .skbsImm a k n => Sys2Proof.Machine.execSkbsImm a k n s
  | .skbcReg a b n => Sys2Proof.Machine.execSkbcReg a b n s
  | .skbcImm a k n => Sys2Proof.Machine.execSkbcImm a k n s
  | .skfeq a b n => Sys2Proof.Machine.execSkfeq a b n s
  | .skflt a b n => Sys2Proof.Machine.execSkflt a b n s
  | .skfle a b n => Sys2Proof.Machine.execSkfle a b n s
  | .skfun a b n => Sys2Proof.Machine.execSkfun a b n s
  | .fadd d a b => Sys2Proof.Machine.execFadd d a b s
  | .fsub d a b => Sys2Proof.Machine.execFsub d a b s
  | .fmul d a b => Sys2Proof.Machine.execFmul d a b s
  | .fma d a b c => Sys2Proof.Machine.execFma d a b c s
  | .fms d a b c => Sys2Proof.Machine.execFms d a b c s
  | .fnma d a b c => Sys2Proof.Machine.execFnma d a b c s
  | .fdiv d a b => Sys2Proof.Machine.execFdiv d a b s
  | .fsqrt d a => Sys2Proof.Machine.execFsqrt d a s
  | .fmin d a b => Sys2Proof.Machine.execFmin d a b s
  | .fmax d a b => Sys2Proof.Machine.execFmax d a b s
  | .fabs d a => Sys2Proof.Machine.execFabs d a s
  | .fneg d a => Sys2Proof.Machine.execFneg d a s
  | .fsgn d a b => Sys2Proof.Machine.execFsgn d a b s
  | .fclass d a => Sys2Proof.Machine.execFclass d a s
  | .fcvtfi d a f => Sys2Proof.Machine.execFcvtfi d a f s
  | .fcvtif d a f => Sys2Proof.Machine.execFcvtif d a f s
  | .fcvth d a x f => Sys2Proof.Machine.execFcvth d a x f s
  | .br o => Sys2Proof.Machine.execBr o s
  | .call o => Sys2Proof.Machine.execCall o s
  | .bz a o => Sys2Proof.Machine.execBz a o s
  | .bnz a o => Sys2Proof.Machine.execBnz a o s
  | .loopSet sf a o => Sys2Proof.Machine.execLoopSet sf a o s
  | .brr a => Sys2Proof.Machine.execBrr a s
  | .callr a => Sys2Proof.Machine.execCallr a s
  | .ret a => Sys2Proof.Machine.execRet a s
  | .exitThread => Sys2Proof.Machine.execExitThread s
  | .nop => Sys2Proof.Machine.execNop s
  | .loopr sf a b => Sys2Proof.Machine.execLoopr sf a b s
  | .ldb d a im => Sys2Proof.Machine.execLdb d a im s
  | .ldbu d a im => Sys2Proof.Machine.execLdbu d a im s
  | .ldh d a im => Sys2Proof.Machine.execLdh d a im s
  | .ldhu d a im => Sys2Proof.Machine.execLdhu d a im s
  | .ldw d a im => Sys2Proof.Machine.execLdw d a im s
  | .ldwu d a im => Sys2Proof.Machine.execLdwu d a im s
  | .ldd d a im => Sys2Proof.Machine.execLdd d a im s
  | .stb sf a im => Sys2Proof.Machine.execStb sf a im s
  | .sth sf a im => Sys2Proof.Machine.execSth sf a im s
  | .stw sf a im => Sys2Proof.Machine.execStw sf a im s
  | .std sf a im => Sys2Proof.Machine.execStd sf a im s
  | .ldx d a b x u w => Sys2Proof.Machine.execLdx d a b x u w s
  | .stx d a b x w => Sys2Proof.Machine.execStx d a b x w s
  | .lda d a sf u w => Sys2Proof.Machine.execLda d a sf u w s
  | .strel d a sf w => Sys2Proof.Machine.execStrel d a sf w s
  | .aadd d a b z => Sys2Proof.Machine.execAadd d a b z s
  | .aand d a b z => Sys2Proof.Machine.execAand d a b z s
  | .aor d a b z => Sys2Proof.Machine.execAor d a b z s
  | .axor d a b z => Sys2Proof.Machine.execAxor d a b z s
  | .amin d a b z => Sys2Proof.Machine.execAmin d a b z s
  | .amax d a b z => Sys2Proof.Machine.execAmax d a b z s
  | .aminu d a b z => Sys2Proof.Machine.execAminu d a b z s
  | .amaxu d a b z => Sys2Proof.Machine.execAmaxu d a b z s
  | .aswp d a b z => Sys2Proof.Machine.execAswp d a b z s
  | .acas d a b z => Sys2Proof.Machine.execAcas d a b z s
  | .afadd d a b => Sys2Proof.Machine.execAfadd d a b s
  | .afmin d a b => Sys2Proof.Machine.execAfmin d a b s
  | .afmax d a b => Sys2Proof.Machine.execAfmax d a b s
  | .ldfe d a b => Sys2Proof.Machine.execLdfe d a b s
  | .ldff d a b => Sys2Proof.Machine.execLdff d a b s
  | .stef d a b => Sys2Proof.Machine.execStef d a b s
  | .stff d a => Sys2Proof.Machine.execStff d a s
  | .feprobe d a => Sys2Proof.Machine.execFeprobe d a s
  | .feset a f => Sys2Proof.Machine.execFeset a f s
  | .psend a k => Sys2Proof.Machine.execPsend a k s
  | .precv d k => Sys2Proof.Machine.execPrecv d k s
  | .ppeek d k => Sys2Proof.Machine.execPpeek d k s
  | .psendq a b k => Sys2Proof.Machine.execPsendq a b k s
  | .precvq d b k => Sys2Proof.Machine.execPrecvq d b k s
  | .pend => Sys2Proof.Machine.execPend s
  | .fence sf n => Sys2Proof.Machine.execFence sf n s
  | .bar sf n => Sys2Proof.Machine.execBar sf n s
  | .wait d => Sys2Proof.Machine.execWait d s
  | .evt a b e => Sys2Proof.Machine.execEvt a b e s
  | .waitge d a b => Sys2Proof.Machine.execWaitge d a b s
  | .sleep d a => Sys2Proof.Machine.execSleep d a s
  | .ckpt d => Sys2Proof.Machine.execCkpt d s
  | .brk c => Sys2Proof.Machine.execBrk c s
  | .trapCode c => Sys2Proof.Machine.execTrapCode c s
  | .tstart d a b => Sys2Proof.Machine.execTstart d a b s
  | .treap d a b => Sys2Proof.Machine.execTreap d a b s
  | .tkill d a => Sys2Proof.Machine.execTkill d a s
  | .mfa d c => Sys2Proof.Machine.execMfa d c s
  | .mta a c => Sys2Proof.Machine.execMta a c s
  | .mfs d n => Sys2Proof.Machine.execMfs d n s
  | .mts a n => Sys2Proof.Machine.execMts a n s
  | .hint p => Sys2Proof.Machine.execHint p s
  | .hmodRound m => Sys2Proof.Machine.execHmodRound m s
  | .hmodSr => Sys2Proof.Machine.execHmodSr s
  | .hmodScope sf => Sys2Proof.Machine.execHmodScope sf s
  | .hmodLanes f => Sys2Proof.Machine.execHmodLanes f s
  | .vadd d a b => Sys2Proof.Machine.execVadd d a b s
  | .vsub d a b => Sys2Proof.Machine.execVsub d a b s
  | .vadds d a b => Sys2Proof.Machine.execVadds d a b s
  | .vsubs d a b => Sys2Proof.Machine.execVsubs d a b s
  | .vmul d a b => Sys2Proof.Machine.execVmul d a b s
  | .vmulh d a b => Sys2Proof.Machine.execVmulh d a b s
  | .vmac d a b => Sys2Proof.Machine.execVmac d a b s
  | .vdot d a b => Sys2Proof.Machine.execVdot d a b s
  | .vsum d a b => Sys2Proof.Machine.execVsum d a b s
  | .vmaxr d a => Sys2Proof.Machine.execVmaxr d a s
  | .vmin d a b => Sys2Proof.Machine.execVmin d a b s
  | .vmax d a b => Sys2Proof.Machine.execVmax d a b s
  | .vabs d a => Sys2Proof.Machine.execVabs d a s
  | .vneg d a => Sys2Proof.Machine.execVneg d a s
  | .vavg d a b => Sys2Proof.Machine.execVavg d a b s
  | .vshl d a b => Sys2Proof.Machine.execVshl d a b s
  | .vshr d a b => Sys2Proof.Machine.execVshr d a b s
  | .vsar d a b => Sys2Proof.Machine.execVsar d a b s
  | .vcmp d a b c => Sys2Proof.Machine.execVcmp d a b c s
  | .vsel d a b => Sys2Proof.Machine.execVsel d a b s
  | .vsplat d a => Sys2Proof.Machine.execVsplat d a s
  | .vshuf d a b => Sys2Proof.Machine.execVshuf d a b s
  | .vpack d a b => Sys2Proof.Machine.execVpack d a b s
  | .vunpkl d a => Sys2Proof.Machine.execVunpkl d a s
  | .vunpkh d a => Sys2Proof.Machine.execVunpkh d a s
  | .vcvt d a b f => Sys2Proof.Machine.execVcvt d a b f s
  | .vnzs d a => Sys2Proof.Machine.execVnzs d a s
  | .vcompr d a b => Sys2Proof.Machine.execVcompr d a b s
  | .vrelu d a => Sys2Proof.Machine.execVrelu d a s
  | .vclamp d a b => Sys2Proof.Machine.execVclamp d a b s
  | .vexp2 d a => Sys2Proof.Machine.execVexp2 d a s
  | .vlog2 d a => Sys2Proof.Machine.execVlog2 d a s
  | .vrcp d a => Sys2Proof.Machine.execVrcp d a s
  | .vrsq d a => Sys2Proof.Machine.execVrsq d a s
  | .tld a t => Sys2Proof.Machine.execTld a t s
  | .tst a t => Sys2Proof.Machine.execTst a t s
  | .tsetf a b t => Sys2Proof.Machine.execTsetf a b t s
  | .geo a => Sys2Proof.Machine.execGeo a s
  | .mzero => Sys2Proof.Machine.execMzero s
  | .mtile u a b t q => Sys2Proof.Machine.execMtile u a b t q s
  | .mst a b t => Sys2Proof.Machine.execMst a b t s
  | .mlatch a j => Sys2Proof.Machine.execMlatch a j s
  | .gang d a b => Sys2Proof.Machine.execGang d a b s
  | .feed a b q => Sys2Proof.Machine.execFeed a b q s
  | .feeds c a b t q => Sys2Proof.Machine.execFeeds c a b t q s
  | .drainWord d b q => Sys2Proof.Machine.execDrainWord d b q s
  | .thawBench d a => Sys2Proof.Machine.execThawBench d a s
  | .gstat d a => Sys2Proof.Machine.execGstat d a s
  | .copyElems d a b t q => Sys2Proof.Machine.execCopyElems d a b t q s
  | .copy2 d a b t q => Sys2Proof.Machine.execCopy2 d a b t q s
  | .copyring d a b t => Sys2Proof.Machine.execCopyring d a b t s
  | .ringadv d => Sys2Proof.Machine.execRingadv d s
  | .gather c a b t q => Sys2Proof.Machine.execGather c a b t q s
  | .scatter c a b t q => Sys2Proof.Machine.execScatter c a b t q s
  | .scatadd c a b t q => Sys2Proof.Machine.execScatadd c a b t q s
  | .qjoin a b => Sys2Proof.Machine.execQjoin a b s
  | .cstat d a => Sys2Proof.Machine.execCstat d a s
  | .pgstart a b t g => Sys2Proof.Machine.execPgstart a b t g s
  | .pgnext d a g => Sys2Proof.Machine.execPgnext d a g s
  | .pgsave a g => Sys2Proof.Machine.execPgsave a g s
  | .pgload a g => Sys2Proof.Machine.execPgload a g s
  | .pginv d a t => Sys2Proof.Machine.execPginv d a t s
  | .dqpush d a b => Sys2Proof.Machine.execDqpush d a b s
  | .dqpop d => Sys2Proof.Machine.execDqpop d s
  | .dqsplit d => Sys2Proof.Machine.execDqsplit d s
  | .dqsteal d a => Sys2Proof.Machine.execDqsteal d a s
  | .dqcount d => Sys2Proof.Machine.execDqcount d s
  | .trec c a b => Sys2Proof.Machine.execTrec c a b s
  | .tend d => Sys2Proof.Machine.execTend d s
  | .tguard a b => Sys2Proof.Machine.execTguard a b s
  | .tplay d a b => Sys2Proof.Machine.execTplay d a b s
  | .powerOnReset => Sys2Proof.Machine.execPowerOnReset s
  | .spill c t => Sys2Proof.Machine.execSpill c t s
  | .fill c t => Sys2Proof.Machine.execFill c t s
  | .scoreboardRetirement c => Sys2Proof.Machine.execScoreboardRetirement c s
  | .tapeAppend c => Sys2Proof.Machine.execTapeAppend c s
  | .remoteReply c t => Sys2Proof.Machine.execRemoteReply c t s
  | .sectorFetch c f => Sys2Proof.Machine.execSectorFetch c f s
  | .readSetInstall c f => Sys2Proof.Machine.execReadSetInstall c f s
  | .sectorDrain c e => Sys2Proof.Machine.execSectorDrain c e s
  | .drainAcknowledgement c e => Sys2Proof.Machine.execDrainAcknowledgement c e s
  | .ldaAtHome c t => Sys2Proof.Machine.execLdaAtHome c t s
  | .strelAtHome c t => Sys2Proof.Machine.execStrelAtHome c t s
  | .atomicAtHome c t => Sys2Proof.Machine.execAtomicAtHome c t s
  | .feAtHome c t => Sys2Proof.Machine.execFeAtHome c t s
  | .feWithdrawal c n => Sys2Proof.Machine.execFeWithdrawal c n s
  | .feLimitExpiry c t => Sys2Proof.Machine.execFeLimitExpiry c t s
  | .waitgeAtHome c t => Sys2Proof.Machine.execWaitgeAtHome c t s
  | .counterLimitExpiry c t => Sys2Proof.Machine.execCounterLimitExpiry c t s
  | .sleepTimeout c t => Sys2Proof.Machine.execSleepTimeout c t s
  | .eventArrival c t => Sys2Proof.Machine.execEventArrival c t s
  | .portEntryArrival c d => Sys2Proof.Machine.execPortEntryArrival c d s
  | .orderTokenGrant c t => Sys2Proof.Machine.execOrderTokenGrant c t s
  | .barrierEpisodeComplete b => Sys2Proof.Machine.execBarrierEpisodeComplete b s
  | .ckptCollective f => Sys2Proof.Machine.execCkptCollective f s
  | .gangerExitComplete c => Sys2Proof.Machine.execGangerExitComplete c s
  | .icacheLineFill c t => Sys2Proof.Machine.execIcacheLineFill c t s
  | .translationWalk c t => Sys2Proof.Machine.execTranslationWalk c t s
  | .invalidation p c => Sys2Proof.Machine.execInvalidation p c s
  | .translationChangeComplete p => Sys2Proof.Machine.execTranslationChangeComplete p s
  | .sequencerAccept c => Sys2Proof.Machine.execSequencerAccept c s
  | .kStep c => Sys2Proof.Machine.execKStep c s
  | .engineCommandComplete c q => Sys2Proof.Machine.execEngineCommandComplete c q s
  | .engineFault c q => Sys2Proof.Machine.execEngineFault c q s
  | .qjoinFenceComplete c => Sys2Proof.Machine.execQjoinFenceComplete c s
  | .ringChunkStart c => Sys2Proof.Machine.execRingChunkStart c s
  | .ringChunkComplete c => Sys2Proof.Machine.execRingChunkComplete c s
  | .feedsWordDelivery c => Sys2Proof.Machine.execFeedsWordDelivery c s
  | .gatherLead c => Sys2Proof.Machine.execGatherLead c s
  | .gatherWindowClose c => Sys2Proof.Machine.execGatherWindowClose c s
  | .stealRequest c t => Sys2Proof.Machine.execStealRequest c t s
  | .rampCreditRefill d => Sys2Proof.Machine.execRampCreditRefill d s
  | .leaveGrant d => Sys2Proof.Machine.execLeaveGrant d s
  | .leaveReturn d => Sys2Proof.Machine.execLeaveReturn d s
  | .claim c t => Sys2Proof.Machine.execClaim c t s
  | .freeze b => Sys2Proof.Machine.execFreeze b s
  | .latchPulse c => Sys2Proof.Machine.execLatchPulse c s
  | .wsDataPulse c => Sys2Proof.Machine.execWsDataPulse c s
  | .rsDataPulse c => Sys2Proof.Machine.execRsDataPulse c s
  | .scalePulse c => Sys2Proof.Machine.execScalePulse c s
  | .zeroPointPulse c => Sys2Proof.Machine.execZeroPointPulse c s
  | .endPulse c => Sys2Proof.Machine.execEndPulse c s
  | .thawReturn b => Sys2Proof.Machine.execThawReturn b s
  | .doorbellWrite p q => Sys2Proof.Machine.execDoorbellWrite p q s
  | .dispatch p => Sys2Proof.Machine.execDispatch p s
  | .gangerStart f => Sys2Proof.Machine.execGangerStart f s
  | .replayFallback f => Sys2Proof.Machine.execReplayFallback f s
  | .corePartEnd c => Sys2Proof.Machine.execCorePartEnd c s
  | .retirement f => Sys2Proof.Machine.execRetirement f s
  | .dryTimerExpiry c => Sys2Proof.Machine.execDryTimerExpiry c s
  | .coreRecast c r => Sys2Proof.Machine.execCoreRecast c r s
  | .migrationSwitch c => Sys2Proof.Machine.execMigrationSwitch c s
  | .migrationResume c => Sys2Proof.Machine.execMigrationResume c s
  | .inboundWrite port fn bar off bytes => Sys2Proof.Machine.execInboundWrite port fn bar off bytes s
  | .partSend n => Sys2Proof.Machine.execPartSend n s
  | .partAcknowledgement n => Sys2Proof.Machine.execPartAcknowledgement n s
  | .inboundRead port fn bar off len => Sys2Proof.Machine.execInboundRead port fn bar off len s
  | .inboundReadPerform n => Sys2Proof.Machine.execInboundReadPerform n s
  | .peerInbound p pkg rpart x off len bytes => Sys2Proof.Machine.execPeerInbound p pkg rpart x off len bytes s
  | .peerReplyTimeout c => Sys2Proof.Machine.execPeerReplyTimeout c s
  | .haulPortFailure im => Sys2Proof.Machine.execHaulPortFailure im s
  | .telemetryInterval p => Sys2Proof.Machine.execTelemetryInterval p s
  | .checkpointInterval p => Sys2Proof.Machine.execCheckpointInterval p s
  | .trapService d n => Sys2Proof.Machine.execTrapService d n s
  | .killMessage c x => Sys2Proof.Machine.execKillMessage c x s
  | .killSweepEnd c x => Sys2Proof.Machine.execKillSweepEnd c x s
  | .killConfirmation f => Sys2Proof.Machine.execKillConfirmation f s
  | .rollbackRestore f => Sys2Proof.Machine.execRollbackRestore f s
  | .channelRetirement e d => Sys2Proof.Machine.execChannelRetirement e d s
  | .edgeDown e => Sys2Proof.Machine.execEdgeDown e s
  | .ueCoreState c => Sys2Proof.Machine.execUeCoreState c s
  | .scrub u => Sys2Proof.Machine.execScrub u s
  | .sensorRead d n v => Sys2Proof.Machine.execSensorRead d n v s
  | .leaseRenewal => Sys2Proof.Machine.execLeaseRenewal s
  | .leaseTakeover im => Sys2Proof.Machine.execLeaseTakeover im s
  | .rowGate d r => Sys2Proof.Machine.execRowGate d r s
  | .rowUngate d r => Sys2Proof.Machine.execRowUngate d r s
  | .breakpointHit c t => Sys2Proof.Machine.execBreakpointHit c t s
  | .debugEventDelivery p => Sys2Proof.Machine.execDebugEventDelivery p s
  | .registerWrite fn off v => Sys2Proof.Machine.execRegisterWrite fn off v s
  | .hltClear p q => Sys2Proof.Machine.execHltClear p q s
  | .invRange p => Sys2Proof.Machine.execInvRange p s
  | .loadKey p => Sys2Proof.Machine.execLoadKey p s
  | .revoke p => Sys2Proof.Machine.execRevoke p s
  | .importEntry p => Sys2Proof.Machine.execImportEntry p s
  | .exportRange p => Sys2Proof.Machine.execExportRange p s
  | .attreq p => Sys2Proof.Machine.execAttreq p s
  | .tactKill p n => Sys2Proof.Machine.execTactKill p n s
  | .tactReplay p n => Sys2Proof.Machine.execTactReplay p n s
  | .tactPark p n => Sys2Proof.Machine.execTactPark p n s
  | .tactForward p n => Sys2Proof.Machine.execTactForward p n s
  | .tactRollback p n => Sys2Proof.Machine.execTactRollback p n s
  | .migrateCore p => Sys2Proof.Machine.execMigrateCore p s
  | .recastCmd p => Sys2Proof.Machine.execRecastCmd p s
  | .placeQueue p => Sys2Proof.Machine.execPlaceQueue p s
  | .createPart => Sys2Proof.Machine.execCreatePart s
  | .destroyPart => Sys2Proof.Machine.execDestroyPart s
  | .ckset => Sys2Proof.Machine.execCkset s
  | .killCtx => Sys2Proof.Machine.execKillCtx s
  | .kret => Sys2Proof.Machine.execKret s
  | .verifyImage => Sys2Proof.Machine.execVerifyImage s
  | .activate => Sys2Proof.Machine.execActivate s
  | .svnset => Sys2Proof.Machine.execSvnset s
  | .ownadd => Sys2Proof.Machine.execOwnadd s
  | .freshNonce => Sys2Proof.Machine.execFreshNonce s
  | .ownxfer => Sys2Proof.Machine.execOwnxfer s
  | .attest => Sys2Proof.Machine.execAttest s
  | .capWrite d v => Sys2Proof.Machine.execCapWrite d v s
  | .gateWrite d v => Sys2Proof.Machine.execGateWrite d v s
  | .clkWrite d v => Sys2Proof.Machine.execClkWrite d v s
  | .haltSlots p => Sys2Proof.Machine.execHaltSlots p s
  | .haltc p => Sys2Proof.Machine.execHaltc p s
  | .resumeSlots p => Sys2Proof.Machine.execResumeSlots p s
  | .stepSlot p => Sys2Proof.Machine.execStepSlot p s
  | .rdreg p => Sys2Proof.Machine.execRdreg p s
  | .wrreg p => Sys2Proof.Machine.execWrreg p s
  | .rdspr p => Sys2Proof.Machine.execRdspr p s
  | .rdcell p => Sys2Proof.Machine.execRdcell p s
  | .brkset p => Sys2Proof.Machine.execBrkset p s
  | .brkclr p => Sys2Proof.Machine.execBrkclr p s
  | .debugThaw p => Sys2Proof.Machine.execDebugThaw p s
  | .barrd p => Sys2Proof.Machine.execBarrd p s
  | .illegalWord w => Sys2Proof.Machine.execIllegalWord w s
  | .effectivePriorityRise p q => Sys2Proof.Machine.execEffectivePriorityRise p q s
  | .trapRecordDelivery p => Sys2Proof.Machine.execTrapRecordDelivery p s
  | .linkRetry k loc n => Sys2Proof.Machine.execLinkRetry k loc n s
  | .transitFlit pkg flit => Sys2Proof.Machine.execTransitFlit pkg flit s
  | .meshPacketDiscard c op mask => Sys2Proof.Machine.execMeshPacketDiscard c op mask s
  | .pcieLinkTraining port rate width => Sys2Proof.Machine.execPcieLinkTraining port rate width s
  | .atomicEngineLineWriteback cl line => Sys2Proof.Machine.execAtomicEngineLineWriteback cl line s

end Sys2Proof.Machine
end

