-- ==== Sys2Proof/Machine/Run.lean ====
section
/-! DEFINITION. The meaning of a step in flight: the meaning of the row of the opcode table it names (proved equal to
exec of that row in Sys2Proof/Laws/Run.lean). -/

namespace Sys2Proof.Machine

/-- Perform a step in flight. -/
def runEv (e : Ev) (s : State) : Out :=
  match e with
  | .powerOnReset => execPowerOnReset s
  | .spill c t => execSpill c t s
  | .fill c t => execFill c t s
  | .scoreboardRetirement c => execScoreboardRetirement c s
  | .tapeAppend c => execTapeAppend c s
  | .remoteReply c t => execRemoteReply c t s
  | .sectorFetch c f => execSectorFetch c f s
  | .readSetInstall c f => execReadSetInstall c f s
  | .sectorDrain c e => execSectorDrain c e s
  | .drainAcknowledgement c e => execDrainAcknowledgement c e s
  | .ldaAtHome c t => execLdaAtHome c t s
  | .strelAtHome c t => execStrelAtHome c t s
  | .atomicAtHome c t => execAtomicAtHome c t s
  | .feAtHome c t => execFeAtHome c t s
  | .feWithdrawal c n => execFeWithdrawal c n s
  | .feLimitExpiry c t => execFeLimitExpiry c t s
  | .waitgeAtHome c t => execWaitgeAtHome c t s
  | .counterLimitExpiry c t => execCounterLimitExpiry c t s
  | .sleepTimeout c t => execSleepTimeout c t s
  | .eventArrival c t => execEventArrival c t s
  | .portEntryArrival c d => execPortEntryArrival c d s
  | .orderTokenGrant c t => execOrderTokenGrant c t s
  | .barrierEpisodeComplete b => execBarrierEpisodeComplete b s
  | .ckptCollective f => execCkptCollective f s
  | .gangerExitComplete c => execGangerExitComplete c s
  | .icacheLineFill c t => execIcacheLineFill c t s
  | .translationWalk c t => execTranslationWalk c t s
  | .invalidation p c => execInvalidation p c s
  | .translationChangeComplete p => execTranslationChangeComplete p s
  | .sequencerAccept c => execSequencerAccept c s
  | .kStep c => execKStep c s
  | .engineCommandComplete c q => execEngineCommandComplete c q s
  | .engineFault c q => execEngineFault c q s
  | .qjoinFenceComplete c => execQjoinFenceComplete c s
  | .ringChunkStart c => execRingChunkStart c s
  | .ringChunkComplete c => execRingChunkComplete c s
  | .feedsWordDelivery c => execFeedsWordDelivery c s
  | .gatherLead c => execGatherLead c s
  | .gatherWindowClose c => execGatherWindowClose c s
  | .stealRequest c t => execStealRequest c t s
  | .rampCreditRefill d => execRampCreditRefill d s
  | .leaveGrant d => execLeaveGrant d s
  | .leaveReturn d => execLeaveReturn d s
  | .claim c t => execClaim c t s
  | .freeze b => execFreeze b s
  | .latchPulse c => execLatchPulse c s
  | .wsDataPulse c => execWsDataPulse c s
  | .rsDataPulse c => execRsDataPulse c s
  | .scalePulse c => execScalePulse c s
  | .zeroPointPulse c => execZeroPointPulse c s
  | .endPulse c => execEndPulse c s
  | .thawReturn b => execThawReturn b s
  | .doorbellWrite p q => execDoorbellWrite p q s
  | .dispatch p => execDispatch p s
  | .gangerStart f => execGangerStart f s
  | .replayFallback f => execReplayFallback f s
  | .corePartEnd c => execCorePartEnd c s
  | .retirement f => execRetirement f s
  | .dryTimerExpiry c => execDryTimerExpiry c s
  | .coreRecast c r => execCoreRecast c r s
  | .migrationSwitch c => execMigrationSwitch c s
  | .migrationResume c => execMigrationResume c s
  | .partSend n => execPartSend n s
  | .partAcknowledgement n => execPartAcknowledgement n s
  | .inboundRead port fn bar off len => execInboundRead port fn bar off len s
  | .inboundReadPerform n => execInboundReadPerform n s
  | .peerReplyTimeout c => execPeerReplyTimeout c s
  | .haulPortFailure i => execHaulPortFailure i s
  | .telemetryInterval p => execTelemetryInterval p s
  | .checkpointInterval p => execCheckpointInterval p s
  | .trapService d n => execTrapService d n s
  | .killMessage c x => execKillMessage c x s
  | .killSweepEnd c x => execKillSweepEnd c x s
  | .killConfirmation f => execKillConfirmation f s
  | .rollbackRestore f => execRollbackRestore f s
  | .channelRetirement e d => execChannelRetirement e d s
  | .edgeDown e => execEdgeDown e s
  | .ueCoreState c => execUeCoreState c s
  | .scrub u => execScrub u s
  | .sensorRead d n v => execSensorRead d n v s
  | .leaseRenewal => execLeaseRenewal s
  | .leaseTakeover i => execLeaseTakeover i s
  | .rowGate d r => execRowGate d r s
  | .rowUngate d r => execRowUngate d r s
  | .breakpointHit c t => execBreakpointHit c t s
  | .debugEventDelivery p => execDebugEventDelivery p s
  | .hltClear p q => execHltClear p q s
  | .invRange p => execInvRange p s
  | .loadKey p => execLoadKey p s
  | .revoke p => execRevoke p s
  | .importEntry p => execImportEntry p s
  | .exportRange p => execExportRange p s
  | .attreq p => execAttreq p s
  | .tactKill p n => execTactKill p n s
  | .tactReplay p n => execTactReplay p n s
  | .tactPark p n => execTactPark p n s
  | .tactForward p n => execTactForward p n s
  | .tactRollback p n => execTactRollback p n s
  | .migrateCore p => execMigrateCore p s
  | .recastCmd p => execRecastCmd p s
  | .placeQueue p => execPlaceQueue p s
  | .createPart => execCreatePart s
  | .destroyPart => execDestroyPart s
  | .ckset => execCkset s
  | .killCtx => execKillCtx s
  | .kret => execKret s
  | .verifyImage => execVerifyImage s
  | .activate => execActivate s
  | .svnset => execSvnset s
  | .ownadd => execOwnadd s
  | .freshNonce => execFreshNonce s
  | .ownxfer => execOwnxfer s
  | .attest => execAttest s
  | .haltSlots p => execHaltSlots p s
  | .haltc p => execHaltc p s
  | .resumeSlots p => execResumeSlots p s
  | .stepSlot p => execStepSlot p s
  | .rdreg p => execRdreg p s
  | .wrreg p => execWrreg p s
  | .rdspr p => execRdspr p s
  | .rdcell p => execRdcell p s
  | .brkset p => execBrkset p s
  | .brkclr p => execBrkclr p s
  | .debugThaw p => execDebugThaw p s
  | .barrd p => execBarrd p s
  | .effectivePriorityRise p q => execEffectivePriorityRise p q s
  | .trapRecordDelivery p => execTrapRecordDelivery p s
  | .linkRetry k loc n => execLinkRetry k loc n s
  | .transitFlit pkg flit => execTransitFlit pkg flit s
  | .meshPacketDiscard c op mask => execMeshPacketDiscard c op mask s
  | .pcieLinkTraining port rate width => execPcieLinkTraining port rate width s
  | .atomicEngineLineWriteback cl line => execAtomicEngineLineWriteback cl line s

end Sys2Proof.Machine
end

