-- ==== Sys2Proof/WellFormed.lean ====
section
/-! DEFINITION. Which instruction terms are well formed: the field ranges of 03 R77 to R86 and of the instruction
chapters that make a word ILLEGAL (R87). Rows without a word are well formed as they stand. -/

namespace Sys2Proof

/-- True of a row of the table that has an instruction word. -/
def Instr.isWord : Instr → Bool
  | .powerOnReset => false
  | .spill _ _ => false
  | .fill _ _ => false
  | .scoreboardRetirement _ => false
  | .tapeAppend _ => false
  | .remoteReply _ _ => false
  | .sectorFetch _ _ => false
  | .readSetInstall _ _ => false
  | .sectorDrain _ _ => false
  | .drainAcknowledgement _ _ => false
  | .ldaAtHome _ _ => false
  | .strelAtHome _ _ => false
  | .atomicAtHome _ _ => false
  | .feAtHome _ _ => false
  | .feWithdrawal _ _ => false
  | .feLimitExpiry _ _ => false
  | .waitgeAtHome _ _ => false
  | .counterLimitExpiry _ _ => false
  | .sleepTimeout _ _ => false
  | .eventArrival _ _ => false
  | .portEntryArrival _ _ => false
  | .orderTokenGrant _ _ => false
  | .barrierEpisodeComplete _ => false
  | .ckptCollective _ => false
  | .gangerExitComplete _ => false
  | .icacheLineFill _ _ => false
  | .translationWalk _ _ => false
  | .invalidation _ _ => false
  | .translationChangeComplete _ => false
  | .sequencerAccept _ => false
  | .kStep _ => false
  | .engineCommandComplete _ _ => false
  | .engineFault _ _ => false
  | .qjoinFenceComplete _ => false
  | .ringChunkStart _ => false
  | .ringChunkComplete _ => false
  | .feedsWordDelivery _ => false
  | .gatherLead _ => false
  | .gatherWindowClose _ => false
  | .stealRequest _ _ => false
  | .rampCreditRefill _ => false
  | .leaveGrant _ => false
  | .leaveReturn _ => false
  | .claim _ _ => false
  | .freeze _ => false
  | .latchPulse _ => false
  | .wsDataPulse _ => false
  | .rsDataPulse _ => false
  | .scalePulse _ => false
  | .zeroPointPulse _ => false
  | .endPulse _ => false
  | .thawReturn _ => false
  | .doorbellWrite _ _ => false
  | .dispatch _ => false
  | .gangerStart _ => false
  | .replayFallback _ => false
  | .corePartEnd _ => false
  | .retirement _ => false
  | .dryTimerExpiry _ => false
  | .coreRecast _ _ => false
  | .migrationSwitch _ => false
  | .migrationResume _ => false
  | .inboundWrite _ _ _ _ _ => false
  | .partSend _ => false
  | .partAcknowledgement _ => false
  | .inboundRead _ _ _ _ _ => false
  | .inboundReadPerform _ => false
  | .peerInbound _ _ _ _ _ _ _ => false
  | .peerReplyTimeout _ => false
  | .haulPortFailure _ => false
  | .telemetryInterval _ => false
  | .checkpointInterval _ => false
  | .trapService _ _ => false
  | .killMessage _ _ => false
  | .killSweepEnd _ _ => false
  | .killConfirmation _ => false
  | .rollbackRestore _ => false
  | .channelRetirement _ _ => false
  | .edgeDown _ => false
  | .ueCoreState _ => false
  | .scrub _ => false
  | .sensorRead _ _ _ => false
  | .leaseRenewal => false
  | .leaseTakeover _ => false
  | .rowGate _ _ => false
  | .rowUngate _ _ => false
  | .breakpointHit _ _ => false
  | .debugEventDelivery _ => false
  | .registerWrite _ _ _ => false
  | .hltClear _ _ => false
  | .invRange _ => false
  | .loadKey _ => false
  | .revoke _ => false
  | .importEntry _ => false
  | .exportRange _ => false
  | .attreq _ => false
  | .tactKill _ _ => false
  | .tactReplay _ _ => false
  | .tactPark _ _ => false
  | .tactForward _ _ => false
  | .tactRollback _ _ => false
  | .migrateCore _ => false
  | .recastCmd _ => false
  | .placeQueue _ => false
  | .createPart => false
  | .destroyPart => false
  | .ckset => false
  | .killCtx => false
  | .kret => false
  | .verifyImage => false
  | .activate => false
  | .svnset => false
  | .ownadd => false
  | .freshNonce => false
  | .ownxfer => false
  | .attest => false
  | .capWrite _ _ => false
  | .gateWrite _ _ => false
  | .clkWrite _ _ => false
  | .haltSlots _ => false
  | .haltc _ => false
  | .resumeSlots _ => false
  | .stepSlot _ => false
  | .rdreg _ => false
  | .wrreg _ => false
  | .rdspr _ => false
  | .rdcell _ => false
  | .brkset _ => false
  | .brkclr _ => false
  | .debugThaw _ => false
  | .barrd _ => false
  | .illegalWord _ => false
  | .effectivePriorityRise _ _ => false
  | .trapRecordDelivery _ => false
  | .linkRetry _ _ _ => false
  | .transitFlit _ _ => false
  | .meshPacketDiscard _ _ _ => false
  | .pcieLinkTraining _ _ _ => false
  | .atomicEngineLineWriteback _ _ => false
  | _ => true

/-- Names of the checks a term can fail (R87: a field value outside the range its rule allows). -/
inductive FormError where
  /-- compare-skip count 0 (R84) -/
  | skipCount
  /-- integer format code of FCVTFI or FCVTIF (R81) -/
  | convertFormat
  /-- floating format code of FCVTH (R81) -/
  | halfFormat
  /-- LOOP offset 0 (R137) -/
  | loopOffset
  /-- U = 1 with width 3 (R82) -/
  | zeroExtendWidth
  /-- scope 5 to 7 (R82, R78) -/
  | scope
  /-- FENCE kind 3 (R82) -/
  | fenceKind
  /-- cell register 0x28 to 0x3F (R82) -/
  | cellRegister
  /-- HMOD rounding mode 6 or 7 (R78) -/
  | roundMode
  /-- a lane format code not marked "yes" in R45 (R78, R83) -/
  | laneFormat
  /-- VCMP comparison 6 or 7 (R83) -/
  | comparison
  /-- MTILE index source 3 (R198) -/
  | indexSource
  /-- FEED or FEEDS toward north or west, DRAIN toward east or south (R216, R218) -/
  | direction
  deriving DecidableEq, Repr

/-- The check a term fails, if any. -/
def formError : Instr → Option FormError
  | .skeqReg _ _ n => if n = 0 then some .skipCount else none
  | .skeqImm _ _ n => if n = 0 then some .skipCount else none
  | .skneReg _ _ n => if n = 0 then some .skipCount else none
  | .skneImm _ _ n => if n = 0 then some .skipCount else none
  | .skltReg _ _ n => if n = 0 then some .skipCount else none
  | .skltImm _ _ n => if n = 0 then some .skipCount else none
  | .skgeReg _ _ n => if n = 0 then some .skipCount else none
  | .skgeImm _ _ n => if n = 0 then some .skipCount else none
  | .skltuReg _ _ n => if n = 0 then some .skipCount else none
  | .skltuImm _ _ n => if n = 0 then some .skipCount else none
  | .skgeuReg _ _ n => if n = 0 then some .skipCount else none
  | .skgeuImm _ _ n => if n = 0 then some .skipCount else none
  | .skbsReg _ _ n => if n = 0 then some .skipCount else none
  | .skbsImm _ _ n => if n = 0 then some .skipCount else none
  | .skbcReg _ _ n => if n = 0 then some .skipCount else none
  | .skbcImm _ _ n => if n = 0 then some .skipCount else none
  | .skfeq _ _ n => if n = 0 then some .skipCount else none
  | .skflt _ _ n => if n = 0 then some .skipCount else none
  | .skfle _ _ n => if n = 0 then some .skipCount else none
  | .skfun _ _ n => if n = 0 then some .skipCount else none
  | .fcvtfi _ _ f => if f = 0 ∨ f = 3 ∨ f = 4 ∨ f = 5 then none else some .convertFormat
  | .fcvtif _ _ f => if f = 0 ∨ f = 3 ∨ f = 4 ∨ f = 5 then none else some .convertFormat
  | .fcvth _ _ _ f => if 6 ≤ f.toNat ∧ f.toNat ≤ 9 then none else some .halfFormat
  | .loopSet _ _ o => if o = 0 then some .loopOffset else none
  | .ldx _ _ _ _ u w => if u = 1 ∧ w = 3 then some .zeroExtendWidth else none
  | .lda _ _ s u w => if u = 1 ∧ w = 3 then some .zeroExtendWidth else if 4 < s.toNat then some .scope else none
  | .strel _ _ s _ => if 4 < s.toNat then some .scope else none
  | .fence s n => if n = 3 then some .fenceKind else if 4 < s.toNat then some .scope else none
  | .bar s _ => if 4 < s.toNat then some .scope else none
  | .mfa _ c => if 0x28 ≤ c.toNat then some .cellRegister else none
  | .mta _ c => if 0x28 ≤ c.toNat then some .cellRegister else none
  | .hmodRound m => if 5 < m.toNat then some .roundMode else none
  | .hmodScope s => if 4 < s.toNat then some .scope else none
  | .hmodLanes f => if 10 < f.toNat then some .laneFormat else none
  | .vcmp _ _ _ c => if 5 < c.toNat then some .comparison else none
  | .vcvt _ _ _ f => if 10 < f.toNat then some .laneFormat else none
  | .mtile _ _ _ _ q => if q = 3 then some .indexSource else none
  | .feed _ _ q => if q = 1 ∨ q = 2 then none else some .direction
  | .feeds _ _ _ _ q => if q = 1 ∨ q = 2 then none else some .direction
  | .drainWord _ _ q => if q = 0 ∨ q = 3 then none else some .direction
  | _ => none

/-- A term is well formed when it fails no check. -/
def WellFormed (i : Instr) : Bool := (formError i).isNone

end Sys2Proof
end

