-- ==== Sys2Proof/Machine/Schedule.lean ====
section
/-! DEFINITION. What happens next: the wheel of every core (01 R12 to R17, 09 R270), the actions in flight, the end of a tick
with its counters and due duties, and what comes from outside. One step does one thing; the order of independent agents
within a tick, which the manual leaves open, is the model's (log 1). -/

namespace Sys2Proof.Machine

/-- What a step does: run an instruction, a step in flight, a word that decodes to nothing, a host register write, or a
change that is no row of the opcode table. -/
inductive Pick where
  | run (i : Instr) (s : State)
  | ev (e : Ev) (s : State)
  | illegal (w : BitVec 32) (s : State)
  | write (fn off : Nat) (v : Word) (s : State)
  | next (s : State)
  deriving DecidableEq, Repr

/-! ## The wheel -/

/-- A slot's issue opportunity while the debugger wants it (19 R436, R439): it halts. A thread whose stepped word trapped
halts only where it would issue again. -/
def State.haltDue (s : State) (c t : Nat) : State :=
  let h := s.thr c t
  if h.st = .empty || h.halted then s
  else
    let stepEnds : Bool := h.stepped && h.st = .ready
    let asked : Bool := h.haltReq && (h.st = .ready || (s.core c).haltMask.any (fun m => decide (bits m t t = 1)))
    let s := if stepEnds || asked then (s.haltSlot c t).modThr c t (fun h => { h with stepped := h.stepped && !stepEnds }) else s
    let s := if stepEnds then s.debugEvent c t 2 h.pc.toNat else s
    if stepEnds || asked then s.checkHalt c else s

/-- The slot may issue (R13, R17, R18, R352). -/
def Core.canIssue (k : Core) (t : Nat) : Bool :=
  let h := k.thr t
  h.st = .ready && !h.halted && !k.frozen && k.field.isSome && !k.placing && !k.migStop

/-- Eight ticks have passed since the slot issued (R13). -/
def Thread.loanable (h : Thread) (cyc : Nat) : Bool := match h.lastIssue with | some t => decide (t + 8 ≤ cyc) | none => true

/-- Pass over annulled words: only their loop steps are made (R35). -/
def Thread.skip (h : Thread) : (n : Nat) → Thread
  | 0 => { h with annul := 0 }
  | n + 1 => h.advance.skip n

/-- A breakpoint covers a slot at an address (19 R439). -/
def Core.breaks (k : Core) (t : Nat) (pc : BitVec 48) : Bool :=
  let hit := fun (b : Option (Nat × Nat)) => match b with | some (a, m) => a = pc.toNat && bits m t t = 1 | none => false
  hit k.bp0 || hit k.bp1

/-- The issue of a word is recorded (R13, R44, R389). -/
def State.begun (s : State) (c t : Nat) (w : BitVec 32) : State :=
  let n := (s.core c).nextStamp
  ({ s with cur := (c, t) } : State).modCore c (fun k => { (k.modThr t (fun h =>
    { h with iw := w, lastIssue := some s.cyc, stamp := n, skipBp := false, stepped := h.stepReq, stepReq := false,
             tape := k.tape.map (·.id) })) with
    nextStamp := n + 1 })

/-- The line of a word in the cluster's cache, unless the doubleword of the word is uncorrectable: that is fetched again (R417). -/
def State.cachedLine (s : State) (c : Nat) (pc : BitVec 48) : Option Line :=
  s.icache.find? (fun l => decide (l.cluster = clusterOf c) && decide (l.ctx = (s.core c).ctx) &&
    decide (l.va = pc.toNat / 64 * 64) && !l.ue.contains (pc.toNat % 64 / 8))

/-- The word of a line at an address. -/
def Line.word (l : Line) (pc : BitVec 48) : BitVec 32 := BitVec.ofNat 32 (ofBytesLE ((l.bytes.drop (pc.toNat % 64)).take 4))

/-- Fetch and issue the next word of a slot (R131, R271); an uncorrectable register is met once the word is there and before it
is decoded (R417; log 56); a word that is refused or ill formed is the row ILLEGAL_WORD (R87, R88). -/
def State.issue (s : State) (c t : Nat) : Pick :=
  let s := s.modThr c t (fun h => h.skip h.annul)
  let h := s.thr c t
  if (s.core c).breaks t h.pc && !h.skipBp then .ev (.breakpointHit c t) s
  else
    match s.place c (codeWord h.pc) 4 1 with
    | .trap e _ => .next (s.fetchTrap c t e)
    | .miss v acc => .next ((s.modThr c t (fun h => h.await (.walk none v acc))).post (.translationWalk c t))
    | _ =>
      match s.cachedLine c h.pc with
      | none => .next ((s.modThr c t (fun h => h.await .line)).post (.icacheLineFill c t))
      | some l =>
        let w := l.word h.pc
        if (s.core c).regUe.contains (t + 16 * h.inc) then
          .next ((s.modThr c t (fun h => h.fetches w)).trapOf c t .ue 0 true |>.faceTrap c w)
        else match decodeWord w with
        | .ok i => if WellFormed i then .run i (s.begun c t w) else .illegal w (s.begun c t w)
        | .error _ => .illegal w (s.begun c t w)

/-- A thread's transfer is due (R27); a frame with an uncorrectable doubleword is filled only for an instruction that needs its
window, which then traps (18 R417). -/
def Core.movesFrame (k : Core) (t : Nat) : Bool :=
  let h := k.thr t
  h.spillDue || (h.fillDue && (h.wantsWindow || !k.lsBad (h.wsp.toNat - 64) 64))

/-- The transfer of a thread that is due and not held by the scoreboard (R27, R269): none when held. -/
def State.transfer (s : State) (c t : Nat) : Option Ev :=
  let k := s.core c
  let h := k.thr t
  if !k.movesFrame t then none
  else if h.spillDue then (if k.scbHit h.wsp.toNat 64 then none else some (.spill c t))
  else if k.scbHit (h.wsp.toNat - 64) 64 then none else some (.fill c t)

/-- A replay's next item is held by the range scoreboard: the descriptor of a TLD, or what the checks of a whole tape read (08
R262). -/
def State.playHeld (s : State) (c t : Nat) (i : TapeItem) : Bool :=
  if i.word = 0 then
    match (s.core c).field.bind (tfind s.fields) with
    | some f => (match (s.checkTape c t (wordN (f.tapes.getD (s.core c).lcn 0)) (.given f.patch)).2 with | .error .held => true | _ => false)
    | none => false
  else i.tld && s.readWaits c (i.vals.headD 0) 64 = some .held

/-- With a scoreboard, does the thread's wait last? -/
def State.stuck (s : State) (c t : Nat) (scb : List SbEntry) : Bool :=
  let s := { s.modCore c (fun k => { k with scb := scb }) with cur := (c, t) }
  match (s.thr c t).wait, (s.core c).seqq.any (fun q => q.slot = t) with
  | .retry i, _ => (outState s (exec i s)).thr c t |>.retries
  | .tplay _ (i :: _), false => s.playHeld c t i
  | _, _ => (match (s.core c).seqq with
      | q :: _ => q.slot ≠ t || ((outState s (execSequencerAccept c s)).core c).seqq = (s.core c).seqq
      | [] => true)

/-- The entry to retire for a thread that waits for nothing but retirable entries (R270): one that frees it alone, else one
that holds it. -/
def State.blocker (s : State) (c t : Nat) : Option SbEntry :=
  let k := s.core c
  let stay := k.scb.filter (fun e => !e.retirable)
  let waits : Bool := match (k.thr t).wait with | .retry _ => true | .seq => true | .tplay _ _ => true | _ => false
  let done := k.scb.filter (fun e => e.retirable)
  if !waits || done = [] || !s.stuck c t k.scb || s.stuck c t stay then none
  else match done.find? (fun e => !s.stuck c t (k.scb.erase e)) with
    | some e => some e
    | none => match done.find? (fun e => s.stuck c t (e :: stay)) with
      | some e => some e
      | none => done.head?

/-- The owner's own transfer or retirement, ahead of a loan (R16, R270). -/
def State.ownerWork (s : State) (c t : Nat) : Option (Ev × State) :=
  let h := s.thr c t
  if h.st ≠ .waiting then none
  else if h.wantsWindow then (s.transfer c t).map (fun e => (e, s))
  else match s.blocker c t with
    | some e => some (.scoreboardRetirement c, s.modCore c (fun k => { k with scb := e :: k.scb.erase e }))
    | none => none

/-- The lowest slot with a transfer pending (R15). -/
def Core.transferSlot (k : Core) : Option Nat := (upto 16).find? k.movesFrame

/-- One housekeeping step (R15): a held transfer passes to the next kind (R269). -/
def State.housekeeping (s : State) (c : Nat) : Option Ev :=
  let k := s.core c
  match k.transferSlot.bind (s.transfer c) with
  | some e => some e
  | none =>
    if k.scb.any (fun e => e.retirable) then some (.scoreboardRetirement c)
    else match k.tape with
      | some x => if x.buf ≠ [] && !k.scbHit (x.area + 64 + 16 * x.written) 16 then some (.tapeAppend c) else none
      | none => none

/-- The slot of the wheel at a core (R13, R15 to R17). While issue is stopped for a migration, housekeeping goes on (15 R352;
log 87). -/
def State.wheel (s : State) (c : Nat) : Pick :=
  let t := s.cyc % 16
  let p := (t + 8) % 16
  let s := ({ s with turn := c + 1 } : State).haltDue c t
  if (s.core c).canIssue t then s.issue c t
  else match s.ownerWork c t with
    | some (e, s) => .ev e s
    | none =>
      let s := s.haltDue c p
      if (s.core c).canIssue p && (s.thr c p).loanable s.cyc then s.issue c p
      else match s.housekeeping c with
        | some e => .ev e s
        | none => .next s

/-! ## Actions in flight -/

/-- An action waits while its thread is frozen, halted or migrating (R21, R353). -/
def State.blocked (s : State) : Action → Bool
  | .resume c t => (s.core c).frozen || (s.thr c t).halted || (s.core c).migStop
  | .ev _ => false

/-- An action may land now. -/
def State.lands (s : State) (x : Nat × Action) : Bool := decide (x.1 ≤ s.cyc) && !s.blocked x.2

/-- Perform an action: a step, or the instruction a thread waits in, performed again (R142). -/
def State.perform (s : State) : Action → Pick
  | .ev e => .ev e s
  | .resume c t =>
    match (s.thr c t).wait with
    | .retry i => .run i { s with cur := (c, t) }
    | .room .. => .next ({ s with cur := (c, t) } : State).roomNow
    | .tplay _ _ =>
      -- a command of the replay that the sequencer has still to accept comes first
      .next (if (s.thr c t).st = .waiting && !(s.core c).seqq.any (fun q => q.slot = t) then s.playNext c t else s)
    | _ => .next s

/-! ## The end of a tick -/

/-- The step that ends a limited wait (R44, R159, R166, R168). -/
def Thread.expiry (h : Thread) (c t : Nat) : Option Ev :=
  match h.wait with
  | .sleep _ => some (.sleepTimeout c t)
  | .home _ (.fe ..) _ => some (.feLimitExpiry c t)
  | .home _ (.waitge ..) _ => some (.counterLimitExpiry c t)
  | _ => none

/-- The limits of a core's waits count (R21, R166, R304, R353). -/
def Core.counts (k : Core) : Bool := k.migTo.isNone && !k.frozen

/-- A slot is in a limited wait. -/
def Thread.limited (h : Thread) : Bool := h.st = .waiting || h.st = .sleeping

/-- The wait ends when its limit has counted from 1 to 0. A SLEEP whose timeout found the core frozen ends too, its limit
being 0 (R166; log 89); a request with no time to wait is refused where it is served (R158, R168). -/
def Thread.expires (h : Thread) (n : Nat) : Bool := n = 1 || (n = 0 && (match h.wait with | .sleep _ => true | _ => false))

/-- A tick of one slot: its limit, which counts from the tick of issue (log 82); the word of a STEP that trapped is told at
once, and the thread halts before its next issue; a STEP of a thread that is parked lasts until it is replayed (19 R439). -/
def State.threadTick (s : State) (c t : Nat) : State :=
  let k := s.core c
  let h := k.thr t
  let s := match h.limit with
    | none => s
    | some n =>
      if !k.counts || !h.limited then s
      else
        let s := s.modThr c t (fun h => { h with limit := some (n - 1) })
        match (if h.expires n then h.expiry c t else none) with
        | some e => s.post1 e
        | none => s
  if h.st = .parked && h.stepped then
    (s.modThr c t (fun h => { h with stepped := false, haltReq := true })).debugEvent c t 2 h.pc.toNat
  else s

/-- A tick of one core: limits, dry timer (15 R346), peers that do not answer (16 R374), a completed halt (19 R436). -/
def State.coreTick (s : State) (c : Nat) : State :=
  let s := ((s.core c).threads.map (·.1)).foldl (fun s t => s.threadTick c t) s
  let s := match s.channel c with
    | none => s
    | some r =>
      let k := (s.core c).dryTick r
      let s := s.setCore c k
      if r.chan ≠ 0 && r.dry ≠ 0 && !k.dryHeld && r.dry ≤ k.dry then s.post1 (.dryTimerExpiry c) else s
  let k := s.core c
  let late := k.fetches.any (fun f => s.overdue k.part f.sentAt) || k.reqs.any (fun r => s.overdue k.part r.sentAt) ||
    k.pbuf.any (fun e => e.sent && s.overdue k.part e.sentAt)
  let s := if late then s.post1 (.peerReplyTimeout c) else s
  if k.haltMask = [] then s else s.checkHalt c

/-- A tick of one die: ramp credit and leave (11 R301), row gating (19 R434). -/
def State.dieTick (s : State) (d : Nat) : State :=
  let x := s.die d
  let s := s.postIf (s.cyc % 7 = 0 && x.credit < 200000) (.rampCreditRefill d)
  let s := s.postIf (x.queue ≠ []) (.leaveGrant d)
  if x.gate = x.gated then s
  else (upto 42).foldl (fun s r => (s.postIf (s.gateDue d r) (.rowGate d r)).postIf (s.ungateDue d r) (.rowUngate d r)) s

/-- A tick of one partition: doorbells and dispatch (15 R332, R336), rings with room (16 R370), intervals (R384, 15 R354). -/
def State.partTick (s : State) (p : Nat) : State :=
  let x := s.part p
  let s := (x.queues.map (·.1)).foldl (fun s q =>
    (s.postIf (s.doorbellDue p q) (.doorbellWrite p q)).postIf (s.prioRises p q) (.effectivePriorityRise p q)) s
  let s := s.postIf (s.dispatchDue p) (.dispatch p)
  let s := s.postIf (x.tpend ≠ [] && !x.tring.full) (.trapRecordDelivery p)
  let s := s.postIf (!x.dring.full && x.debugEv ≠ []) (.debugEventDelivery p)
  let s := s.postIf (x.telint ≠ 0 && decide (x.lastTel + x.telint ≤ s.cyc)) (.telemetryInterval p)
  let s := s.postIf (x.ckint ≠ 0 && s.fields.any (fun e => e.2.part = p && e.2.stage = .running &&
    decide (e.2.lastCk + x.ckint ≤ s.cyc))) (.checkpointInterval p)
  s.postIf (x.destroying && s.partQuiet p) .destroyPart

/-- Firmware: renewal, takeover (19 R420), the scrub of R425. -/
def State.firmwareTick (s : State) : State :=
  let s := if s.cyc % 7000000 = 0 then s.sendRenewals else s
  let s := if s.cyc < s.leaseExpiry then s
    else (upto 10).foldl (fun s i =>
      s.postIf (i ≠ s.leaseHolder && (tfind s.epochs i).isNone && !s.fwStopped.contains i && s.leaseExpiry + leaseDelay i ≤ s.cyc) (.leaseTakeover i)) s
  if s.cyc % 2 ^ 32 = 0 then (upto 10).foldl (fun s u => s.post1 (.scrub u)) s else s

/-- The tick ends, its reports are delivered (log 78), and the next begins. -/
def State.tickEnd (s : State) : State :=
  let s := s.deliverReports
  let s := { s with cyc := s.cyc + 1, turn := 0 }
  let s := ((s.cores.filter (fun e => e.2.field.isSome)).map (·.1)).foldl (fun s c => s.coreTick c) s
  let s := (s.dieTab.map (·.1)).foldl (fun s d => s.dieTick d) s
  let s := (s.benches.filter (fun b => decide (b.2.reason = 0))).foldl (fun s b => s.checkComplete b.1) s
  let s := (s.fields.filter (fun e => decide (e.2.stage = .retiring) && !(s.part e.2.part).cring.full)).foldl
    (fun s e => s.post1 (.retirement e.1)) s
  let s := (s.parts.map (·.1)).foldl (fun s p => s.partTick p) s
  s.firmwareTick

/-! ## From outside -/

/-- The rows of the opcode table that come from outside the package or strike it. -/
def outside : Instr → Bool
  | .powerOnReset => true
  | .inboundWrite .. => true
  | .inboundRead .. => true
  | .peerInbound .. => true
  | .registerWrite .. => true
  | .haulPortFailure _ => true
  | .channelRetirement .. => true
  | .edgeDown _ => true
  | .ueCoreState _ => true
  | .sensorRead .. => true
  | .linkRetry .. => true
  | .transitFlit .. => true
  | .meshPacketDiscard .. => true
  | .pcieLinkTraining .. => true
  | .atomicEngineLineWriteback .. => true
  | .scrub _ => true
  | _ => false

/-- Add to a list once. -/
def addOnce (l : List Nat) (x : Nat) : List Nat := if l.contains x then l else l ++ [x]

/-- A request to a peer that awaits its reply is answered (16 R374): an LDA takes what the core has drained there since, and
what its write set holds (R150); a STREL's write is before what the core loads from then on (R151). -/
def State.peerReply (s : State) (c t v : Nat) (ue : Bool) : State :=
  match takeFirst (fun (r : Req) => decide (r.slot = t) && r.sentAt.isSome) (s.core c).reqs with
  | some (r, rest) =>
    let k := { s.core c with reqs := rest }
    match r.k with
    | .lda d n _ _ =>
      let w := sectorPart (overlay (v % 256 ^ n * 256 ^ d.off5) r.data r.mask 32) d.off5 n
      (s.setCore c k).reply c t r.inc (if ue then .ue else .val (k.merged d w n))
    | .strel d _ _ =>
      let (w, m) := r.k.strelBytes d.sector
      (s.setCore c (k.performed d.sector w m)).reply c t r.inc .ok
    | _ => (s.setCore c k).reply c t r.inc (if ue then .ue else .val v)
  | none => s

/-- What a choice of the script does at once. -/
def State.apply (s : State) : Choice → State
  | .input _ => s
  | .deliver _ => s
  | .tick => s
  | .hostWrite .. => s
  | .progress c q n => s.progress c q n
  | .hostMem a l => { s with hostMem := mwriteBytes s.hostMem a l }
  | .hbmError w => { s with hbmUe := addOnce s.hbmUe w }
  | .lsError c w => s.modCore c (fun k => { k with lsUe := addOnce k.lsUe w })
  | .regError c t => s.modCore c (fun k => { k with regUe := addOnce k.regUe (t + 16 * (k.thr t).inc) })
  | .softFixed d => s.softFixed d
  | .peerFetch c f v ue =>
    (match (s.core c).fetch f with
    | some x =>
      if x.sentAt.isSome then s.fetched c x (overlay v x.data x.mask 32) (badLeft (if ue then 15 else 0) x.mask) ue else s
    | none => s)
  | .peerReply c t v ue => s.peerReply c t v ue
  | .peerAck c e =>
    (match (s.core c).pbuf.find? (fun x => decide (x.id = e) && x.sentAt.isSome) with
    | some x =>
      (s.modCore c (fun k => (k.modEntry e (fun y => { y with sentAt := none })).drainSeen x)).post (.drainAcknowledgement c e)
    | none => s)
  | .evictLine n => { s with icache := dropAt s.icache n }
  | .evictXlate n => s.forget (fun x => s.xlate[n]? = some x)
  | .hostRetire p ctx => s.hostRetire p ctx
  | .hostCheckpoint p ctx => s.hostCheckpoint p ctx
  | .linkError port fn => s.aerRecord port fn 0
  | .vectorMask fn vec on => s.maskVector fn vec on
  | .cellError c => s.modCore c (fun k => { k with cellUe := true })
  | .fwStop i => { s with fwStopped := addOnce s.fwStopped i }
  | .fwRun i => { s with fwStopped := s.fwStopped.filter (fun j => j ≠ i) }

/-- The next core whose wheel turns in this tick. -/
def State.wheelCore (s : State) : Option Nat :=
  (s.cores.find? (fun e => decide (s.turn ≤ e.1) && e.2.field.isSome)).map (·.1)

/-- The n-th action that may land goes, or the tick ends. -/
def State.flow (s : State) (n : Nat) : Pick :=
  match (s.inflight.filter s.lands).drop n with
  | x :: _ => ({ s with inflight := s.inflight.erase x } : State).perform x.2
  | [] => .next s.tickEnd

/-- Within a tick: the wheels, then the actions in flight, then the end of the tick. -/
def State.inTick (s : State) : Pick :=
  match s.wheelCore with
  | some c => s.wheel c
  | none =>
    match s.script with
    | .deliver n :: r => ({ s with script := r } : State).flow n
    | .tick :: r => .next (({ s with script := r } : State).tickEnd)
    | _ => s.flow 0

/-- What the machine does next. -/
def State.pick (s : State) : Pick :=
  match s.script with
  | [] => s.inTick
  | .deliver _ :: _ => s.inTick
  | .tick :: _ => s.inTick
  | .input i :: r => if outside i then .run i { s with script := r } else .next { s with script := r }
  | .hostWrite fn off v :: r => .write fn off v { s with script := r }
  | ch :: r => .next (({ s with script := r } : State).apply ch)

end Sys2Proof.Machine
end

