-- ==== Sys2Proof/Machine/Step.lean ====
section
/-! DEFINITION. One step of the package, and the placing of one instruction word where the next step fetches it. -/

namespace Sys2Proof.Machine

/-- Do what comes next. -/
def step (s : State) : Out :=
  match s.pick with
  | .run i t => exec i t
  | .ev e t => runEv e t
  | .illegal w t => execIllegalWord w t
  | .write fn off v t => execRegisterWrite fn off v t
  | .next t => .next t

/-- The line that holds a word at an address and zeros elsewhere. -/
def wordLine (c ctx : Nat) (pc : BitVec 48) (w : Nat) : Line :=
  let o := pc.toNat % 64
  { cluster := clusterOf c, ctx := ctx, va := pc.toNat - o, bytes := bytesLE (w % 2 ^ 32 * 256 ^ o) 64 }

/-- The machine at the moment the ganger of core 0 of a field in partition 0 fetches its next word: the word in the
cluster's instruction cache, its page translated and readable, slot 0 of the wheel (log 4). -/
def State.withFetchWord (s : State) (_nbits w : Nat) : State :=
  let s := { s with script := [], inflight := [], turn := 0, cyc := s.cyc / 16 * 16 }
  let k := s.core 0
  let k : Core := { k with field := some (k.field.getD 0), placing := false, cell := none, migTo := none, migStop := false, regUe := [],
                           bp0 := none, bp1 := none }
  let h := k.thr 0
  let h : Thread := { h with st := .ready, opnd := none, halted := false, haltReq := false, stepped := false, annul := 0, pc := h.pc / 4 * 4 }
  let va := h.pc.toNat
  let x : Xlate := { unit' := stationUnit 0, part := k.part, base := va / 2 ^ 16 * 2 ^ 16, bits := 16, frame := 0, key := 0,
                     r := true, w := true, rep := false }
  let p := s.part k.part
  { s.setCore 0 (k.setThr 0 h) with
    parts := tset s.parts k.part { p with keys := p.keys ||| 1 }
    keys := tset s.keys 0 (match tget KeySlot.empty s.keys 0 with | .loaded y => .loaded y | _ => .loaded 0)
    xlate := x :: s.xlate.filter (fun y => !(decide (y.unit' = x.unit') && decide (y.part = x.part)))
    icache := wordLine 0 k.ctx h.pc w :: s.icache }

end Sys2Proof.Machine
end

