-- ==== Sys2Proof/Safety.lean ====
section
/-! DEFINITION. The terms in which claims about the machine are stated: bytes of memory as a reader sees them, what an
instruction leaves unchanged, what completing means, the canonical form of all memories, and a safe run. -/

namespace Sys2Proof.Machine

/-! ## Bytes -/

/-- A byte of the local store of a core, of HBM, of host memory. -/
def State.lsByte (s : State) (c a : Nat) : Byte := mget (s.core c).ls a
def State.hbmByte (s : State) (a : Nat) : Byte := mget s.hbm a
def State.hostByte (s : State) (a : Nat) : Byte := mget s.hostMem a

/-- Every byte of memory reads as before. -/
def SameMemory (s t : State) : Prop :=
  ∀ a, (∀ c, t.lsByte c a = s.lsByte c a) ∧ t.hbmByte a = s.hbmByte a ∧ t.hostByte a = s.hostByte a

/-! ## What is left unchanged -/

/-- Nothing outside the cores changes, and no core but the issuing one. -/
structure OnlyCore (s t : State) : Prop where
  rest : { t with cores := s.cores } = s
  others : ∀ c, c ≠ s.cur.1 → t.core c = s.core c

/-- Nothing changes but the issuing thread. -/
structure OnlyThread (s t : State) : Prop extends OnlyCore s t where
  core : { t.me with threads := s.me.threads } = s.me
  slots : ∀ k, k ≠ s.cur.2 → t.me.thr k = s.me.thr k
  memory : SameMemory s t

/-- What an instruction that only writes general registers leaves alone in its thread: every flag, every special
register and everything else but the general registers, the program counter, the loop counts (R29), the pending
prefixes (R33) and the slot's readiness. -/
def Thread.frame (h : Thread) : Thread :=
  { h.clearPfx with g := Vector.replicate 8 0, win := Vector.replicate 8 0, pc := 0, lc0 := 0, lc1 := 0, st := .ready,
                    wait := .none, opnd := none, limit := none, repCause := 0, repCount := 0 }

/-- A thread has completed its instruction (R131): it is ready at the next word in execution order (R29) with no prefix
pending, its flags and seed are those given, and everything but its general registers is as before. -/
structure Thread.Completes (h h' : Thread) (fxf : BitVec 5) (seed : Word) : Prop where
  ready : h'.st = .ready ∧ h'.wait = .none ∧ h'.opnd = none ∧ h'.limit = none
  prefixes : h'.clearPfx = h'
  next : (h'.pc, h'.lc0, h'.lc1) = ((h.loopStep h.at').2, (h.loopStep h.at').1.lc0, (h.loopStep h.at').1.lc1)
  flags : h'.fxf = fxf ∧ h'.seed = seed
  special : { h'.frame with fxf := h.fxf, seed := h.seed } = h.frame

/-- The issuing thread has completed its instruction, and nothing else has changed. -/
structure Completed (s t : State) (fxf : BitVec 5) (seed : Word) : Prop where
  only : OnlyThread s t
  thread : s.th.Completes t.th fxf seed

/-- An instruction completes with v in register d and nothing else changed: g0 discards the value (R23). -/
def Gives (i : Instr) (s : State) (d : Reg) (v : Word) : Prop :=
  ∃ t, exec i s = .next t ∧ (∀ r, t.th.reg r = if r = d ∧ r ≠ 0 then v else s.th.reg r) ∧
    Completed s t s.th.fxf s.th.seed

/-- As `Gives`, with the flags and the seed left behind. -/
def GivesF (i : Instr) (s : State) (d : Reg) (v : Word) (fxf : BitVec 5) (seed : Word) : Prop :=
  ∃ t, exec i s = .next t ∧ (∀ r, t.th.reg r = if r = d ∧ r ≠ 0 then v else s.th.reg r) ∧ Completed s t fxf seed

/-- Nothing changes but the issuing thread, the messages in flight, and the issuing core as f says. -/
structure Alters (s t : State) (f : Core → Core) : Prop where
  rest : { t with cores := s.cores, inflight := s.inflight } = s
  others : ∀ c, c ≠ s.cur.1 → t.core c = s.core c
  core : { t.me with threads := (f s.me).threads } = f s.me
  slots : ∀ k, k ≠ s.cur.2 → t.me.thr k = s.me.thr k

/-- An instruction completes: the registers listed receive their values, the later of two for one register, g0 none
(R23); no flag changes; the issuing core changes as f says and nothing else does. -/
structure Ends (i : Instr) (s t : State) (w : List (Reg × Word)) (f : Core → Core) : Prop where
  next : exec i s = .next t
  regs : ∀ r, t.th.reg r = w.foldl (fun v e => if r = e.1 ∧ r ≠ 0 then e.2 else v) (s.th.reg r)
  alters : Alters s t f
  thread : s.th.Completes t.th s.th.fxf s.th.seed

/-- An instruction takes its thread off the wheel: the thread becomes as g says, the core as f says, and nothing else
changes; what it waits for it captured (R142). -/
structure Leaves (i : Instr) (s t : State) (f : Core → Core) (g : Thread → Thread) : Prop where
  next : exec i s = .next t
  alters : Alters s t f
  thread : t.th = g s.th

/-! ## The issuing core's local store -/

/-- An access of n bytes at a that the issuing core makes in its own local store (R2, R144 to R146): window 0x0, aligned,
within the implemented offsets, and no entry of the range scoreboard overlaps it (R269). -/
structure State.OwnAccess (s : State) (a : Word) (n : Nat) : Prop where
  inside : a.toNat + n ≤ 0x6000
  aligned : a.toNat % n = 0
  free : s.me.scbHit a.toNat n = false

/-- As above for a read: no doubleword of it is uncorrectable (R417). -/
structure State.OwnRead (s : State) (a : Word) (n : Nat) : Prop extends s.OwnAccess a n where
  good : s.me.lsBad a.toNat n = false

/-- The n bytes of the issuing core's local store at an offset, as a little-endian number (R9). -/
def State.lsValue (s : State) (a : Nat) : Nat → Nat
  | 0 => 0
  | n + 1 => (s.lsByte s.cur.1 a).toNat + 256 * s.lsValue (a + 1) n

/-- The low n bytes of v stand at an offset of the issuing core's local store; every other byte of every memory reads as
before. -/
structure WroteLs (s t : State) (off v n : Nat) : Prop where
  bytes : ∀ k, k < n → t.lsByte s.cur.1 (off + k) = BitVec.ofNat 8 (v / 256 ^ k)
  ls : ∀ c a, c ≠ s.cur.1 ∨ a < off ∨ off + n ≤ a → t.lsByte c a = s.lsByte c a
  others : ∀ a, t.hbmByte a = s.hbmByte a ∧ t.hostByte a = s.hostByte a

/-- As `Alters`, of an instruction that stores: a thread that waits for a counter it wrote may receive its reply (R168),
and where none waits nothing of this happens. -/
structure Writes (s t : State) (f : Core → Core) : Prop where
  rest : { t with cores := s.cores, inflight := s.inflight, watches := s.watches } = s
  others : ∀ c, c ≠ s.cur.1 → { t.core c with replies := (s.core c).replies } = s.core c
  core : { t.me with threads := (f s.me).threads, replies := (f s.me).replies } = f s.me
  slots : ∀ k, k ≠ s.cur.2 → t.me.thr k = s.me.thr k
  quiet : s.watches = [] → t.watches = [] ∧ t.me.replies = (f s.me).replies ∧ ∀ c, c ≠ s.cur.1 → t.core c = s.core c

/-- As `Ends`, of an instruction that stores. -/
structure EndsStore (i : Instr) (s t : State) (w : List (Reg × Word)) (f : Core → Core) : Prop where
  next : exec i s = .next t
  regs : ∀ r, t.th.reg r = w.foldl (fun v e => if r = e.1 ∧ r ≠ 0 then e.2 else v) (s.th.reg r)
  writes : Writes s t f
  thread : s.th.Completes t.th s.th.fxf s.th.seed

/-- Nothing changes but the issuing thread and the issuing core's local store with its error marks, and what waits for a
counter there. -/
def OnlyLs (s t : State) : Prop := Writes s t (fun k => { k with ls := t.me.ls, lsUe := t.me.lsUe })

/-- An instruction completes with v in register d, having stored n bytes at an offset of the own local store. -/
def Updates (i : Instr) (s : State) (d : Reg) (v : Word) (off w n : Nat) : Prop :=
  ∃ t, exec i s = .next t ∧ (∀ r, t.th.reg r = if r = d ∧ r ≠ 0 then v else s.th.reg r) ∧ OnlyLs s t ∧
    WroteLs s t off w n ∧ s.th.Completes t.th s.th.fxf s.th.seed

/-- An instruction completes, writes no register and stores n bytes at an offset of the own local store. -/
def Stores (i : Instr) (s : State) (off w n : Nat) : Prop := Updates i s 0 0 off w n

/-! ## Steps that no instruction word makes -/

/-- A step completes on core c: the core becomes as f says, and nothing else changes but the messages in flight. -/
structure OnCore (i : Instr) (s t : State) (c : Nat) (f : Core → Core) : Prop where
  next : exec i s = .next t
  rest : { t with cores := s.cores, inflight := s.inflight } = s
  others : ∀ x, x ≠ c → t.core x = s.core x
  core : t.core c = f (s.core c)

/-- Of n bytes at an offset, those a mask selects have been written into a memory. -/
def Put (m l : Memory) (off v mask n : Nat) : Prop :=
  ∀ a, mget l a = if off ≤ a ∧ a < off + n ∧ bits mask (a - off) (a - off) = 1 then BitVec.ofNat 8 (v / 256 ^ (a - off)) else mget m a

/-- t is s, but that messages were put in flight, and that threads waiting for a counter that was written received their
replies (R168). -/
structure Tells (s t : State) : Prop where
  rest : { t with cores := s.cores, inflight := s.inflight, watches := s.watches } = s
  core : ∀ c, { t.core c with replies := (s.core c).replies } = s.core c

/-- As `Tells`; no reply is lost, and where no thread waits for a counter nothing of this happens. -/
structure Told (s t : State) : Prop extends Tells s t where
  replies : ∀ c, ∀ r ∈ (s.core c).replies, r ∈ (t.core c).replies
  quiet : s.watches = [] → t.watches = [] ∧ ∀ c, t.core c = s.core c

/-- A step completes: every core becomes as f says and nothing else changes but the messages in flight; but threads waiting
for a counter that was written may receive their replies (R168). -/
structure AtHomes (i : Instr) (s t : State) (f : Nat → Core → Core) : Prop where
  next : exec i s = .next t
  rest : { t with cores := s.cores, inflight := s.inflight, watches := s.watches } = s
  core : ∀ x, { t.core x with replies := (f x (s.core x)).replies } = f x (s.core x)
  replies : ∀ x, ∀ r ∈ (f x (s.core x)).replies, r ∈ (t.core x).replies
  quiet : s.watches = [] → t.watches = [] ∧ ∀ x, t.core x = f x (s.core x)

/-- As above, of a step that changes one core. -/
abbrev AtHome (i : Instr) (s t : State) (c : Nat) (f : Core → Core) : Prop :=
  AtHomes i s t (fun x k => if x = c then f k else k)

/-- A message waits in flight. -/
def State.Sent (t : State) (e : Ev) : Prop := ∃ n, (n, Action.ev e) ∈ t.inflight

/-! ## The canonical form of every memory -/

/-- Every memory of a state is in canonical form: HBM, host memory, every local store, and those of saved
images. -/
structure State.Canonical (s : State) : Prop where
  hbm : s.hbm.wf = true
  host : s.hostMem.wf = true
  ls : ∀ e ∈ s.cores, e.2.ls.wf = true
  images : ∀ f ∈ s.fields, ∀ l ∈ f.2.images, ∀ e ∈ l, e.2.ls.wf = true
  heads : ∀ p ∈ s.parts, ∀ q ∈ p.2.queues, ∀ f, q.2.head = some f → ∀ l ∈ f.images, ∀ e ∈ l, e.2.ls.wf = true

/-! ## Safe runs -/

/-- A state from which one step reaches a next state: no fault, no refusal. -/
def State.Runs (s : State) : Prop := ∃ t, step s = .next t

end Sys2Proof.Machine
end

