-- ==== Sys2Proof/Certificates/Slice0/Obligations.lean ====
section
/-! DEFINITION. The statements for the provers. A statement of several parts is the conjunction of propositions named
Claims.…, each with the rules of spec/ it follows; a form that traps says so in its own part. -/

open Sys2Proof Sys2Proof.Machine

namespace Claims

end Claims

open Claims

/-! ## Integer instructions (04 R109 to R122) -/

/-- R110: what each two-source integer instruction writes, and its word. Nothing else changes, no flag is set and nothing
traps (R109). -/
def Claims.IntegerRegisterResults : Prop :=
  ∀ (s : State) (d a b : Reg),
    let x := (s.readReg a).toNat
    let y := (s.readReg b).toNat
    Gives (.add d a b) s d (wordN (x + y)) ∧ Gives (.addw d a b) s d (wordI (sx (x + y) 32)) ∧
    Gives (.sub d a b) s d (wordI (x - y)) ∧ Gives (.subw d a b) s d (wordI (sx (low (x - y) 64) 32)) ∧
    Gives (.mul d a b) s d (wordN (x * y)) ∧ Gives (.mulw d a b) s d (wordI (sx (x * y) 32)) ∧
    Gives (.mulh d a b) s d (wordI (sx x 64 * sx y 64 / 2 ^ 64)) ∧ Gives (.mulhu d a b) s d (wordN (x * y / 2 ^ 64)) ∧
    Gives (.andr d a b) s d (wordN (x &&& y)) ∧ Gives (.orr d a b) s d (wordN (x ||| y)) ∧
    Gives (.xorr d a b) s d (wordN (x ^^^ y)) ∧ Gives (.andn d a b) s d (wordN (x &&& (2 ^ 64 - 1 - y))) ∧
    Gives (.orn d a b) s d (wordN (x ||| (2 ^ 64 - 1 - y))) ∧
    Gives (.minS d a b) s d (wordI (min (sx x 64) (sx y 64))) ∧ Gives (.maxS d a b) s d (wordI (max (sx x 64) (sx y 64))) ∧
    Gives (.minu d a b) s d (wordN (min x y)) ∧ Gives (.maxu d a b) s d (wordN (max x y)) ∧
    Gives (.slt d a b) s d (if sx x 64 < sx y 64 then 1 else 0) ∧ Gives (.sltu d a b) s d (if x < y then 1 else 0) ∧
    Gives (.seq d a b) s d (if x = y then 1 else 0) ∧ Gives (.sne d a b) s d (if x = y then 0 else 1) ∧
    ∀ p ∈ [(Instr.add d a b, 0x00), (.addw d a b, 0x01), (.sub d a b, 0x02), (.subw d a b, 0x03), (.mul d a b, 0x04),
        (.mulw d a b, 0x05), (.mulh d a b, 0x06), (.mulhu d a b, 0x07), (.andr d a b, 0x0C), (.orr d a b, 0x0D),
        (.xorr d a b, 0x0E), (.andn d a b, 0x0F), (.orn d a b, 0x10), (.minS d a b, 0x18), (.maxS d a b, 0x19),
        (.minu d a b, 0x1A), (.maxu d a b, 0x1B), (.slt d a b, 0x26), (.sltu d a b, 0x27), (.seq d a b, 0x28),
        (.sne d a b, 0x29)],
      encodeNat p.1 = 0x04000000 + d.toNat * 2 ^ 22 + a.toNat * 2 ^ 18 + b.toNat * 2 ^ 14 + p.2 * 2 ^ 6

/-- R111: DIV truncates toward zero, REM takes the sign of the dividend; the corners of zero and of −2^63 by −1. -/
def Claims.DivisionResults : Prop :=
  ∀ (s : State) (d a b : Reg),
    let (x, y) := (sx (s.readReg a).toNat 64, sx (s.readReg b).toNat 64)
    let (u, v) := ((s.readReg a).toNat, (s.readReg b).toNat)
    let q : Int := if y = 0 then -1 else if x = -2 ^ 63 ∧ y = -1 then -2 ^ 63
      else if (x < 0) ↔ (y < 0) then (x.natAbs / y.natAbs : Nat) else -(x.natAbs / y.natAbs : Nat)
    Gives (.div d a b) s d (wordI q) ∧ Gives (.rem d a b) s d (wordI (if y = 0 then x else x - q * y)) ∧
    Gives (.divu d a b) s d (wordN (if v = 0 then 2 ^ 64 - 1 else u / v)) ∧
    Gives (.remu d a b) s d (wordN (if v = 0 then u else u - u / v * v)) ∧
    ∀ p ∈ [(Instr.div d a b, 0x08), (.divu d a b, 0x09), (.rem d a b, 0x0A), (.remu d a b, 0x0B)],
      encodeNat p.1 = 0x04000000 + d.toNat * 2 ^ 22 + a.toNat * 2 ^ 18 + b.toNat * 2 ^ 14 + p.2 * 2 ^ 6

/-- R112: the shifts and the rotation, by the low six or five bits of rb. -/
def Claims.ShiftResults : Prop :=
  ∀ (s : State) (d a b : Reg),
    let x := (s.readReg a).toNat
    let n := (s.readReg b).toNat % 64
    let m := (s.readReg b).toNat % 32
    Gives (.shl d a b) s d (wordN (x * 2 ^ n)) ∧ Gives (.shr d a b) s d (wordN (x / 2 ^ n)) ∧
    Gives (.sar d a b) s d (wordI (sx x 64 / 2 ^ n)) ∧ Gives (.rol d a b) s d (wordN (x * 2 ^ n + x / 2 ^ (64 - n))) ∧
    Gives (.shlw d a b) s d (wordI (sx (x * 2 ^ m) 32)) ∧ Gives (.shrw d a b) s d (wordI (sx (x % 2 ^ 32 / 2 ^ m) 32)) ∧
    Gives (.sarw d a b) s d (wordI (sx x 32 / 2 ^ m)) ∧
    ∀ p ∈ [(Instr.shl d a b, 0x11), (.shr d a b, 0x12), (.sar d a b, 0x13), (.rol d a b, 0x14), (.shlw d a b, 0x15),
        (.shrw d a b, 0x16), (.sarw d a b, 0x17)],
      encodeNat p.1 = 0x04000000 + d.toNat * 2 ^ 22 + a.toNat * 2 ^ 18 + b.toNat * 2 ^ 14 + p.2 * 2 ^ 6

/-- R110, R111, R112: the two-source, division and shift instructions: what each writes, its word, and that nothing else
changes. -/
def Obligations.IntegerResults : Prop := IntegerRegisterResults ∧ DivisionResults ∧ ShiftResults

/-- R113 to R116: one-source instructions, extension, bit fields and scaled addresses, and their words. -/
def Claims.BitFieldResults : Prop :=
  ∀ (s : State) (d a b : Reg) (w : BitVec 6) (sh : BitVec 2),
    let x := (s.readReg a).toNat
    let y := (s.readReg b).toNat
    Gives (.abs d a) s d (wordN (sx x 64).natAbs) ∧
    (∃ n, Gives (.clz d a) s d (wordN n) ∧ n ≤ 64 ∧ x < 2 ^ (64 - n) ∧ (n < 64 → 2 ^ (63 - n) ≤ x)) ∧
    (∃ n, Gives (.ctz d a) s d (wordN n) ∧ n ≤ 64 ∧ x % 2 ^ n = 0 ∧ (n < 64 → x / 2 ^ n % 2 = 1)) ∧
    Gives (.popc d a) s d (wordN ((List.range 64).filter (fun i => (s.readReg a).getLsbD i)).length) ∧
    (∃ v, Gives (.brev d a) s d v ∧ ∀ i < 64, v.getLsbD i = (s.readReg a).getLsbD (63 - i)) ∧
    (∃ v, Gives (.bswap d a) s d v ∧ ∀ i < 8, byteOf v.toNat i = byteOf x (7 - i)) ∧
    Gives (.sext d a w) s d (wordI (sx x (w.toNat + 1))) ∧ Gives (.zext d a w) s d (wordN (x % 2 ^ (w.toNat + 1))) ∧
    Gives (.extr d a b) s d (wordN (x / 2 ^ (y % 64) % 2 ^ (y / 64 % 64 + 1))) ∧
    (∃ v, Gives (.insr d a b) s d v ∧ ∀ i < 64, v.getLsbD i =
      if y % 64 ≤ i ∧ i < y % 64 + (y / 64 % 64 + 1) then (s.readReg a).getLsbD (i - y % 64) else (s.readReg d).getLsbD i) ∧
    Gives (.lea d a b sh) s d (wordN (x + y * 2 ^ sh.toNat)) ∧
    (let word := fun (b op aux : Nat) => 0x04000000 + d.toNat * 2 ^ 22 + a.toNat * 2 ^ 18 + b * 2 ^ 14 + op * 2 ^ 6 + aux
     (∀ p ∈ [(Instr.abs d a, 0x1C), (.clz d a, 0x1D), (.ctz d a, 0x1E), (.popc d a, 0x1F), (.brev d a, 0x20), (.bswap d a, 0x21)],
       encodeNat p.1 = word 0 p.2 0) ∧
     encodeNat (.sext d a w) = word 0 0x22 w.toNat ∧ encodeNat (.zext d a w) = word 0 0x23 w.toNat ∧
     encodeNat (.extr d a b) = word b.toNat 0x24 0 ∧ encodeNat (.insr d a b) = word b.toNat 0x25 0 ∧
     encodeNat (.lea d a b sh) = word b.toNat 0x2A sh.toNat)

/-- R117, R118: the immediate forms, with the operand v that no, one or two pending HINTs give, and their words; LEAI counts
from its own word (R76). -/
def Claims.ImmediateResults : Prop :=
  ∀ (s : State) (d a : Reg) (i : BitVec 18) (n : BitVec 6) (vs vu : Word),
    (match s.th.hints with
      | [] => vs = i.signExtend 64 ∧ vu = i.setWidth 64
      | [p] => vs = (p ++ i).signExtend 64 ∧ vu = (p ++ i).setWidth 64
      | p :: q :: _ => vs = wordN (p.toNat * 2 ^ 44 + q.toNat * 2 ^ 18 + i.toNat) ∧ vu = vs) →
    let x := s.readReg a
    Gives (.addi d a i) s d (x + vs) ∧ Gives (.addwi d a i) s d (wordI (sx (x + vs).toNat 32)) ∧
    Gives (.andi d a i) s d (x &&& vu) ∧ Gives (.ori d a i) s d (x ||| vu) ∧ Gives (.xori d a i) s d (x ^^^ vu) ∧
    Gives (.shli d a n) s d (wordN (x.toNat * 2 ^ n.toNat)) ∧ Gives (.shri d a n) s d (wordN (x.toNat / 2 ^ n.toNat)) ∧
    Gives (.sari d a n) s d (wordI (sx x.toNat 64 / 2 ^ n.toNat)) ∧
    Gives (.slti d a i) s d (if sx x.toNat 64 < sx vs.toNat 64 then 1 else 0) ∧
    Gives (.sltui d a i) s d (if x.toNat < vs.toNat then 1 else 0) ∧ Gives (.li d i) s d vs ∧
    Gives (.lih d a i) s d (wordN (i.toNat * 2 ^ 46 + x.toNat % 2 ^ 46)) ∧
    Gives (.leai d i) s d (wordN (0x2000000000000000 + s.pc.toNat) + vs) ∧
    (let word := fun (major a v : Nat) => major * 2 ^ 26 + d.toNat * 2 ^ 22 + a * 2 ^ 18 + v
     (∀ p ∈ [(Instr.addi d a i, 0x02), (.addwi d a i, 0x03), (.andi d a i, 0x04), (.ori d a i, 0x05), (.xori d a i, 0x06),
         (.slti d a i, 0x0A), (.sltui d a i, 0x0B), (.lih d a i, 0x0D)], encodeNat p.1 = word p.2 a.toNat i.toNat) ∧
     (∀ p ∈ [(Instr.shli d a n, 0x07), (.shri d a n, 0x08), (.sari d a n, 0x09)], encodeNat p.1 = word p.2 a.toNat n.toNat) ∧
     encodeNat (.li d i) = word 0x0C 0 i.toNat ∧ encodeNat (.leai d i) = word 0x0E 0 i.toNat)

/-- R113 to R118: one-source, bit-field, address and immediate instructions. -/
def Obligations.FieldsAndImmediates : Prop := BitFieldResults ∧ ImmediateResults

/-- A compare-skip of condition p completes with the annul count its condition sets (R122), flags fl. -/
def Claims.Skips (i : Instr) (s : State) (p : Prop) (n : BitVec 2) (fl : BitVec 5) : Prop :=
  ∃ t, exec i s = .next t ∧ (∀ r, t.th.reg r = s.th.reg r) ∧ OnlyThread s t ∧ (p → t.th.annul = n.toNat) ∧
    (¬p → t.th.annul = s.th.annul) ∧ s.th.Completes { t.th with annul := s.th.annul } fl s.th.seed

/-- R119, R120, R122: the integer compare-skips and their words; the condition decides the annul count and nothing but it
changes. -/
def Claims.IntegerSkips : Prop :=
  ∀ (s : State) (a b : Reg) (i : BitVec 15) (k : BitVec 6) (n : BitVec 2),
    let x := s.readReg a
    let y := s.readReg b
    let v : Word := i.signExtend 64
    let fl := s.th.fxf
    Skips (.skeqReg a b n) s (x = y) n fl ∧ Skips (.skeqImm a i n) s (x = v) n fl ∧
    Skips (.skneReg a b n) s (x ≠ y) n fl ∧ Skips (.skneImm a i n) s (x ≠ v) n fl ∧
    Skips (.skltReg a b n) s (x.toInt < y.toInt) n fl ∧ Skips (.skltImm a i n) s (x.toInt < i.toInt) n fl ∧
    Skips (.skgeReg a b n) s (y.toInt ≤ x.toInt) n fl ∧ Skips (.skgeImm a i n) s (i.toInt ≤ x.toInt) n fl ∧
    Skips (.skltuReg a b n) s (x.toNat < y.toNat) n fl ∧ Skips (.skltuImm a i n) s (x.toNat < v.toNat) n fl ∧
    Skips (.skgeuReg a b n) s (y.toNat ≤ x.toNat) n fl ∧ Skips (.skgeuImm a i n) s (v.toNat ≤ x.toNat) n fl ∧
    Skips (.skbsReg a b n) s (x.getLsbD (y.toNat % 64) = true) n fl ∧ Skips (.skbsImm a k n) s (x.getLsbD k.toNat = true) n fl ∧
    Skips (.skbcReg a b n) s (x.getLsbD (y.toNat % 64) = false) n fl ∧ Skips (.skbcImm a k n) s (x.getLsbD k.toNat = false) n fl ∧
    (let word := fun (c v : Nat) => 0x3C000000 + c * 2 ^ 22 + a.toNat * 2 ^ 18 + v + n.toNat
     (∀ p ∈ [(Instr.skeqReg a b n, 0), (.skneReg a b n, 1), (.skltReg a b n, 2), (.skgeReg a b n, 3), (.skltuReg a b n, 4),
         (.skgeuReg a b n, 5), (.skbsReg a b n, 6), (.skbcReg a b n, 7)], encodeNat p.1 = word p.2 (b.toNat * 2 ^ 13)) ∧
     (∀ p ∈ [(Instr.skeqImm a i n, 0), (.skneImm a i n, 1), (.skltImm a i n, 2), (.skgeImm a i n, 3), (.skltuImm a i n, 4),
         (.skgeuImm a i n, 5)], encodeNat p.1 = word p.2 (2 ^ 17 + i.toNat * 4)) ∧
     encodeNat (.skbsImm a k n) = word 6 (2 ^ 17 + k.toNat * 4) ∧ encodeNat (.skbcImm a k n) = word 7 (2 ^ 17 + k.toNat * 4))

/-! ## Floating point (04 R123 to R130, R121) -/

/-- R56, R57: of an exact value x between lo and hi, neighbours in the format, the mode takes the upper: the nearer one, of two
as near the even one (0); never (1); unless negative (2); if negative (3); the nearer one, of two as near the upper (4); when u
lies below the fraction x has of the way, in 65,536ths (5). odd says that lo is odd, x0 is x to the precision it is known with. -/
def Claims.PicksUpper (mode u : Nat) (neg : Bool) (odd : Prop) (x x0 lo hi : Int) : Prop :=
  match mode with
  | 0 => hi - x < x - lo ∨ (hi - x = x - lo ∧ odd)
  | 1 => False
  | 2 => neg = false
  | 3 => neg = true
  | 4 => hi - x ≤ x - lo
  | _ => (u : Int) < (x0 - lo) * 65536 / (hi - lo)

/-- R48, R51, R52, R56 to R58: rounding into a format, in every mode, of a magnitude mant × 2^exp, more by less than a unit of mant
where st says so. Magnitudes are compared in half units of 2^q. A value of the format is taken as it is; another becomes the
neighbour its mode picks, with NX, and UF where it lies below the least normal value. What lies past the largest
finite value as far as the next place, or is rounded to it, overflows: infinity, or the largest finite value in E4M3 and in
the modes that do not round away. -/
def Claims.RoundToFormat : Prop :=
  ∀ (c mode u mant : Nat) (exp : Int) (neg st : Bool) (f : Fmt), fmtOf c = some f → mode ≤ 5 →
    let q := min exp (1 - f.bias - f.f)
    let mag := fun (z : Nat) => match f.val z with | .fin _ m e => (2 * m * 2 ^ (e - q).toNat : Int) | _ => 0
    let sign := if neg then 2 ^ (f.e + f.f) else 0
    let x0 : Int := 2 * mant * 2 ^ (exp - q).toNat
    let x := if st then x0 + 1 else x0
    let uf : Flags5 := if x < mag (2 ^ f.f) then fUF else 0
    let top := mag f.maxFin + (mag f.maxFin - mag (f.maxFin - 1))
    let finite := f.e4m3 = true ∨ mode = 1 ∨ (mode = 2 ∧ neg = true) ∨ (mode = 3 ∧ neg = false)
    let past := fun (r : Nat × Flags5) => r.2 = fOF ||| fNX ∧ (finite → r.1 = sign + f.maxFin) ∧
      (¬finite → r.1 = sign + (2 ^ f.e - 1) * 2 ^ f.f)
    let r := f.round mode u neg mant exp st
    (mant = 0 → st = false → r = (sign, 0)) ∧ (top ≤ x → past r) ∧
    ∀ lo ≤ f.maxFin, let hi := if lo = f.maxFin then top else mag (lo + 1)
      mag lo ≤ x → x < hi → (st = false ∨ 4 * 2 ^ (exp - q).toNat ≤ hi - mag lo) →
      (x = mag lo → r = (sign + lo, 0)) ∧
      (mag lo < x →
        (¬PicksUpper mode u neg (lo % 2 = 1) x x0 (mag lo) hi → r = (sign + lo, fNX ||| uf)) ∧
        (PicksUpper mode u neg (lo % 2 = 1) x x0 (mag lo) hi →
          (lo < f.maxFin → r = (sign + lo + 1, fNX ||| uf)) ∧ (lo = f.maxFin → past r)))

/-- R61, R62: a finite value rounded to a signed integer of n bits: the neighbour its mode picks, with NX when inexact; one
that does not fit becomes the nearest integer that does, with NV; a NaN 0, and an infinity the bound on its side, with NV. -/
def Claims.RoundToInteger : Prop :=
  ∀ (n mode u m : Nat) (neg : Bool) (e : Int), 0 < n → mode ≤ 5 →
    let unit := 2 ^ (-e).toNat
    let x := m * 2 ^ e.toNat
    let k := x / unit
    let (least, most) := (-(2 ^ (n - 1) : Int), (2 ^ (n - 1) : Int) - 1)
    let up := PicksUpper mode u neg (k % 2 = 1) x x (k * unit : Nat) ((k + 1) * unit : Nat)
    (∃ r : Nat, (x = k * unit → r = k) ∧ (x ≠ k * unit → (up → r = k + 1) ∧ (¬up → r = k)) ∧
      let t : Int := if neg then -(r : Int) else r
      toInt n mode u (.fin neg m e) = if t < least then (least, fNV) else if most < t then (most, fNV)
        else (t, if x = k * unit then 0 else fNX)) ∧
    (∀ b, toInt n mode u (.nan b) = (0, fNV)) ∧ toInt n mode u (.inf true) = (least, fNV) ∧ toInt n mode u (.inf false) = (most, fNV)

/-- R60, R108: an instruction rounds its one result in the effective mode; in mode SR it draws one step of the seed. -/
def Claims.Rounds (i : Instr) (s : State) (d : Reg) (op : (mode u : Nat) → Nat × Flags5) : Prop :=
  let r := if s.th.mode = 5 then op 5 (seedU (seedNext s.th.seed)) else op s.th.mode 0
  GivesF i s d (wordN r.1) (s.th.fxf ||| r.2) (if s.th.mode = 5 then seedNext s.th.seed else s.th.seed)

/-- R123 to R130: what each floating-point instruction writes, the flags it ORs into fxf and the step of the seed it
takes; nothing else changes. An operand is the FP32 value in bits 31 to 0 (R123). -/
def Claims.FloatInstructions : Prop :=
  ∀ (s : State) (d a b c : Reg) (g : BitVec 6) (f : BitVec 5),
    let (x, y, z) := (f32 (s.readReg a), f32 (s.readReg b), f32 (s.readReg c))
    let (p, q) := ((s.readReg a).toNat % 2 ^ 32, (s.readReg b).toNat % 2 ^ 32)
    Rounds (.fadd d a b) s d (fun m u => fp32.add m u x y) ∧ Rounds (.fsub d a b) s d (fun m u => fp32.add m u x y.negate) ∧
    Rounds (.fmul d a b) s d (fun m u => fp32.mul m u x y) ∧ Rounds (.fma d a b c) s d (fun m u => fp32.fma m u x y z) ∧
    Rounds (.fms d a b c) s d (fun m u => fp32.fma m u x y z.negate) ∧
    Rounds (.fnma d a b c) s d (fun m u => fp32.fma m u x.negate y z) ∧
    Rounds (.fdiv d a b) s d (fun m u => fp32.div m u x y) ∧ Rounds (.fsqrt d a) s d (fun m u => fp32.sqrt m u x) ∧
    GivesF (.fmin d a b) s d (wordN (fp32.minMax false p q).1) (s.th.fxf ||| (fp32.minMax false p q).2) s.th.seed ∧
    GivesF (.fmax d a b) s d (wordN (fp32.minMax true p q).1) (s.th.fxf ||| (fp32.minMax true p q).2) s.th.seed ∧
    GivesF (.fabs d a) s d (if x.isNan then 0x7FC00000 else wordN (p % 2 ^ 31)) (s.th.fxf ||| nvIf x.isSnan) s.th.seed ∧
    GivesF (.fneg d a) s d (if x.isNan then 0x7FC00000 else wordN ((p + 2 ^ 31) % 2 ^ 32)) (s.th.fxf ||| nvIf x.isSnan)
      s.th.seed ∧
    GivesF (.fsgn d a b) s d (if x.isNan then 0x7FC00000 else wordN (p % 2 ^ 31 + q / 2 ^ 31 * 2 ^ 31))
      (s.th.fxf ||| nvIf (x.isSnan || y.isSnan)) s.th.seed ∧
    (∃ k < 10, Gives (.fclass d a) s d (wordN (2 ^ k)) ∧ (k = 8 ↔ x.isSnan = true) ∧ (k = 9 ↔ x.isNan = true ∧ x.isSnan = false) ∧
      (k < 4 ↔ x.isNan = false ∧ x.neg = true) ∧ ((k = 3 ∨ k = 4) ↔ x.isZero = true) ∧
      ((k = 0 ∨ k = 7) ↔ ∃ n, x = .inf n) ∧ ((k = 2 ∨ k = 5) ↔ p % 2 ^ 31 ≠ 0 ∧ p % 2 ^ 31 < 2 ^ 23)) ∧
    Rounds (.fcvtfi d a g) s d (fun m u => let r := toInt (widthOf g.toNat) m u x; (low r.1 64, r.2)) ∧
    Rounds (.fcvtif d a g) s d (fun m u => fp32.conv m u (valInt (sx (s.readReg a).toNat (widthOf g.toNat)))) ∧
    ∀ m, fmtOf f.toNat = some m →
      Rounds (.fcvth d a 0 f) s d (fun md u => m.conv md u x) ∧
      (let r := fp32.conv 0 0 (m.val ((s.readReg a).toNat % 2 ^ m.width))
       GivesF (.fcvth d a 1 f) s d (wordN r.1) (s.th.fxf ||| r.2) s.th.seed)

/-- R48, R51, R52, R56 to R62, R123 to R130: rounding, and the floating-point instructions. -/
def Obligations.FloatResults : Prop := RoundToFormat ∧ RoundToInteger ∧ FloatInstructions

/-- R121, R122: the floating compare-skips; NV is set whether or not the condition holds, and +0 equals −0. -/
def Claims.FloatSkips : Prop :=
  ∀ (s : State) (a b : Reg) (n : BitVec 2),
    let (x, y) := (f32 (s.readReg a), f32 (s.readReg b))
    let ordered := x.isNan = false ∧ y.isNan = false
    let quiet := s.th.fxf ||| nvIf (x.isSnan || y.isSnan)
    let loud := s.th.fxf ||| nvIf (x.isNan || y.isNan)
    Skips (.skfeq a b n) s (ordered ∧ x.lt y = false ∧ y.lt x = false) n quiet ∧
    Skips (.skflt a b n) s (ordered ∧ x.lt y = true) n loud ∧
    Skips (.skfle a b n) s (ordered ∧ y.lt x = false) n loud ∧
    Skips (.skfun a b n) s (¬ordered) n quiet ∧
    ∀ p ∈ [(Instr.skfeq a b n, 8), (.skflt a b n, 9), (.skfle a b n, 10), (.skfun a b n, 11)],
      encodeNat p.1 = 0x3C000000 + p.2 * 2 ^ 22 + a.toNat * 2 ^ 18 + b.toNat * 2 ^ 13 + n.toNat

/-- R119 to R122: the compare-skips. -/
def Obligations.CompareSkips : Prop := IntegerSkips ∧ FloatSkips

/-! ## Control (04 R131 to R141, 01 R24 to R35) -/

/-- The issuing thread is ready at an address with its registers, windows, loops and everything else as a thread h has
them, and no prefix pending; nothing outside the thread changes. -/
def Claims.Arrives (i : Instr) (s : State) (h : Thread) (p : BitVec 48) : Prop :=
  ∃ t, exec i s = .next t ∧ OnlyThread s t ∧
    t.th = { h.clearPfx with pc := p, st := .ready, wait := .none, opnd := none, limit := none, repCause := 0, repCount := 0 }

/-- An instruction completes, writes no register and changes nothing but its thread's place. -/
def Claims.Falls (i : Instr) (s : State) : Prop :=
  ∃ t, exec i s = .next t ∧ (∀ r, t.th.reg r = s.th.reg r) ∧ Completed s t s.th.fxf s.th.seed

/-- A generic address that is a code address: a multiple of 4 in window 0x2 (R132). -/
def Claims.IsCode (a : Word) : Prop := a.toNat % 4 = 0 ∧ a.toNat / 2 ^ 48 = 0x2000

/-- R133, R134: a branch taken goes to its target and changes nothing else, no loop register either (R29); a branch not
taken completes like any other instruction; BRR refuses an address that is no code address with ALIGN or WINDOW. -/
def Obligations.BranchTargets : Prop :=
  ∀ (s : State) (a : Reg) (o : BitVec 26) (p : BitVec 18),
    Arrives (.br o) s s.th (s.pc + BitVec.ofInt 48 (4 * o.toInt)) ∧
    (s.readReg a = 0 → Arrives (.bz a p) s s.th (s.pc + BitVec.ofInt 48 (4 * p.toInt)) ∧ Falls (.bnz a p) s) ∧
    (s.readReg a ≠ 0 → Arrives (.bnz a p) s s.th (s.pc + BitVec.ofInt 48 (4 * p.toInt)) ∧ Falls (.bz a p) s) ∧
    (IsCode (s.readReg a) → Arrives (.brr a) s s.th ((s.readReg a).setWidth 48)) ∧
    ((s.readReg a).toNat % 4 ≠ 0 → exec (.brr a) s = .next (s.trap .align (s.readReg a))) ∧
    ((s.readReg a).toNat % 4 = 0 → (s.readReg a).toNat / 2 ^ 48 ≠ 0x2000 → exec (.brr a) s = .next (s.trap .window (s.readReg a))) ∧
    encodeNat (.br o) = 0x44000000 + o.toNat ∧ encodeNat (.bz a p) = 0x4C000000 + a.toNat * 2 ^ 18 + p.toNat ∧
    encodeNat (.bnz a p) = 0x4C400000 + a.toNat * 2 ^ 18 + p.toNat ∧ encodeNat (.brr a) = 0x54000000 + a.toNat * 2 ^ 18

/-- R135: a call with room opens a fresh zeroed window over the caller's, links in g7 and goes to its target. -/
def Claims.CallOpensWindow : Prop :=
  ∀ (s : State) (a : Reg) (o : BitVec 26), s.th.wdp ≠ 0xFFFF → s.th.olds.length < 2 →
    let link := wordN (0x2000000000000000 + (s.pc.toNat + 4) % 2 ^ 48)
    let h := s.th.setReg 7 link
    let h' := { h with wdp := s.th.wdp + 1, olds := s.th.win :: s.th.olds, win := Vector.replicate 8 0 }
    Arrives (.call o) s h' (s.pc + BitVec.ofInt 48 (4 * o.toInt)) ∧
    (IsCode (s.readReg a) → Arrives (.callr a) s h' ((s.readReg a).setWidth 48))

/-- R24, R136: RET makes the caller's window current again as it was at the call, whatever register gives the address. -/
def Claims.ReturnRestoresWindow : Prop :=
  ∀ (s : State) (a : Reg) (w : Vector Word 8) (r : List (Vector Word 8)),
    IsCode (s.readReg a) → s.th.wdp ≠ 0 → s.th.olds = w :: r →
    Arrives (.ret a) s { s.th with wdp := s.th.wdp - 1, win := w, olds := r } ((s.readReg a).setWidth 48)

/-- R25, R27, 09 R266: a call at depth 65,535, a return at depth 0, and either where no transfer of a window is possible raise
WSTACK with the depth unchanged; no window is read from a frame at 0x6000 or above (log 80). Where a transfer is possible the
instruction waits for it. CALLR and RET refuse an address that is no code address, before all that (R132). -/
def Claims.WindowStackTraps : Prop :=
  ∀ (s : State) (a : Reg) (o : BitVec 26),
    (s.th.wdp = 0xFFFF → exec (.call o) s = .next (s.trap .wstack)) ∧
    (2 ≤ s.th.olds.length → (s.th.wsl.toNat < s.th.wsp.toNat + 64 ∨ 0x6000 < s.th.wsp.toNat + 64) →
      exec (.call o) s = .next (s.trap .wstack)) ∧
    (IsCode (s.readReg a) → s.th.wdp = 0xFFFF → exec (.callr a) s = .next (s.trap .wstack)) ∧
    (IsCode (s.readReg a) → 2 ≤ s.th.olds.length → (s.th.wsl.toNat < s.th.wsp.toNat + 64 ∨ 0x6000 < s.th.wsp.toNat + 64) →
      exec (.callr a) s = .next (s.trap .wstack)) ∧
    (∀ i ∈ [Instr.callr a, .ret a],
      ((s.readReg a).toNat % 4 ≠ 0 → exec i s = .next (s.trap .align (s.readReg a))) ∧
      ((s.readReg a).toNat % 4 = 0 → (s.readReg a).toNat / 2 ^ 48 ≠ 0x2000 → exec i s = .next (s.trap .window (s.readReg a)))) ∧
    (IsCode (s.readReg a) → s.th.wdp = 0 → exec (.ret a) s = .next (s.trap .wstack)) ∧
    (IsCode (s.readReg a) → s.th.olds = [] → (s.th.wsp.toNat < 64 ∨ 0x6000 < s.th.wsp.toNat) →
      exec (.ret a) s = .next (s.trap .wstack)) ∧
    (s.th.wdp ≠ 0xFFFF → 2 ≤ s.th.olds.length → s.th.wsp.toNat + 64 ≤ min s.th.wsl.toNat 0x6000 → ∃ t,
      Leaves (.call o) s t id (fun h => h.await (.retry (.call o)))) ∧
    (IsCode (s.readReg a) → s.th.wdp ≠ 0xFFFF → 2 ≤ s.th.olds.length → s.th.wsp.toNat + 64 ≤ min s.th.wsl.toNat 0x6000 → ∃ t,
      Leaves (.callr a) s t id (fun h => h.await (.retry (.callr a)))) ∧
    (IsCode (s.readReg a) → s.th.wdp ≠ 0 → s.th.olds = [] → 64 ≤ s.th.wsp.toNat → s.th.wsp.toNat ≤ 0x6000 → ∃ t,
      Leaves (.ret a) s t id (fun h => h.await (.retry (.ret a)))) ∧
    (s.trap .wstack).th.wdp = s.th.wdp

/-- R24 to R27, R135, R136: calls, returns and the window stack. -/
def Obligations.CallsAndReturns : Prop := CallOpensWindow ∧ ReturnRestoresWindow ∧ WindowStackTraps

/-- R29: the loop step, set 0 before set 1; set 1 is tested only if set 0 did not go back. The address in a loop register is
its bits 47 to 0 (log 30). -/
def Claims.LoopStep : Prop :=
  ∀ (h : Thread) (p : BitVec 48),
    let r := h.loopStep p
    let (e0, e1) := (h.le0.setWidth 48, h.le1.setWidth 48)
    (h.lc0 ≠ 0 → e0 = p → r.1.lc0 = h.lc0 - 1) ∧ (h.lc0 = 0 ∨ e0 ≠ p → r.1.lc0 = h.lc0) ∧
    (1 < h.lc0.toNat → e0 = p → r.2 = h.ls0.setWidth 48 ∧ r.1.lc1 = h.lc1) ∧
    (h.lc0.toNat ≤ 1 ∨ e0 ≠ p →
      (h.lc1 ≠ 0 → e1 = p → r.1.lc1 = h.lc1 - 1) ∧ (h.lc1 = 0 ∨ e1 ≠ p → r.1.lc1 = h.lc1) ∧
      (1 < h.lc1.toNat → e1 = p → r.2 = h.ls1.setWidth 48) ∧ (h.lc1.toNat ≤ 1 ∨ e1 ≠ p → r.2 = p + 4)) ∧
    { r.1 with lc0 := h.lc0, lc1 := h.lc1 } = h

/-- R132, R137 to R139: LOOP and LOOPR load the set named with the clamped count and the body's bounds; a count of zero goes
past the body, another enters it. LOOPR refuses an address that is no code address with ALIGN or WINDOW, and one before its next
word with ILLEGAL. -/
def Claims.LoopEntry : Prop :=
  ∀ (s : State) (a b : Reg) (o : BitVec 17) (n : BitVec 32),
    (n.toNat : Int) = max 0 (min (s.readReg a).toInt 0xFFFFFFFF) →
    let start : Word := (s.pc + 4).setWidth 64
    let set0 := fun (le : BitVec 48) => { s.th with ls0 := start, le0 := le.setWidth 64, lc0 := n }
    let set1 := fun (le : BitVec 48) => { s.th with ls1 := start, le1 := le.setWidth 64, lc1 := n }
    let enters := fun (i : Instr) (h : Thread) => ∃ t, exec i s = .next t ∧ OnlyThread s t ∧ t.th = h.retire
    let last := s.pc + BitVec.ofNat 48 (4 * o.toNat)
    let named := (s.readReg b).setWidth 48
    (o ≠ 0 → n ≠ 0 → enters (.loopSet 0 a o) (set0 last) ∧ enters (.loopSet 1 a o) (set1 last)) ∧
    (o ≠ 0 → n = 0 → Arrives (.loopSet 0 a o) s (set0 last) (last + 4) ∧ Arrives (.loopSet 1 a o) s (set1 last) (last + 4)) ∧
    (IsCode (s.readReg b) → (s.pc + 4).toNat ≤ named.toNat →
      (n ≠ 0 → enters (.loopr 0 a b) (set0 named) ∧ enters (.loopr 1 a b) (set1 named)) ∧
      (n = 0 → Arrives (.loopr 0 a b) s (set0 named) (named + 4) ∧ Arrives (.loopr 1 a b) s (set1 named) (named + 4))) ∧
    (IsCode (s.readReg b) → named.toNat < (s.pc + 4).toNat →
      exec (.loopr 0 a b) s = .next (s.trap .illegal) ∧ exec (.loopr 1 a b) s = .next (s.trap .illegal)) ∧
    (∀ i ∈ [Instr.loopr 0 a b, .loopr 1 a b],
      ((s.readReg b).toNat % 4 ≠ 0 → exec i s = .next (s.trap .align (s.readReg b))) ∧
      ((s.readReg b).toNat % 4 = 0 → (s.readReg b).toNat / 2 ^ 48 ≠ 0x2000 → exec i s = .next (s.trap .window (s.readReg b))))

/-- R141: NOP changes nothing but consuming pending prefixes; its word is 0x5400_0100. -/
def Obligations.NopConsumesPrefixes : Prop :=
  (∀ s : State, Falls .nop s) ∧ encode .nop = 0x54000100

/-- R31, R32, R34: a prefix stays pending, the first one's address is kept, and it changes nothing else; that the count of repeats
goes on over it is the model's choice (log 66); a third HINT is ILLEGAL; a later modifier of a kind replaces the earlier. -/
def Claims.PrefixesPend : Prop :=
  ∀ (s : State) (p : BitVec 26) (m x : BitVec 3) (f : BitVec 5),
    let pend := fun (i : Instr) (g : Thread → Thread) => ∃ t, exec i s = .next t ∧ OnlyThread s t ∧
      (let u := g { s.th with pfxAt := some (s.th.pfxAt.getD s.pc) }
       t.th = { (u.loopStep s.pc).1 with pc := (u.loopStep s.pc).2 })
    (s.th.hints.length < 2 → pend (.hint p) (fun h => { h with hints := h.hints ++ [p] })) ∧
    (2 ≤ s.th.hints.length → exec (.hint p) s = .next (s.trap .illegal)) ∧
    pend (.hmodRound m) (fun h => { h with mRound := some m, srLast := false }) ∧
    pend .hmodSr (fun h => { h with mSr := true, srLast := true }) ∧
    pend (.hmodScope x) (fun h => { h with mScope := some x }) ∧ pend (.hmodLanes f) (fun h => { h with mLanes := some f })

/-- R29, R31, R32, R34, R137 to R139: loops and prefixes. -/
def Obligations.LoopsAndPrefixes : Prop := LoopStep ∧ LoopEntry ∧ PrefixesPend

/-- Everything of a thread but its place, its general registers and its seed is at its reset value: window stack, loops, flags,
modes and events, pending prefixes and annulment, and nothing of a wait, a limit or a trap is left. -/
def Claims.Blank (h : Thread) : Prop :=
  h.win = Vector.replicate 8 0 ∧ h.olds = [] ∧ h.wdp = 0 ∧ h.wsp = 0 ∧ h.wsl = 0 ∧
  h.ls0 = 0 ∧ h.le0 = 0 ∧ h.lc0 = 0 ∧ h.ls1 = 0 ∧ h.le1 = 0 ∧ h.lc1 = 0 ∧
  h.efr = 0 ∧ h.rnd = 0 ∧ h.fxf = 0 ∧ h.rowp = 0 ∧ h.evm = 0 ∧ h.evp = 0 ∧
  h.hints = [] ∧ h.clearPfx = h ∧ h.annul = 0 ∧
  h.wait = .none ∧ h.opnd = none ∧ h.limit = none ∧ h.recs = 0 ∧ h.repCount = 0

/-- R140: EXIT of a thread other than the ganger empties its slot, of which nothing is left, and leaves an exit record with the
value of g1; the ganger's waits for the other slots, and where they are empty and no record is left it ends at once (R22, R286). -/
def Claims.ExitLeavesRecord : Prop :=
  ∀ s : State,
    (s.cur.2 ≠ 0 → ∃ t, exec .exitThread s = .next t ∧ t.th.st = .empty ∧ Blank t.th ∧ t.th.g = Vector.replicate 8 0 ∧
      tfind t.me.exits s.cur.2 = some (s.readReg 1) ∧ (∀ j, j ≠ s.cur.2 → tfind t.me.exits j = tfind s.me.exits j) ∧
      (∀ j, j ≠ s.cur.2 → t.me.thr j = s.me.thr j) ∧ OnlyCore s { t with inflight := s.inflight } ∧
      { t.me with threads := s.me.threads, exits := s.me.exits } = s.me) ∧
    (s.cur.2 = 0 → s.me.othersEmpty = false → ∃ t, exec .exitThread s = .next t ∧ t.th.st = .waiting ∧ t.th.wait = .exit ∧
      OnlyThread s t) ∧
    (s.cur.2 = 0 → s.me.othersEmpty = true →
      (s.me.exits ≠ [] → ∃ t, Leaves .exitThread s t id (fun h => h.await .exit) ∧ t.Sent (.gangerExitComplete s.cur.1)) ∧
      (s.me.exits = [] → ∃ t, exec .exitThread s = .next t ∧ t.th.st = .empty ∧ Blank t.th ∧ t.th.g = Vector.replicate 8 0 ∧
        (∀ j, j ≠ 0 → t.me.thr j = s.me.thr j) ∧ OnlyCore s { t with inflight := s.inflight } ∧
        { t.me with threads := s.me.threads, pbuf := s.me.pbuf, phase := s.me.phase } = s.me ∧
        ∀ e ∈ t.me.pbuf, e.mask ≠ 0 → e.d = true))

/-! ## Memory (05 R143 to R168) -/

/-- R148, R149: each load from the own local store writes the extended bytes and changes nothing else. -/
def Claims.OwnLoads : Prop :=
  ∀ (s : State) (d a b : Reg) (i : BitVec 18) (x u : BitVec 1) (w : BitVec 2),
    let p := s.readReg a + s.immS i
    let n := 2 ^ w.toNat
    let q := s.readReg a + s.readReg b * (if x = 1 then wordN n else 1)
    let v := s.lsValue p.toNat
    (s.OwnRead p 1 → Gives (.ldb d a i) s d (wordI (sx (v 1) 8)) ∧ Gives (.ldbu d a i) s d (wordN (v 1))) ∧
    (s.OwnRead p 2 → Gives (.ldh d a i) s d (wordI (sx (v 2) 16)) ∧ Gives (.ldhu d a i) s d (wordN (v 2))) ∧
    (s.OwnRead p 4 → Gives (.ldw d a i) s d (wordI (sx (v 4) 32)) ∧ Gives (.ldwu d a i) s d (wordN (v 4))) ∧
    (s.OwnRead p 8 → Gives (.ldd d a i) s d (wordN (v 8))) ∧
    (s.OwnRead q n → Gives (.ldx d a b x u w) s d
      (if u = 1 then wordN (s.lsValue q.toNat n) else wordI (sx (s.lsValue q.toNat n) (8 * n))))

/-- R148, R149: each store to the own local store puts the low bytes of its source there, little-endian, and leaves every
other byte of every memory, every register and every flag alone. -/
def Claims.OwnStores : Prop :=
  ∀ (s : State) (r a b : Reg) (i : BitVec 18) (x : BitVec 1) (w : BitVec 2), s.me.ls.wf = true →
    let p := s.readReg a + s.immS i
    let n := 2 ^ w.toNat
    let q := s.readReg a + s.readReg b * (if x = 1 then wordN n else 1)
    let v := (s.readReg r).toNat
    (s.OwnAccess p 1 → Stores (.stb r a i) s p.toNat v 1) ∧ (s.OwnAccess p 2 → Stores (.sth r a i) s p.toNat v 2) ∧
    (s.OwnAccess p 4 → Stores (.stw r a i) s p.toNat v 4) ∧ (s.OwnAccess p 8 → Stores (.std r a i) s p.toNat v 8) ∧
    (s.OwnAccess q n → Stores (.stx r a b x w) s q.toNat v n)

/-- R148, R149: loads and stores of the own local store. -/
def Obligations.OwnAccesses : Prop := OwnLoads ∧ OwnStores

/-- The loads of R148 and R149: the instruction, its address, its width in bytes and whether it zero-extends. -/
def Claims.loadForms (s : State) (d a b : Reg) (i : BitVec 18) (x u : BitVec 1) (w : BitVec 2) : List (Instr × Word × Nat × Bool) :=
  let p := s.readReg a + s.immS i
  let n := 2 ^ w.toNat
  [(.ldb d a i, p, 1, false), (.ldbu d a i, p, 1, true), (.ldh d a i, p, 2, false), (.ldhu d a i, p, 2, true),
   (.ldw d a i, p, 4, false), (.ldwu d a i, p, 4, true), (.ldd d a i, p, 8, true),
   (.ldx d a b x u w, s.readReg a + s.readReg b * (if x = 1 then wordN n else 1), n, decide (u = 1))]

/-- The stores of R148 and R149: the instruction, its address and its width in bytes. -/
def Claims.storeForms (s : State) (d a b : Reg) (i : BitVec 18) (x : BitVec 1) (w : BitVec 2) : List (Instr × Word × Nat) :=
  let p := s.readReg a + s.immS i
  let n := 2 ^ w.toNat
  [(.stb d a i, p, 1), (.sth d a i, p, 2), (.stw d a i, p, 4), (.std d a i, p, 8),
   (.stx d a b x w, s.readReg a + s.readReg b * (if x = 1 then wordN n else 1), n)]

/-- R144: an address that lies in its window. -/
def Claims.InWindow (a : Nat) : Prop :=
  a / 2 ^ 15 = 0 ∨ a / 2 ^ 35 = 2 ^ 25 ∨ a / 2 ^ 48 = 0x2000 ∨ a / 2 ^ 60 = 3

/-- R144: the n bytes from an address lie in one window. -/
def Claims.OneWindow (p : Word) (n : Nat) : Prop :=
  InWindow p.toNat ∧ InWindow (p.toNat + (n - 1)) ∧ p.toNat / 2 ^ 60 = (p.toNat + (n - 1)) / 2 ^ 60

/-- R144 to R146: an access of n bytes at p that traps before anything is performed, with p as its address: an address of no
window, or with a bit set that its window has not; a wrong alignment; a core outside the partition's mesh or offset; a translation at hand that denies it (with the cause
it denies it for, R274); an import that is invalid, too short or not writable. -/
def Claims.Denied (s : State) (p : Word) (n : Nat) (writes : Bool) (c : Cause) : Prop :=
  let q := s.part s.me.part
  let i := s.import' s.me.part (p.toNat / 2 ^ 48 % 2 ^ 12)
  (¬OneWindow p n ∧ c = .window) ∨ (OneWindow p n ∧ p.toNat % n ≠ 0 ∧ c = .align) ∨
  (p.toNat / 2 ^ 35 = 2 ^ 25 ∧ p.toNat % n = 0 ∧
    (q.w ≤ p.toNat / 2 ^ 15 % 2 ^ 10 ∨ q.h ≤ p.toNat / 2 ^ 25 % 2 ^ 10 ∨ 0x6000 ≤ p.toNat % 2 ^ 15) ∧ c = .prot) ∨
  (p.toNat / 2 ^ 48 = 0x2000 ∧ p.toNat % n = 0 ∧ ∃ e, s.cached (stationUnit s.cur.1) s.me.part (p.toNat % 2 ^ 48) = some e ∧
    s.denies e (if writes then 2 else 1) = some c) ∨
  (p.toNat / 2 ^ 60 = 3 ∧ p.toNat % n = 0 ∧ (wbits i.dw0 0 0 = 0 ∨ 2 ≤ wbits i.dw0 3 2 ∨ i.dw2.toNat < p.toNat % 2 ^ 48 + n ∨
    (writes = true ∧ wbits i.dw0 1 1 = 0)) ∧ c = .prot)

/-- spoil names the first access of the core beyond its implemented local store (R41). -/
def Claims.Spoilt (s : State) (p : Word) (w : Nat) (k : Core) : Core :=
  { k with spoil := if k.spoil = 0 then wordN (2 ^ 63 + w * 2 ^ 62 + s.cur.2 * 2 ^ 16 + p.toNat) else k.spoil }

/-- R145, R146: what an ordinary access of any width meets before anything is performed: a trap with its address; offsets
0x6000 to 0x7FFF, which read zero and drop writes, and spoil names the first (R41); an uncorrectable word (R417); an entry of
the range scoreboard, at which it waits. -/
def Claims.AccessFaults : Prop :=
  ∀ (s : State) (d a b : Reg) (i : BitVec 18) (x u : BitVec 1) (w : BitVec 2),
    (∀ e ∈ loadForms s d a b i x u w, let (l, p, n, _) := e
      (∀ c, Denied s p n false c → exec l s = .next (s.trap c p)) ∧
      (0x6000 ≤ p.toNat → p.toNat < 0x8000 → p.toNat % n = 0 → ∃ t, Ends l s t [(d, 0)] (Spoilt s p 0)) ∧
      (s.OwnAccess p n → s.me.lsBad p.toNat n = true → exec l s = .next (s.trap .ue p)) ∧
      (p.toNat + n ≤ 0x6000 → p.toNat % n = 0 → s.me.scbHit p.toNat n = true →
        ∃ t, Leaves l s t id (fun h => h.await (.retry l)))) ∧
    ∀ e ∈ storeForms s d a b i x w, let (l, p, n) := e
      (∀ c, Denied s p n true c → exec l s = .next (s.trap c p)) ∧
      (0x6000 ≤ p.toNat → p.toNat < 0x8000 → p.toNat % n = 0 → ∃ t, Ends l s t [] (Spoilt s p 1)) ∧
      (p.toNat + n ≤ 0x6000 → p.toNat % n = 0 → s.me.scbHit p.toNat n = true →
        ∃ t, Leaves l s t id (fun h => h.await (.retry l)))

/-- R144, R263, R264, R277, R373: the home an aligned access names. Window 0x1 names a core of the partition by its place in the
mesh: the own one, under the position it has or the one it was placed at, is the own local store; any other is that
position, where a forwarder names the core that serves it (R265). Window 0x2 names the byte of the page's frame, of a
replicated page in the group nearest to the core's die, under the page's key; window 0x3 a byte of the import entry. -/
def Claims.HomesNamed : Prop :=
  ∀ (s : State) (p : Word) (n acc : Nat), n ∈ [1, 2, 4, 8] → p.toNat % n = 0 →
    let c := s.cur.1
    let q := s.part s.me.part
    (p.toNat / 2 ^ 35 = 2 ^ 25 →
      let (x, y, off) := (p.toNat / 2 ^ 15 % 2 ^ 10, p.toNat / 2 ^ 25 % 2 ^ 10, p.toNat % 2 ^ 15)
      x < q.w → y < q.h → off < 0x6000 →
      let pos := (q.y0 + y) * 1008 + (q.x0 + x)
      s.place c p n acc = if pos = c ∨ pos = s.me.place then .own off else .far (.ls pos off)) ∧
    (p.toNat / 2 ^ 48 = 0x2000 → ∀ e, s.cached (stationUnit c) s.me.part (p.toNat % 2 ^ 48) = some e → s.denies e acc = none →
      let a := e.frame + p.toNat % 2 ^ 48 % 2 ^ e.bits
      s.place c p n acc = .far (.hbm (e.part * 2 ^ 40 +
        if e.rep then (s.part e.part).nearGroup (dieOf c) * 2 ^ 38 + a % 2 ^ 38 else a) e.key)) ∧
    (p.toNat / 2 ^ 60 = 3 →
      let (h, off) := (p.toNat / 2 ^ 48 % 2 ^ 12, p.toNat % 2 ^ 48)
      let i := s.import' s.me.part h
      wbits i.dw0 0 0 = 1 → wbits i.dw0 3 2 < 2 → off + n ≤ i.dw2.toNat → (acc / 2 % 2 = 1 → wbits i.dw0 1 1 = 1) →
      s.place c p n acc = .far (.imp s.me.part h off i)) ∧
    (∀ pos, s.locate pos = (s.core pos).fwdTo.getD pos) ∧
    ∀ d, let g := q.nearGroup d
      (∀ x < 3, 0 < q.groupStacks x → 0 < q.groupStacks g ∧
        (g = x ∨ (g : Int) - (d % 3 : Nat) = 0 ∨ ((g : Int) - (d % 3 : Nat)).natAbs < ((x : Int) - (d % 3 : Nat)).natAbs ∨
          (((g : Int) - (d % 3 : Nat)).natAbs = ((x : Int) - (d % 3 : Nat)).natAbs ∧ g < x)))

/-- R145, R283, R284, R287: an access of any width that another home performs leaves the wheel. A load served by the phase
buffer has its value in the reply it waits for, or is UE when a doubleword of it came uncorrectable; another sends a sector
fetch and waits for it; one whose translation is not at hand waits for a walk. -/
def Claims.RemoteAccesses : Prop :=
  ∀ (s : State) (d a b : Reg) (i : BitVec 18) (x u : BitVec 1) (w : BitVec 2),
    (∀ e ∈ loadForms s d a b i x u w, let (l, p, n, z) := e
      (∀ r, s.place s.cur.1 p n 1 = .far r →
        (∀ v, s.me.served r n = some v → s.me.servedBad r n = true → exec l s = .next (s.trap .ue p)) ∧
        (∀ v, s.me.served r n = some v → s.me.servedBad r n = false → ∃ t rs,
          rs = ⟨s.cur.2, s.th.inc, .ok⟩ ∧ t.Sent (.remoteReply s.cur.1 s.cur.2) ∧
          Leaves l s t (fun k => { k with replies := k.replies ++ [rs] })
            (fun h => h.await (.reply [(d, if z then wordN v else wordI (sx v (8 * n)))]))) ∧
        (s.me.served r n = none → ∃ t f, f.dst = r.sector ∧ f.slot = s.cur.2 ∧
          Leaves l s t (fun k => { k with fetches := k.fetches ++ [f], nextId := k.nextId + 1 })
            (fun h => h.await (.load f.id d n z r.off5 p)) ∧ t.Sent (.sectorFetch s.cur.1 f.id))) ∧
      ∀ va acc, s.place s.cur.1 p n 1 = .miss va acc → ∃ t, Leaves l s t id
        (fun h => h.await (.walk (some l) va acc)) ∧ t.Sent (.translationWalk s.cur.1 s.cur.2)) ∧
    ∀ e ∈ storeForms s d a b i x w, let (l, p, n) := e
      ∀ va acc, s.place s.cur.1 p n 2 = .miss va acc → ∃ t, Leaves l s t id
        (fun h => h.await (.walk (some l) va acc)) ∧ t.Sent (.translationWalk s.cur.1 s.cur.2)

/-- R281, R282, R284: a store of another home enters its core's buffer and waits for the reply that completes it: it writes into
the entry of its sector that is not to drain, and into the copy read before, or has an entry of its own, to which that copy goes.
Where two entries of the sector drain it waits for the older; with no room in the buffer, and no entry that holds
only a copy, the oldest entry that does not drain is drained, and the store waits for that. -/
def Claims.RemoteStores : Prop :=
  ∀ (s : State) (d a b : Reg) (i : BitVec 18) (x u : BitVec 1) (w : BitVec 2), ∀ e ∈ storeForms s d a b i x w,
    let (l, p, n) := e
    ∀ r, s.place s.cur.1 p n 2 = .far r → r.off5 % n = 0 →
      let es := s.me.pbuf.filter (fun e => e.dst = r.sector)
      let m := (2 ^ n - 1) * 2 ^ r.off5
      let v := (s.readReg d).toNat % 256 ^ n
      let put := fun (y : Nat) => overlay y (v * 256 ^ r.off5) m 32
      let enters := fun (t : State) (q : List Entry) (g : Core → Core) =>
        Leaves l s t (fun k => { g k with pbuf := q, replies := k.replies ++ [⟨s.cur.2, s.th.inc, .ok⟩] }) (fun h => h.await (.reply [])) ∧
          t.Sent (.remoteReply s.cur.1 s.cur.2)
      let waits := fun (t : State) (g : Core → Core) (on : Option Nat) =>
        Leaves l s t g (fun h => h.await (.room [.far r v n] 0 h.seed on))
      (∀ y, es.find? (fun e => !e.d) = some y → ∃ t, enters t (s.me.pbuf.map (fun e =>
          let e := if e.dst = r.sector ∧ e.r = true then { e with copy := put e.copy, bad := badLeft e.bad m } else e
          if e.dst = r.sector ∧ e.id = y.id then { e with data := put e.data, mask := e.mask ||| m } else e)) id) ∧
      (es.find? (fun e => !e.d) = none → es.length < 2 → s.me.pbuf.length < 64 → ∃ t q y,
        enters t (q ++ [y]) (fun k => { k with nextId := k.nextId + 1 }) ∧ q.length = s.me.pbuf.length ∧
        (∀ (j : Nat) (e : Entry), s.me.pbuf[j]? = some e → e.id ≠ s.me.nextId →
          q[j]? = some (if e.dst = r.sector then { e with r := false } else e)) ∧
        y.id = s.me.nextId ∧ y.dst = r.sector ∧ y.mask = m ∧ y.d = false ∧ (∀ j < n, byteOf y.data (r.off5 + j) = byteOf v j) ∧
        (es = [] → y.r = false) ∧ (∀ e, es = [e] → y.r = e.r ∧ (e.r = true → y.copy = put e.copy))) ∧
      (∀ y z q, es = y :: z :: q → es.find? (fun e => !e.d) = none → ∃ t, waits t id (some y.id)) ∧
      (es = [] → 64 ≤ s.me.pbuf.length → (∀ e ∈ s.me.pbuf, e.mask ≠ 0) →
        (∀ y, s.me.pbuf.find? (fun e => !e.d) = some y → ∃ t k, waits t (fun _ => k) (some y.id) ∧ t.Sent (.sectorDrain s.cur.1 y.id) ∧
          k = { s.me with spill := true, evict := k.evict, fetches := k.fetches, pbuf := s.me.pbuf.map (fun e =>
            if e.id = y.id then { e with d := true, r := false, room := true } else e) }) ∧
        (s.me.pbuf.find? (fun e => !e.d) = none → ∃ t, waits t id none))

/-- R144 to R146, R148, R149, R263, R264, R281 to R284, R287, R373: accesses of every width that trap or wait, and those of other
homes, and which homes those are. When an uncorrectable word met is reported is the model's choice (log 54). -/
def Obligations.AccessesElsewhere : Prop := AccessFaults ∧ HomesNamed ∧ RemoteAccesses ∧ RemoteStores

/-- The atomics of R156 and R157, with the numbers that tell their requests apart and whether they are of
a doubleword. -/
def Claims.atomicForms (d a b : Reg) (z : BitVec 1) : List (Instr × Nat × Bool) :=
  let l := decide (z = 1)
  [(.aadd d a b z, 0, l), (.aand d a b z, 1, l), (.aor d a b z, 2, l), (.axor d a b z, 3, l), (.amin d a b z, 4, l),
   (.amax d a b z, 5, l), (.aminu d a b z, 6, l), (.amaxu d a b z, 7, l), (.aswp d a b z, 8, l), (.acas d a b z, 9, l),
   (.afadd d a b, 10, false), (.afmin d a b, 11, false), (.afmax d a b, 12, false)]

/-- R145, R155: what an atomic meets before it is performed: a trap with its address, PROT in window 0x3 among them; offsets
0x6000 to 0x7FFF, which read zero and drop the write, and which spoil names as a write, of an ACAS too (the model's choice, log 6); an
uncorrectable word; an entry of the range scoreboard, at which it
waits; a translation that is not at hand; and that at another home its request leaves once its sector has drained. -/
def Claims.AtomicFaults : Prop :=
  ∀ (s : State) (d a b : Reg) (z : BitVec 1), ∀ e ∈ atomicForms d a b z, let (i, op, l) := e
    let p := s.readReg a
    let n := if l then 8 else 4
    ((¬OneWindow p n → exec i s = .next (s.trap .window p)) ∧
      (OneWindow p n → p.toNat % n ≠ 0 → exec i s = .next (s.trap .align p)) ∧
      (p.toNat / 2 ^ 60 = 3 → p.toNat % n = 0 → exec i s = .next (s.trap .prot p)) ∧
      (∀ v c, p.toNat / 2 ^ 48 = 0x2000 → p.toNat % n = 0 →
        s.cached (stationUnit s.cur.1) s.me.part (p.toNat % 2 ^ 48) = some v → s.denies v 3 = some c →
        exec i s = .next (s.trap c p)) ∧
      (s.OwnAccess p n → s.me.lsBad p.toNat n = true → exec i s = .next (s.trap .ue p)) ∧
      (0x6000 ≤ p.toNat → p.toNat < 0x8000 → p.toNat % n = 0 → ∃ t, Ends i s t [(d, 0)] (Spoilt s p 1)) ∧
      (p.toNat + n ≤ 0x6000 → p.toNat % n = 0 → s.me.scbHit p.toNat n = true → ∃ t, Leaves i s t id (fun h => h.await (.retry i)))) ∧
    (∀ va acc, s.place s.cur.1 p n 3 = .miss va acc → ∃ t, Leaves i s t id
      (fun h => h.await (.walk (some i) va acc)) ∧ t.Sent (.translationWalk s.cur.1 s.cur.2)) ∧
    ∀ r, s.place s.cur.1 p n 3 = .far r → (∀ q h o j, r ≠ .imp q h o j) → (∀ e ∈ s.me.pbuf, e.dst = r.sector → e.mask = 0) →
      let k : ReqKind := .atomic op l r ((s.readReg b).toNat % 256 ^ n) ((s.readReg d).toNat % 256 ^ n)
      ∃ t q, q.k = k ∧ q.slot = s.cur.2 ∧ q.inc = s.th.inc ∧
        Leaves i s t (fun c => { c with reqs := c.reqs ++ [q] }) (fun h => h.await (.home d k p))

/-- R155 to R157: each atomic on the own local store returns the old value, sign-extended or zero-extended as its row says,
and puts the new one there, as one step; no flag changes. -/
def Claims.AtomicResults : Prop :=
  ∀ (s : State) (d a b : Reg) (z : BitVec 1), s.me.ls.wf = true →
    let n := if z = 1 then 64 else 32
    let p := s.readReg a
    let x := s.lsValue p.toNat (n / 8)
    let y := (s.readReg b).toNat % 2 ^ n
    let e := (s.readReg d).toNat % 2 ^ n
    let low32 := (s.readReg b).toNat % 2 ^ 32
    (s.OwnRead p (n / 8) →
      Updates (.aadd d a b z) s d (wordI (sx x n)) p.toNat (x + y) (n / 8) ∧
      Updates (.aand d a b z) s d (wordI (sx x n)) p.toNat (x &&& y) (n / 8) ∧
      Updates (.aor d a b z) s d (wordI (sx x n)) p.toNat (x ||| y) (n / 8) ∧
      Updates (.axor d a b z) s d (wordI (sx x n)) p.toNat (x ^^^ y) (n / 8) ∧
      Updates (.amin d a b z) s d (wordI (sx x n)) p.toNat (if sx x n ≤ sx y n then x else y) (n / 8) ∧
      Updates (.amax d a b z) s d (wordI (sx x n)) p.toNat (if sx y n ≤ sx x n then x else y) (n / 8) ∧
      Updates (.aminu d a b z) s d (wordN x) p.toNat (min x y) (n / 8) ∧
      Updates (.amaxu d a b z) s d (wordN x) p.toNat (max x y) (n / 8) ∧
      Updates (.aswp d a b z) s d (wordI (sx x n)) p.toNat y (n / 8) ∧
      Updates (.acas d a b z) s d (wordI (sx x n)) p.toNat (if x = e then y else x) (n / 8)) ∧
    (s.OwnRead p 4 →
      let x := s.lsValue p.toNat 4
      Updates (.afadd d a b) s d (wordN x) p.toNat (fp32.add 0 0 (fp32.val x) (fp32.val low32)).1 4 ∧
      Updates (.afmin d a b) s d (wordN x) p.toNat (fp32.minMax false x low32).1 4 ∧
      Updates (.afmax d a b) s d (wordN x) p.toNat (fp32.minMax true x low32).1 4)

/-- R145, R155 to R157: the atomics: their results, and where they trap or wait. -/
def Obligations.OwnAtomics : Prop := AtomicResults ∧ AtomicFaults

/-- R158, R159: an operation that waits at home and cannot be served with tags as given: one that needs a full word at an empty
one, or an empty one at a full one. -/
def Claims.StaysQueued (full : Nat → Prop) (q : FeOp) : Prop :=
  (q.op < 2 ∧ ¬full (q.off / 8)) ∨ (q.op = 2 ∧ full (q.off / 8))

/-- R158 to R160: a full-or-empty operation on the own local store whose condition holds takes or gives the word and sets
its tag; one whose condition does not hold joins the queue last and waits, or with a limit of 0 raises FETIME. What waits in the queue is served
as soon as its condition holds, in the same step, and answered. A word made full may be the arrival that ends the
channel's dry spell (R346). -/
def Claims.OwnFeService : Prop :=
  ∀ (s : State) (d a b : Reg), s.me.ls.wf = true → s.OwnAccess (s.readReg a) 8 →
    let p := (s.readReg a).toNat
    let full := s.me.tags.contains (p / 8)
    let good := s.me.lsBad p 8 = false
    let v := wordN (s.lsValue p 8)
    let still := fun (f : Bool) (l : List FeOp) => ∀ q ∈ l, StaysQueued (fun k => (if k = p / 8 then f else s.me.tags.contains k) = true) q
    let tagged := fun (i : Instr) (w : List (Reg × Word)) (f : Bool) => still f s.me.feq → ∃ t l n x,
      Ends i s t w (fun k => { k with tags := l, dry := n, dryHeld := x }) ∧
      (i ≠ .feset a 1 → n = s.me.dry ∧ x = s.me.dryHeld) ∧ ∀ k, l.contains k = if k = p / 8 then f else s.me.tags.contains k
    let puts := fun (i : Instr) => still true s.me.feq → ∃ t l m u n x,
      EndsStore i s t [] (fun k => { k with ls := m, lsUe := u, tags := l, dry := n, dryHeld := x }) ∧
      WroteLs s t p (s.readReg d).toNat 8 ∧ ∀ k, l.contains k = if k = p / 8 then true else s.me.tags.contains k
    let waits := fun (i : Instr) (op y : Nat) (r : Reg) => ∃ t, Leaves i s t
      (fun k => { k with feq := k.feq ++ [⟨p, op, y, s.cur.1, s.cur.2, s.th.inc, k.ctx⟩] })
      (fun h => { h.await (.home r (.fe op (.ls s.cur.1 p) y) (s.readReg a)) with
        limit := if wbits (s.readReg b) 31 0 = 0xFFFFFFFF then none else some (wbits (s.readReg b) 31 0) })
    let hands := fun (i : Instr) (q : FeOp) (l : List FeOp) (x : Nat) (f : Bool) (y : Nat) => ∃ t, exec i s = .next t ∧
      t.me.feq = l ∧ t.me.tags.contains (p / 8) = f ∧ (∀ j < 8, t.lsByte s.cur.1 (p + j) = BitVec.ofNat 8 (x / 256 ^ j)) ∧
      (⟨q.slot, q.inc, .val y⟩ : Reply) ∈ (t.core q.core).replies ∧ t.Sent (.remoteReply q.core q.slot) ∧ t.th.st = .ready
    (full = true → good → tagged (.ldfe d a b) [(d, v)] false ∧ tagged (.ldff d a b) [(d, v)] true) ∧
    (full = true → ¬good → exec (.ldfe d a b) s = .next (s.trap .ue (s.readReg a)) ∧
      exec (.ldff d a b) s = .next (s.trap .ue (s.readReg a))) ∧
    (full = false → puts (.stef d a b)) ∧ puts (.stff d a) ∧ tagged (.feprobe d a) [(d, if full then 1 else 0)] full ∧
    tagged (.feset a 0) [] false ∧ tagged (.feset a 1) [] true ∧
    (wbits (s.readReg b) 31 0 ≠ 0 →
      (full = false → waits (.ldfe d a b) 0 0 d ∧ waits (.ldff d a b) 1 0 d) ∧
      (full = true → waits (.stef d a b) 2 (s.readReg d).toNat 0)) ∧
    (wbits (s.readReg b) 31 0 = 0 →
      (full = false → exec (.ldfe d a b) s = .next (s.trap .fetime (s.readReg a)) ∧
        exec (.ldff d a b) s = .next (s.trap .fetime (s.readReg a))) ∧
      (full = true → exec (.stef d a b) s = .next (s.trap .fetime (s.readReg a)))) ∧
    ∀ q l, s.me.feq = q :: l → q.off = p → still full l →
      (full = true → good → q.op = 2 → hands (.ldfe d a b) q l q.v true 0) ∧
      (full = false → q.op = 0 → hands (.stef d a b) q l (s.readReg d).toNat false (s.readReg d).toNat)

/-- The operations of R159: the instruction, its number in a request, and the register, value and limit of the request. -/
def Claims.feForms (s : State) (d a b : Reg) : List (Instr × Nat × Reg × Nat × Option Nat) :=
  let limit := if wbits (s.readReg b) 31 0 = 0xFFFFFFFF then none else some (wbits (s.readReg b) 31 0)
  [(.ldfe d a b, 0, d, 0, limit), (.ldff d a b, 1, d, 0, limit), (.stef d a b, 2, 0, (s.readReg d).toNat, limit),
   (.stff d a, 3, 0, (s.readReg d).toNat, none), (.feprobe d a, 4, d, 0, none), (.feset a 0, 5, 0, 0, none), (.feset a 1, 5, 0, 1, none)]

/-- R145, R158, R160: where a full-or-empty operation traps or waits before it is served: no window, alignment, PROT
in windows 0x2 and 0x3 and at offsets 0x6000 to 0x7FFF of the own one; an entry of the range scoreboard; a translation that is not at hand; and at another
core its request leaves with its limit once its sector has drained. -/
def Claims.FeElsewhere : Prop :=
  ∀ (s : State) (d a b : Reg), ∀ e ∈ feForms s d a b,
    let (i, op, r, v, limit) := e
    let p := s.readReg a
    let acc := if op = 2 ∨ op = 3 then 2 else 1
    (¬OneWindow p 8 → exec i s = .next (s.trap .window p)) ∧
    (OneWindow p 8 → p.toNat % 8 ≠ 0 → exec i s = .next (s.trap .align p)) ∧
    (0x6000 ≤ p.toNat → p.toNat < 0x8000 → p.toNat % 8 = 0 → exec i s = .next (s.trap .prot p)) ∧
    (p.toNat / 2 ^ 60 = 3 → p.toNat % 8 = 0 → exec i s = .next (s.trap .prot p)) ∧
    (∀ x, p.toNat / 2 ^ 48 = 0x2000 → p.toNat % 8 = 0 → s.cached (stationUnit s.cur.1) s.me.part (p.toNat % 2 ^ 48) = some x →
      exec i s = .next (s.trap ((s.denies x acc).getD .prot) p)) ∧
    (p.toNat + 8 ≤ 0x6000 → p.toNat % 8 = 0 → s.me.scbHit p.toNat 8 = true → ∃ t, Leaves i s t id (fun h => h.await (.retry i))) ∧
    (∀ va x, s.place s.cur.1 p 8 acc = .miss va x → ∃ t, Leaves i s t id
      (fun h => h.await (.walk (some i) va x)) ∧ t.Sent (.translationWalk s.cur.1 s.cur.2)) ∧
    ∀ pos off, s.place s.cur.1 p 8 acc = .far (.ls pos off) →
      let k : ReqKind := .fe op (.ls pos off) v
      let mine := fun (e : Entry) => decide (e.mask ≠ 0) && decide (e.dst = .ls pos (off / 32 * 32))
      let ids := (s.me.pbuf.filter mine).map (·.id)
      (ids = [] → ∃ t, Leaves i s t (fun c => { c with reqs := c.reqs ++ [{ slot := s.cur.2, inc := s.th.inc, k := k }] })
        (fun h => { h.await (.home r k p) with limit := limit }) ∧ t.Sent (.feAtHome s.cur.1 s.cur.2)) ∧
      (ids ≠ [] → ∃ t, Leaves i s t (fun c => { c with pbuf := c.pbuf.map (fun e => if mine e then { e with d := true } else e) })
        (fun h => { h.await (.drains ids (.req r k p)) with limit := limit }) ∧
        ∀ e ∈ s.me.pbuf, mine e = true → e.d = false → t.Sent (.sectorDrain s.cur.1 e.id))

/-- R145, R158 to R160, R346: the full-or-empty operations as their threads issue them. -/
def Obligations.OwnFullEmpty : Prop := OwnFeService ∧ FeElsewhere

/-- The read set of a core is clear, and no fetch in flight installs (R287); an entry whose drain was performed serves no later load
(17 R386; the model's choice, log 102). -/
def Claims.ReadsCleared (k : Core) : Core :=
  { k with pbuf := (k.pbuf.filter (fun e => decide (e.mask ≠ 0))).map (fun e =>
             { e with r := false, past := e.past || (e.sent && e.sentAt.isNone) }),
           fetches := k.fetches.map (fun f => { f with barred := true }) }

/-- R150 to R153, R165, R168: the ordered accesses and fences. LDA and WAITGE clear the read set, STREL to an own word
stores it, PEND advances the phase, at once when no write is pending and otherwise when every drain is acknowledged; so do a FENCE
for writes, and one that orders both ways joins the fences before its cluster's serialiser, as does a BAR beyond scope 0; FENCE and
BAR at scope 0 do no more than take their
slot, or arrive, or raise PROT where the barrier's episode has another scope (its address 0 is the model's, log 96). A WAITGE
below its target waits, or with a limit of 0 raises CNTTIME. -/
def Claims.OrderedOwn : Prop :=
  ∀ (s : State) (d a b : Reg) (sc : BitVec 3) (u : BitVec 1) (w k : BitVec 2),
    let p := s.readReg a
    let n := 2 ^ w.toNat
    let pending := (s.me.pbuf.filter (fun e => decide (e.mask ≠ 0))).map (·.id)
    let v := if u = 1 then wordN (s.lsValue p.toNat n) else wordI (sx (s.lsValue p.toNat n) (8 * n))
    let scope := s.scope sc.toNat
    let drains := fun (k : Core) => { k with pbuf := k.pbuf.map (fun e => if e.mask ≠ 0 then { e with d := true } else e) }
    let sent := fun (t : State) => ∀ e ∈ s.me.pbuf, e.mask ≠ 0 → e.d = false → t.Sent (.sectorDrain s.cur.1 e.id)
    let joins := fun (i : Instr) (after : After) => ∃ t, exec i s = .next t ∧
      OnlyThread s { t with serial := s.serial, inflight := s.inflight } ∧
      t.th = s.th.await (.token ((List.range scope).map (· + 1)) after) ∧
      let q := s.serialiser s.cur.1 1
      tget [] t.serial q = tget [] s.serial q ++ [(s.cur.1, s.cur.2, s.th.inc)] ∧
      (∀ j, j ≠ q → tget [] t.serial j = tget [] s.serial j) ∧
      (tget [] s.serial q = [] → (0, Action.ev (.orderTokenGrant s.cur.1 s.cur.2)) ∈ t.inflight)
    (s.OwnRead p n → 1 ≤ scope → ∃ t, Ends (.lda d a sc u w) s t [(d, v)] ReadsCleared) ∧
    (s.OwnRead p n → scope = 0 → ∃ t, Ends (.lda d a sc u w) s t [(d, v)] id) ∧
    (s.OwnAccess p n → s.me.ls.wf = true → Stores (.strel d a sc w) s p.toNat (s.readReg d).toNat n) ∧
    (pending = [] →
      (∃ t, Ends .pend s t [] (fun k => { ReadsCleared k with phase := k.phase + 1 })) ∧
      (scope ≠ 0 → ∃ t, Ends (.fence sc 1) s t [] id) ∧
      (scope ≠ 0 → joins (.fence sc 2) (.sc scope) ∧ joins (.bar sc k) (.bar k.toNat scope))) ∧
    (pending ≠ [] →
      (∃ t, Leaves .pend s t (fun k => drains (ReadsCleared k)) (fun h => h.await (.drains pending .pend)) ∧ sent t) ∧
      (scope ≠ 0 → ∀ e ∈ [(Instr.fence sc 1, After.rel), (.fence sc 2, .sc scope), (.bar sc k, .bar k.toNat scope)], ∃ t,
        Leaves e.1 s t drains (fun h => h.await (.drains pending e.2)) ∧ sent t)) ∧
    (scope = 0 → Falls (.fence sc k) s) ∧
    (scope ≠ 0 → ∃ t, Ends (.fence sc 0) s t [] ReadsCleared) ∧
    (scope = 0 → s.episodeOf s.cur.1 k.toNat = none → ∃ t, exec (.bar sc k) s = .next t ∧
      t.th = s.th.await (.bar k.toNat 0) ∧ (∀ c j, (c, j) ≠ s.cur → t.thr c j = s.thr c j) ∧
      (∀ c, { t.core c with threads := (s.core c).threads } = s.core c) ∧
      { t with cores := s.cores, episodes := s.episodes, nextId := s.nextId, inflight := s.inflight } = s ∧
      ∃ e, tfind t.episodes s.nextId = some e ∧ e.k = k.toNat ∧ e.scope = 0 ∧ e.region = s.me.place) ∧
    (∀ n e, scope = 0 → s.episodeOf s.cur.1 k.toNat = some (n, e) →
      (e.scope ≠ 0 → exec (.bar sc k) s = .next (s.trap .prot)) ∧
      (e.scope = 0 → ∃ t, exec (.bar sc k) s = .next t ∧ t.th = s.th.await (.bar k.toNat 0) ∧ (∀ c j, (c, j) ≠ s.cur → t.thr c j = s.thr c j) ∧
        { t with cores := s.cores, inflight := s.inflight } = s ∧
        ((∀ j ∈ s.regionCores e, (t.core j).arrived e.k = true) → s.me.field = some e.field → t.Sent (.barrierEpisodeComplete n)))) ∧
    (s.OwnRead p 8 → (s.readReg b).toNat ≤ s.lsValue p.toNat 8 → ∃ t, Ends (.waitge d a b) s t [] ReadsCleared) ∧
    (s.OwnRead p 8 → s.lsValue p.toNat 8 < (s.readReg b).toNat → wbits (s.readReg d) 31 0 ≠ 0 → ∃ t,
      exec (.waitge d a b) s = .next t ∧
      t.th = { s.th.await (.home 0 (.waitge (.ls s.cur.1 p.toNat) (s.readReg b).toNat) p) with
        limit := if wbits (s.readReg d) 31 0 = 0xFFFFFFFF then none else some (wbits (s.readReg d) 31 0) } ∧
      (∃ w ∈ t.watches, w.core = s.cur.1 ∧ w.slot = s.cur.2 ∧ w.inc = s.th.inc) ∧
      { t with cores := s.cores, watches := s.watches } = s ∧ (∀ c, c ≠ s.cur.1 → t.core c = s.core c) ∧
      { t.me with threads := s.me.threads } = ReadsCleared s.me) ∧
    (s.OwnRead p 8 → s.lsValue p.toNat 8 < (s.readReg b).toNat → wbits (s.readReg d) 31 0 = 0 →
      exec (.waitge d a b) s = .next ((s.modMe ReadsCleared).trap .cnttime p))

/-- R150, R151, R155, R168, R286: LDA, STREL and WAITGE of another home: the request leaves and its thread waits for the reply. LDA and
WAITGE clear the read set first; STREL drains all that its core has written, then puts its bytes into the copy of its sector
the core has read and bars the fetches of it. At scope 0 LDA clears nothing and STREL is a store. -/
def Claims.OrderedRemote : Prop :=
  ∀ (s : State) (d a b : Reg) (sc : BitVec 3) (u : BitVec 1) (w : BitVec 2),
    let p := s.readReg a
    let n := 2 ^ w.toNat
    let scope := s.scope sc.toNat
    let v := (s.readReg d).toNat % 256 ^ n
    let asks := fun (i : Instr) (g : Core → Core) (rd : Reg) (k : ReqKind) (limit : Option Nat) => ∃ t,
      Leaves i s t (fun c => { g c with reqs := c.reqs ++ [{ slot := s.cur.2, inc := s.th.inc, k := k }] })
        (fun h => { h.await (.home rd k p) with limit := limit }) ∧ t.Sent (k.step s.cur.1 s.cur.2)
    (∀ r, s.place s.cur.1 p n 1 = .far r →
      (1 ≤ scope → asks (.lda d a sc u w) ReadsCleared d (.lda r n (u = 1) scope) s.th.limit) ∧
      (scope = 0 → asks (.lda d a sc u w) id d (.lda r n (u = 1) scope) s.th.limit)) ∧
    (∀ r, s.place s.cur.1 p n 2 = .far r →
      let k : ReqKind := .strel r n v
      let pending := (s.me.pbuf.filter (fun e => decide (e.mask ≠ 0))).map (·.id)
      let m := (2 ^ n - 1) * 2 ^ r.off5
      (scope = 0 → exec (.strel d a sc w) s = exec (.stx d a 0 0 w) s) ∧
      (1 ≤ scope → pending = [] → asks (.strel d a sc w) (fun c => { c with
          pbuf := c.pbuf.map (fun e => if e.dst = r.sector ∧ e.r = true then
            { e with copy := overlay e.copy (v * 256 ^ r.off5) m 32, bad := badLeft e.bad m } else e),
          fetches := c.fetches.map (fun f => if f.dst = r.sector then { f with barred := true } else f) }) 0 k s.th.limit) ∧
      (1 ≤ scope → pending ≠ [] → ∃ t, Leaves (.strel d a sc w) s t
        (fun c => { c with pbuf := c.pbuf.map (fun e => if e.mask ≠ 0 then { e with d := true } else e) })
        (fun h => h.await (.drains pending (.req 0 k p))) ∧
        ∀ e ∈ s.me.pbuf, e.mask ≠ 0 → e.d = false → t.Sent (.sectorDrain s.cur.1 e.id))) ∧
    (∀ r, s.place s.cur.1 p 8 1 = .far r →
      ((∃ q h o i, r = .imp q h o i) → exec (.waitge d a b) s = .next (s.trap .prot p)) ∧
      ((∀ q h o i, r ≠ .imp q h o i) → asks (.waitge d a b) ReadsCleared 0 (.waitge r (s.readReg b).toNat)
        (if wbits (s.readReg d) 31 0 = 0xFFFFFFFF then none else some (wbits (s.readReg d) 31 0))))

/-- R150 to R155, R165, R168, R286: ordered accesses, fences and barriers at issue. -/
def Obligations.OrderedAccesses : Prop := OrderedOwn ∧ OrderedRemote

/-- R163, R164: the port instructions. Where the neighbour has room for all a send has, or all the entries a receive takes
are there, and no earlier send or receive of the core waits at the port, they complete: what is sent is appended behind what
was sent before, what is received is removed from the front, in order. Otherwise they wait: PSENDQ with room for one, PRECVQ
with one entry. PPEEK removes nothing and never waits. Where there is no neighbour they raise PROT; that its record's address is
0 is the model's reading (log 96). -/
def Obligations.PortTransfers : Prop :=
  ∀ (s : State) (a b d : Reg) (k : BitVec 2),
    (s.neighbour s.cur.1 k.toNat = none → ∀ i ∈ [Instr.psend a k, .psendq a b k, .precv d k, .precvq d b k, .ppeek d k],
      exec i s = .next (s.trap .prot)) ∧
    ∀ n, s.neighbour s.cur.1 k.toNat = some n →
      let out := tget [] s.me.portOut k.toNat
      let inn := tget [] s.me.portIn k.toNat
      let sends := fun (i : Instr) (l : List Word) => ∃ t q, Ends i s t [] (fun x => { x with portOut := q }) ∧
        tget [] q k.toNat = out ++ l ∧ ∀ j, j ≠ k.toNat → tget [] q j = tget [] s.me.portOut j
      let takes := fun (i : Instr) (w : List (Reg × Word)) (l : List Word) => ∃ t q,
        Ends i s t w (fun x => { x with portIn := q }) ∧ tget [] q k.toNat = l ∧
        ∀ j, j ≠ k.toNat → tget [] q j = tget [] s.me.portIn j
      let waits := fun (i : Instr) => ∃ t, Leaves i s t id (fun h => h.await (.retry i))
      (s.me.ahead s.cur.2 (sendsTo k) = false →
        (1 ≤ s.portRoom s.cur.1 k.toNat n → sends (.psend a k) [s.readReg a]) ∧
        (2 ≤ s.portRoom s.cur.1 k.toNat n → sends (.psendq a b k) [s.readReg a, s.readReg b])) ∧
      (s.me.ahead s.cur.2 (recvsFrom k) = false →
        (∀ v l, inn = v :: l → takes (.precv d k) [(d, v)] l) ∧
        (∀ v x l, inn = v :: x :: l → takes (.precvq d b k) [(d, v), (b, x)] l)) ∧
      (s.me.ahead s.cur.2 (sendsTo k) = true ∨ s.portRoom s.cur.1 k.toNat n < 1 → waits (.psend a k)) ∧
      (s.me.ahead s.cur.2 (sendsTo k) = true ∨ s.portRoom s.cur.1 k.toNat n < 2 → waits (.psendq a b k)) ∧
      (s.me.ahead s.cur.2 (recvsFrom k) = true ∨ inn.length < 1 → waits (.precv d k)) ∧
      (s.me.ahead s.cur.2 (recvsFrom k) = true ∨ inn.length < 2 → waits (.precvq d b k)) ∧
      Gives (.ppeek d k) s d (wordN (inn.length + 256 * s.portRoom s.cur.1 k.toNat n))

/-- R166, R167: WAIT and SLEEP take the enabled pending events and complete, or sleep; EVT completes at once, its event on
its way to the target core, or raises PROT for a core outside the field, its record's address 0 (the model's reading, log 96). -/
def Obligations.EventInstructions : Prop :=
  ∀ (s : State) (d a b : Reg) (e : BitVec 3),
    let m := s.th.evm &&& s.th.evp
    let took := fun (i : Instr) => ∃ t, exec i s = .next t ∧ OnlyThread s t ∧ t.th.evp = s.th.evp &&& ~~~ m ∧
      s.th.Completes { t.th with evp := s.th.evp } s.th.fxf s.th.seed ∧ ∀ r, t.th.reg r = if r = d ∧ r ≠ 0 then m.setWidth 64 else s.th.reg r
    let sleeps := fun (i : Instr) (l : Option Nat) => ∃ t, exec i s = .next t ∧ OnlyThread s t ∧
      t.th = { s.th with st := .sleeping, wait := .sleep d, opnd := some s.th.operands, limit := l }
    let l := wbits (s.readReg a) 31 0
    (m ≠ 0 → took (.wait d) ∧ took (.sleep d a)) ∧
    (m = 0 → sleeps (.wait d) none ∧ (l = 0 → took (.sleep d a)) ∧ (l = 0xFFFFFFFF → sleeps (.sleep d a) none) ∧
      (0 < l → l < 0xFFFFFFFF → sleeps (.sleep d a) (some l))) ∧
    ((s.readReg a).toNat < s.me.fw * s.me.fh → ∃ t, Ends (.evt a b e) s t [] (fun k => { k with
        evOut := k.evOut ++ [⟨s.cur.2, (s.readReg a).toNat, (s.readReg b).toNat % 65536, e.toNat⟩] }) ∧
      (0, Action.ev (.eventArrival s.cur.1 s.cur.2)) ∈ t.inflight) ∧
    (s.me.fw * s.me.fh ≤ (s.readReg a).toNat → exec (.evt a b e) s = .next (s.trap .prot))

/-! ## Taking an exception and returning from it (18 R388 to R396, 05 R142, R173) -/

/-- R142, R388 to R391, 14 R330: a trap parks its thread at the address its record names, consumes its prefixes and changes no
register, flag, loop, limit or byte of memory; one record goes to the agent of the core's die under the next sequence number,
with cause, fault address, instruction word, slot, context and loop registers in its doublewords. -/
def Claims.TrapTakes : Prop :=
  ∀ (s : State) (c : Cause) (fa : Word),
    let t := s.trap c fa
    let h := s.th
    let ia := h.pfxAt.getD s.pc
    let d := dieOf s.cur.1
    (∃ r, (t.die d).recs = (s.die d).recs ++ [r] ∧ r.seq = s.seqNo ∧
      r.words.take 4 = [wordN s.seqNo, wordN (s.cur.2 * 2 ^ 54 + c.code * 2 ^ 48 + ia.toNat), fa,
        wordN (s.me.lcn * 2 ^ 44 + s.me.ctx * 2 ^ 32 + h.iw.toNat)] ∧
      r.words.getD 6 0 = wordN (h.lc1.toNat * 2 ^ 32 + h.lc0.toNat)) ∧
    t.seqNo = s.seqNo + 1 ∧ t.th.st = .parked ∧ t.th.pc = ia ∧ t.th.recs = h.recs + 1 ∧
    (∀ r, t.th.reg r = h.reg r) ∧
    { t.th.clearPfx with pc := h.pc, st := h.st, wait := h.wait, opnd := h.opnd, recs := h.recs, repCause := h.repCause,
                         repAt := h.repAt, repCount := h.repCount } = h.clearPfx ∧
    t.th.clearPfx = t.th ∧ SameMemory s t ∧ (∀ p k, (p, k) ≠ s.cur → t.thr p k = s.thr p k) ∧
    (∀ e, e ≠ d → t.die e = s.die e) ∧ t.parts = s.parts ∧ t.fields = s.fields

/-- R173: BRK and TRAP raise their cause with the code as fault address, at their own word whatever prefixes are pending;
their words are 0x9400_0200 + c and 0x9400_0240 + c. -/
def Claims.BreakAndTrap : Prop :=
  ∀ (s : State) (c : BitVec 6),
    exec (.brk c) s = .next ((s.modTh Thread.clearPfx).trap .brk (c.setWidth 64)) ∧
    exec (.trapCode c) s = .next ((s.modTh Thread.clearPfx).trap .trapi (c.setWidth 64)) ∧
    (∃ t, exec (.trapCode c) s = .next t ∧ t.th.st = .parked ∧ t.th.pc = s.pc ∧ SameMemory s t) ∧
    encodeNat (.brk c) = 0x94000200 + c.toNat ∧ encodeNat (.trapCode c) = 0x94000240 + c.toNat

/-- R87: a word that is no instruction raises ILLEGAL and reports itself; it changes nothing else. -/
def Claims.IllegalWordTraps : Prop :=
  ∀ (s : State) (w : BitVec 32),
    ∃ t, exec (.illegalWord w) s = .next t ∧ t = (s.modTh (fun h => { h with iw := w })).trap .illegal ∧
      t.th.st = .parked ∧ (∀ r, t.th.reg r = s.th.reg r) ∧ SameMemory s t ∧
      ∃ r ∈ (t.die (dieOf s.cur.1)).recs, r.seq = s.seqNo ∧ r.cause = .illegal ∧ r.iword = w

/-- R87, R173: the words that trap by themselves. -/
def Obligations.DeliberateTraps : Prop := BreakAndTrap ∧ IllegalWordTraps

/-- R394, R396, 15 R349: the return from a trap. Replay makes the thread ready at the address its record named once its last
record is settled, and changes nothing else; a slot that performs the scheduler's TPLAY waits in it again. Of BRK and TRAP it
resumes behind the word, with the loop step of that word. -/
def Claims.ReplayResumes : Prop :=
  ∀ h : Thread,
    (h.recs ≤ 1 → h.replay = { h with recs := 0, st := if h.plays then .waiting else .ready }) ∧
    (1 < h.recs → h.replay = { h with recs := h.recs - 1 }) ∧
    (h.recs ≤ 1 → (h.plays = false → h.replayPast.st = .ready) ∧ h.replayPast.pc = (h.loopStep h.at').2 ∧
      h.replayPast.lc0 = (h.loopStep h.at').1.lc0 ∧ h.replayPast.lc1 = (h.loopStep h.at').1.lc1 ∧
      ∀ r, h.replayPast.reg r = h.reg r)

/-- R142, R388 to R396: taking an exception, and the return from one. -/
def Obligations.TrapEntryAndReturn : Prop := TrapTakes ∧ ReplayResumes

/-- R22, R88: TSTART, TREAP, TKILL and CKPT issued by a thread other than the ganger raise PRIV before anything else. -/
def Claims.PrivilegedToGanger : Prop :=
  ∀ (s : State) (d a b : Reg), s.cur.2 ≠ 0 →
    exec (.tstart d a b) s = .next (s.trap .priv) ∧ exec (.treap d a b) s = .next (s.trap .priv) ∧
    exec (.tkill d a) s = .next (s.trap .priv) ∧ exec (.ckpt d) s = .next (s.trap .priv)

/-! ## Threads (05 R169 to R172) -/

/-- R169: TSTART of a free slot starts it ready at the entry, with the ganger's g1 to g6, g7 zero, everything else at its
reset value and the seed of R59; rd receives 0, or 1 or 2 with no effect. -/
def Claims.ThreadStart : Prop :=
  ∀ (s : State) (d a b : Reg), s.cur.2 = 0 → IsCode (s.readReg b) →
    let k := (s.readReg a).toNat
    (k = 0 ∨ 15 < k → Gives (.tstart d a b) s d 2) ∧
    (1 ≤ k → k ≤ 15 → ((s.me.thr k).st ≠ .empty ∨ (tfind s.me.exits k).isSome = true) → Gives (.tstart d a b) s d 1) ∧
    (1 ≤ k → k ≤ 15 → (s.me.thr k).st = .empty → tfind s.me.exits k = none → ∃ t, exec (.tstart d a b) s = .next t ∧
      (∀ r, t.th.reg r = if r = d ∧ r ≠ 0 then 0 else s.th.reg r) ∧ s.th.Completes t.th s.th.fxf s.th.seed ∧
      OnlyCore s t ∧ { t.me with threads := s.me.threads } = s.me ∧
      (let h := t.me.thr k
       h.st = .ready ∧ h.pc = (s.readReg b).setWidth 48 ∧ (∀ r : Reg, r.toNat < 7 → h.reg r = s.th.reg r) ∧ h.reg 7 = 0 ∧
       (∀ r : Reg, 8 ≤ r.toNat → h.reg r = 0) ∧ Blank h ∧ h.inc = (s.me.thr k).inc ∧
       h.seed = seedStart s.me.jseed s.me.lcn k) ∧
      (∀ j, j ≠ k → j ≠ 0 → t.me.thr j = s.me.thr j))

/-- R170, R171: TREAP collects the exit record of an empty slot, or waits for a slot that holds a thread; TKILL empties a
slot and discards its record. -/
def Claims.ThreadReapAndKill : Prop :=
  ∀ (s : State) (d v a : Reg), s.cur.2 = 0 →
    let k := (s.readReg a).toNat
    (k = 0 ∨ 15 < k → Gives (.treap d a v) s d 2 ∧ Gives (.tkill d a) s d 2) ∧
    (1 ≤ k → k ≤ 15 →
      (∀ x, (s.me.thr k).st = .empty → tfind s.me.exits k = some x → ∃ t,
        Ends (.treap d a v) s t [(v, x), (d, 0)] (fun c => { c with exits := tdel c.exits k }) ∧ tfind (tdel s.me.exits k) k = none) ∧
      ((s.me.thr k).st = .empty → tfind s.me.exits k = none → Gives (.treap d a v) s d 1 ∧ Gives (.tkill d a) s d 1) ∧
      ((s.me.thr k).st ≠ .empty → ∃ t, Leaves (.treap d a v) s t id (fun h => h.await (.retry (.treap d a v)))) ∧
      ((s.me.thr k).st ≠ .empty ∨ (tfind s.me.exits k).isSome = true → ∃ t, exec (.tkill d a) s = .next t ∧ (t.me.thr k).st = .empty ∧
        tfind t.me.exits k = none ∧ (∀ j, j ≠ k → j ≠ 0 → t.me.thr j = s.me.thr j) ∧ SameMemory s t ∧
        (∀ r, t.th.reg r = if r = d ∧ r ≠ 0 then 0 else s.th.reg r) ∧ s.th.Completes t.th s.th.fxf s.th.seed))

/-- R172, R286: CKPT of a ganger marks the write set of its core for draining and waits for every core of its field; alone in a
field of one core it begins the collective. -/
def Claims.CheckpointWaits : Prop :=
  ∀ (s : State) (d : Reg), s.cur.2 = 0 → ∃ t, Leaves (.ckpt d) s t
      (fun k => { k with pbuf := k.pbuf.map (fun e => if e.mask ≠ 0 then { e with d := true } else e) })
      (fun h => h.await (.ckpt d)) ∧
    (∀ e ∈ s.me.pbuf, e.mask ≠ 0 → e.d = false → t.Sent (.sectorDrain s.cur.1 e.id)) ∧
    ∀ i f, s.me.field = some i → tfind s.fields i = some f → s.fieldCores f = [s.cur.1] →
      ∃ n, (n, Action.ev (.ckptCollective i)) ∈ t.inflight

/-- R22, R88, R170 to R172: what only the ganger may do. -/
def Obligations.ThreadsReapAndKill : Prop := ThreadReapAndKill ∧ CheckpointWaits ∧ PrivilegedToGanger

/-! ## Special and cell registers (01 R36 to R44, 05 R174, R175, 03 R82) -/

/-- R37, R174: what MFS reads from every special register, a core copy not written by the core within the last eight ticks (R38; that an update
by the hardware, of spoil, psr, gst, role or stage, shows at once is the model's choice, log 7); a number not in R37 is ILLEGAL. -/
def Obligations.SpecialReads : Prop :=
  ∀ (s : State) (d : Reg), s.me.hist = [] →
    let k := s.me
    let h := s.th
    let rows := [((0x00 : BitVec 8), wordN s.cur.2), (0x01, wordN k.cx), (0x02, wordN k.cy), (0x03, wordN k.fw), (0x04, wordN k.fh),
        (0x05, wordN k.lcn), (0x06, wordN k.stage), (0x07, wordN k.role), (0x08, wordN k.ctx), (0x09, wordN s.cyc),
        (0x10, h.efr.setWidth 64), (0x11, h.rnd.setWidth 64), (0x12, h.fxf.setWidth 64), (0x13, h.seed), (0x14, k.jseed),
        (0x18, k.geo), (0x19, k.gsm), (0x1A, k.gsn), (0x1B, k.gmk), (0x1C, h.rowp), (0x20, h.wsp.setWidth 64),
        (0x21, h.wsl.setWidth 64), (0x22, h.wdp.setWidth 64), (0x24, h.ls0), (0x25, h.le0), (0x26, h.lc0.setWidth 64),
        (0x27, h.ls1), (0x28, h.le1), (0x29, h.lc1.setWidth 64), (0x30, k.sq0), (0x31, k.sq1), (0x32, k.sq2), (0x33, k.sq3),
        (0x34, wordN k.qdepth), (0x38, k.spoil), (0x39, k.psr), (0x3A, k.gst), (0x3C, h.evm.setWidth 64),
        (0x3D, h.evp.setWidth 64)]
    (∀ p ∈ rows, Gives (.mfs d p.1) s d p.2) ∧
    ∀ n : BitVec 8, (∀ p ∈ rows, n ≠ p.1) → exec (.mfs d n) s = .next (s.trap .illegal)

/-- R26, R28, R36, R174: MTS to a thread's own register: the value it takes, and nothing else changes; of a loop address bits 1
and 0 are forced to zero, and the others stand (log 30); wsp and wsl wait for a transfer of windows that is due; a format or a rounding mode that is not allowed is ILLEGAL, and so is a register that is
read-only or no register. -/
def Claims.ThreadRegisterWrites : Prop :=
  ∀ (s : State) (a : Reg),
    let v := s.readReg a
    let h := s.th
    let sets := fun (n : BitVec 8) (h' : Thread) => ∃ t, exec (.mts a n) s = .next t ∧ OnlyThread s t ∧ t.th = h'.retire
    (laneCode (v.toNat % 32) = true → sets 0x10 { h with efr := v.setWidth 5 }) ∧
    (laneCode (v.toNat % 32) = false → exec (.mts a 0x10) s = .next (s.trap .illegal)) ∧
    (v.toNat % 8 ≤ 5 → sets 0x11 { h with rnd := v.setWidth 3 }) ∧
    (5 < v.toNat % 8 → exec (.mts a 0x11) s = .next (s.trap .illegal)) ∧
    sets 0x12 { h with fxf := v.setWidth 5 } ∧ sets 0x13 { h with seed := v } ∧ sets 0x1C { h with rowp := v } ∧
    (h.spillDue = false → h.fillDue = false →
      sets 0x20 { h with wsp := BitVec.ofNat 16 (v.toNat % 2 ^ 16 / 64 * 64) } ∧
      sets 0x21 { h with wsl := BitVec.ofNat 16 (v.toNat % 2 ^ 16 / 64 * 64) }) ∧
    (let p : Word := wordN (v.toNat / 4 * 4)
     sets 0x24 { h with ls0 := p } ∧ sets 0x25 { h with le0 := p } ∧ sets 0x27 { h with ls1 := p } ∧ sets 0x28 { h with le1 := p }) ∧
    sets 0x3C { h with evm := v.setWidth 16 &&& 0xFF07 } ∧
    sets 0x26 { h with lc0 := v.setWidth 32 } ∧ sets 0x29 { h with lc1 := v.setWidth 32 } ∧
    sets 0x3D { h with evp := h.evp &&& ~~~ (v.setWidth 16) } ∧
    (h.spillDue = true ∨ h.fillDue = true → ∀ n ∈ [(0x20 : BitVec 8), 0x21], ∃ t,
      Leaves (.mts a n) s t id (fun h => h.await (.retry (.mts a n)))) ∧
    ∀ n : BitVec 8, n ∉ [(0x10 : BitVec 8), 0x11, 0x12, 0x13, 0x1C, 0x20, 0x21, 0x24, 0x25, 0x26, 0x27, 0x28, 0x29, 0x30, 0x31, 0x32,
      0x33, 0x38, 0x39, 0x3C, 0x3D] → exec (.mts a n) s = .next (s.trap .illegal)

/-- R38, R41, R42, R174, 07 R206: MTS to a core copy changes the core's one copy; spoil is cleared by any value, the flags of
psr by the ones written. Of every core copy that MTS or GEO writes an MFS of the core issued less than eight ticks later
gives the earlier value, and one issued from then on, with no later write, the value written. -/
def Claims.CoreRegisterWrites : Prop :=
  ∀ (s : State) (a d : Reg),
    let v := s.readReg a
    let writes := fun (n : BitVec 8) (f : Core → Core) => ∃ t l, Ends (.mts a n) s t [] (fun k => { f k with hist := l })
    writes 0x30 (fun k => { k with sq0 := v }) ∧ writes 0x31 (fun k => { k with sq1 := v }) ∧
    writes 0x32 (fun k => { k with sq2 := v }) ∧ writes 0x33 (fun k => { k with sq3 := v }) ∧
    writes 0x38 (fun k => { k with spoil := 0 }) ∧
    writes 0x39 (fun k => { k with evict := k.evict && !v.getLsbD 1, spill := k.spill && !v.getLsbD 0 }) ∧
    (let old := [((0x30 : BitVec 8), s.me.sq0), (0x31, s.me.sq1), (0x32, s.me.sq2), (0x33, s.me.sq3), (0x38, s.me.spoil),
        (0x39, s.me.psr)]
     let geo := [((0x18 : BitVec 8), s.me.geo), (0x19, s.me.gsm), (0x1A, s.me.gsn), (0x1B, s.me.gmk)]
     let now := fun (k : Core) => [((0x30 : BitVec 8), v), (0x31, v), (0x32, v), (0x33, v), (0x38, 0), (0x39, k.psr)]
     let geoNow := fun (k : Core) => [((0x18 : BitVec 8), k.geo), (0x19, k.gsm), (0x1A, k.gsn), (0x1B, k.gmk)]
     let early := fun (i : Instr) (p : BitVec 8 × Word) => ∀ t u, exec i s = .next t → u.me = t.me → s.cyc ≤ u.cyc → u.cyc < s.cyc + 8 →
       s.me.hist = [] → Gives (.mfs d p.1) u d p.2
     let late := fun (i : Instr) (now : Core → List (BitVec 8 × Word)) (n : Nat) => ∀ t u, exec i s = .next t → u.me = t.me →
       s.cyc + 8 ≤ u.cyc → (∀ e ∈ s.me.hist, e.1 ≤ s.cyc) → ∀ p, (now u.me)[n]? = some p → Gives (.mfs d p.1) u d p.2
     (∀ n p, old[n]? = some p → early (.mts a p.1) p ∧ late (.mts a p.1) now n) ∧
     ∀ n p, geo[n]? = some p → early (.geo a) p ∧ late (.geo a) geoNow n)

/-- R36, R38, R41, R42, R174: writes of special registers. -/
def Obligations.SpecialWrites : Prop := ThreadRegisterWrites ∧ CoreRegisterWrites

/-- R82, R175: MTA writes one cell register and MFA reads it back, sign-extended or, of fa0 to fa15, zero-extended; while
another thread's MTILE is in progress MTA waits. -/
def Claims.CellRegisters : Prop :=
  ∀ (s : State) (a d : Reg) (c e : BitVec 6), c.toNat < 0x28 → e.toNat < 0x28 →
    let v := (s.readReg a).toNat % 2 ^ 32
    let shown := fun (x : Nat) => if 16 ≤ c.toNat ∧ c.toNat < 32 then wordN x else wordI (sx x 32)
    Gives (.mfa d c) s d (s.me.mfa c) ∧
    (s.me.cellBusy = false → ∃ t x y z w, Ends (.mta a c) s t [] (fun k => { k with ac := x, fa := y, sa := z, sb := w }) ∧
      t.me.mfa c = shown v ∧ (e ≠ c → t.me.mfa e = s.me.mfa e)) ∧
    (s.me.cellBusy = true → ∃ t, Leaves (.mta a c) s t id (fun h => h.await (.retry (.mta a c))))

/-! ## Short vectors (06 R178 to R197) -/

/-- An instruction completes with a value of n-bit lanes: lane i is g i for i < m, and every bit above them is zero (R179).
No flag and no seed changes (R180). -/
def Claims.Lanes (i : Instr) (s : State) (d : Reg) (n m : Nat) (g : Nat → Nat) : Prop :=
  ∃ v, Gives i s d v ∧ v.toNat < 2 ^ (n * m) ∧ ∀ k, k < m → lane v n k = g k

/-- R183, R186, R195: the lane-wise integer instructions under every integer effective format, lane by lane. -/
def Obligations.VectorIntegerLanes : Prop :=
  ∀ (s : State) (d a b : Reg), s.th.lanes ≤ 5 →
    let n := widthOf s.th.lanes
    let sa := fun (i : Nat) => sx (lane (s.readReg a) n i) n
    let sb := fun (i : Nat) => sx (lane (s.readReg b) n i) n
    let sd := fun (i : Nat) => sx (lane (s.readReg d) n i) n
    let ua := fun (i : Nat) => lane (s.readReg a) n i
    let ub := fun (i : Nat) => lane (s.readReg b) n i
    let gives := fun (i : Instr) (g : Nat → Int) => Lanes i s d n (64 / n) (fun k => low (g k) n)
    let (least, most) := (-(2 ^ (n - 1) : Int), (2 ^ (n - 1) : Int) - 1)
    gives (.vadd d a b) (fun i => sa i + sb i) ∧ gives (.vsub d a b) (fun i => sa i - sb i) ∧
    gives (.vadds d a b) (fun i => max least (min most (sa i + sb i))) ∧
    gives (.vsubs d a b) (fun i => max least (min most (sa i - sb i))) ∧
    gives (.vmul d a b) (fun i => sa i * sb i) ∧ gives (.vmulh d a b) (fun i => sa i * sb i / 2 ^ n) ∧
    gives (.vmin d a b) (fun i => min (sa i) (sb i)) ∧ gives (.vmax d a b) (fun i => max (sa i) (sb i)) ∧
    gives (.vabs d a) (fun i => (sa i).natAbs) ∧ gives (.vneg d a) (fun i => -sa i) ∧
    gives (.vavg d a b) (fun i => (sa i + sb i + 1) / 2) ∧ gives (.vmac d a b) (fun i => sd i + sa i * sb i) ∧
    gives (.vshl d a b) (fun i => (ua i * 2 ^ ub i : Nat)) ∧ gives (.vshr d a b) (fun i => (ua i / 2 ^ ub i : Nat)) ∧
    gives (.vsar d a b) (fun i => sa i / 2 ^ ub i) ∧ gives (.vrelu d a) (fun i => max (sa i) 0) ∧
    gives (.vclamp d a b) (fun i => min (max (sd i) (sa i)) (sb i))

/-- R187, R188, R189, R191, R192: integer reductions into a scalar, comparison, packing, unpacking and conversion. -/
def Obligations.VectorIntegerReductions : Prop :=
  ∀ (s : State) (d a b : Reg) (c : BitVec 3) (g : BitVec 6), s.th.lanes ≤ 5 →
    let n := widthOf s.th.lanes
    let m := 64 / n
    let (x, y, z) := (s.readReg a, s.readReg b, s.readReg d)
    let sa := fun (i : Nat) => sx (lane x n i) n
    let sb := fun (i : Nat) => sx (lane y n i) n
    let clip := fun (v : Int) (n : Nat) => max (-(2 ^ (n - 1) : Int)) (min v ((2 ^ (n - 1) : Int) - 1))
    Gives (.vdot d a b) s d (wordI (z.toInt + ((List.range m).map (fun i => sa i * sb i)).sum)) ∧
    Gives (.vsum d a b) s d (wordI (y.toInt + ((List.range m).map sa).sum)) ∧
    (∃ v : Int, Gives (.vmaxr d a) s d (wordI v) ∧ (∃ i < m, v = sa i) ∧ ∀ i < m, sa i ≤ v) ∧
    (c.toNat < 6 → Lanes (.vcmp d a b c) s d n m (fun i =>
      let holds : Prop := match c.toNat with
        | 0 => sa i = sb i | 1 => sa i ≠ sb i | 2 => sa i < sb i | 3 => sa i ≤ sb i
        | 4 => lane x n i < lane y n i | _ => lane x n i ≤ lane y n i
      if @decide holds (Classical.propDecidable _) then 2 ^ n - 1 else 0)) ∧
    (s.th.lanes ∈ [0, 3, 4, 5] → Lanes (.vpack d a b) s d (n / 2) (2 * m) (fun i =>
      low (clip (if i < m then sa i else sb (i - m)) (n / 2)) (n / 2))) ∧
    (s.th.lanes ∈ [1, 0, 3, 4] →
      Lanes (.vunpkl d a) s d (2 * n) (m / 2) (fun i => low (sa i) (2 * n)) ∧
      Lanes (.vunpkh d a) s d (2 * n) (m / 2) (fun i => low (sa (m / 2 + i)) (2 * n))) ∧
    (g.toNat ≤ 5 →
      let o := y.toNat % 16
      let w := widthOf g.toNat
      Lanes (.vcvt d a b g) s d w (64 / w) (fun i => if o + i < m then low (clip (sa (o + i)) w) w else 0)) ∧
    (∀ i ∈ [Instr.vexp2 d a, .vlog2 d a, .vrcp d a, .vrsq d a], exec i s = .next (s.trap .illegal)) ∧
    (s.th.lanes ∈ [1, 2] → exec (.vpack d a b) s = .next (s.trap .illegal)) ∧
    (s.th.lanes ∈ [2, 5] → exec (.vunpkl d a) s = .next (s.trap .illegal) ∧ exec (.vunpkh d a) s = .next (s.trap .illegal))

/-- R190, R193, R194: movement and selection in every format: the bits move unchanged and no flag is set. -/
def Obligations.VectorMoves : Prop :=
  ∀ (s : State) (d a b : Reg), s.th.lanes ≤ 10 →
    let f := s.th.lanes
    let n := widthOf f
    let m := 64 / n
    let (x, y, z) := (s.readReg a, s.readReg b, s.readReg d)
    let on := fun (i : Nat) => if f ≤ 5 then lane x n i ≠ 0 else lane x n i % 2 ^ (n - 1) ≠ 0
    let rank := fun (i : Nat) => ((List.range i).filter (fun j => @decide (on j) (Classical.propDecidable _))).length
    Lanes (.vsel d a b) s d n m (fun i => if z.getLsbD (n * i + n - 1) then lane x n i else lane y n i) ∧
    Lanes (.vsplat d a) s d n m (fun _ => lane x n 0) ∧
    Lanes (.vshuf d a b) s d n m (fun i => if lane y 4 i < m then lane x n (lane y 4 i) else 0) ∧
    (∃ v, Gives (.vnzs d a) s d v ∧ v.toNat < 2 ^ 29 ∧ wbits v 23 21 = 0 ∧
      (∀ i < 16, v.getLsbD i = true ↔ i < m ∧ on i) ∧ wbits v 20 16 = rank m ∧
      (rank m = 0 → wbits v 28 24 = 16) ∧ (∀ i < m, on i → rank i = 0 → wbits v 28 24 = i)) ∧
    (∃ v, Gives (.vcompr d a b) s d v ∧ v.toNat < 2 ^ (n * m) ∧ (∀ i < m, on i → lane v n (rank i) = lane y n i) ∧
      ∀ j < m, rank m ≤ j → lane v n j = 0)

/-- R60, R180, R184, R185, R197: a lane-wise instruction that rounds writes lane by lane, in ascending order, what its rule
gives for the lane in the effective mode; in mode SR lane i uses the i-th step of the seed, and every flag raised is ORed
into fxf. -/
def Claims.RoundsLanes (i : Instr) (s : State) (d : Reg) (n m : Nat) (op : (mode u k : Nat) → Nat × Flags5) : Prop :=
  let after := fun (k : Nat) => (List.range k).foldl (fun sd _ => seedNext sd) s.th.seed
  let at' := fun (k : Nat) => if s.th.mode = 5 then op 5 (seedU (after (k + 1))) k else op s.th.mode 0 k
  ∃ v, GivesF i s d v ((List.range m).foldl (fun f k => f ||| (at' k).2) s.th.fxf)
      (if s.th.mode = 5 then after m else s.th.seed) ∧
    v.toNat < 2 ^ (n * m) ∧ ∀ k, k < m → lane v n k = (at' k).1 % 2 ^ n

/-- A lane-wise floating instruction that does not round: its values and its flags, whatever the mode. -/
def Claims.FlagsLanes (i : Instr) (s : State) (d : Reg) (n m : Nat) (op : Nat → Nat × Flags5) : Prop :=
  ∃ v, GivesF i s d v ((List.range m).foldl (fun f k => f ||| (op k).2) s.th.fxf) s.th.seed ∧
    v.toNat < 2 ^ (n * m) ∧ ∀ k, k < m → lane v n k = (op k).1 % 2 ^ n

/-- R184 to R186, R189, R192, R195: the lane-wise instructions under a floating effective format. -/
def Obligations.VectorFloatLanes : Prop :=
  ∀ (s : State) (d a b : Reg) (c : BitVec 3) (f : Fmt), fmtOf s.th.lanes = some f →
    let n := f.width
    let m := 64 / n
    let x := fun (i : Nat) => lane (s.readReg a) n i
    let y := fun (i : Nat) => lane (s.readReg b) n i
    let z := fun (i : Nat) => lane (s.readReg d) n i
    RoundsLanes (.vadd d a b) s d n m (fun md u i => f.add md u (f.val (x i)) (f.val (y i))) ∧
    RoundsLanes (.vsub d a b) s d n m (fun md u i => f.add md u (f.val (x i)) (f.val (y i)).negate) ∧
    RoundsLanes (.vmul d a b) s d n m (fun md u i => f.mul md u (f.val (x i)) (f.val (y i))) ∧
    RoundsLanes (.vmac d a b) s d n m (fun md u i => f.fma md u (f.val (x i)) (f.val (y i)) (f.val (z i))) ∧
    FlagsLanes (.vmin d a b) s d n m (fun i => f.minMax false (x i) (y i)) ∧
    FlagsLanes (.vmax d a b) s d n m (fun i => f.minMax true (x i) (y i)) ∧
    FlagsLanes (.vabs d a) s d n m (fun i => (if (f.val (x i)).isNan then f.nan else x i % f.signBit, nvIf (f.val (x i)).isSnan)) ∧
    FlagsLanes (.vneg d a) s d n m (fun i =>
      (if (f.val (x i)).isNan then f.nan else (x i + f.signBit) % (2 * f.signBit), nvIf (f.val (x i)).isSnan)) ∧
    FlagsLanes (.vrelu d a) s d n m (fun i =>
      (if (f.val (x i)).isNan then f.nan else if (f.val (x i)).neg then 0 else x i, nvIf (f.val (x i)).isSnan)) ∧
    (c.toNat < 4 → FlagsLanes (.vcmp d a b c) s d n m (fun i =>
      let (p, q) := (f.val (x i), f.val (y i))
      let nan := p.isNan || q.isNan
      let equal := !nan && !p.lt q && !q.lt p
      let holds := match c.toNat with | 0 => equal | 1 => !equal | 2 => p.lt q | _ => p.lt q || equal
      (if holds then 2 ^ n - 1 else 0, nvIf (if c.toNat < 2 then p.isSnan || q.isSnan else nan)))) ∧
    FlagsLanes (.vclamp d a b) s d n m (fun i =>
      let (v, l, h) := (f.val (z i), f.val (x i), f.val (y i))
      let w := if !l.isNan && v.below l then x i else z i
      (if v.isNan then f.nan else if !h.isNan && h.below (f.val w) then y i else w,
        nvIf (v.isSnan || l.isSnan || h.isSnan))) ∧
    (∀ i ∈ [Instr.vadds d a b, .vsubs d a b, .vmulh d a b, .vavg d a b, .vshl d a b, .vshr d a b, .vsar d a b,
        .vpack d a b, .vunpkl d a, .vunpkh d a], exec i s = .next (s.trap .illegal)) ∧
    (4 ≤ c.toNat → exec (.vcmp d a b c) s = .next (s.trap .illegal)) ∧
    RoundsLanes (.vexp2 d a) s d n m (fun md u i => specialFn 0 s.th.lanes f (x i) md u) ∧
    RoundsLanes (.vlog2 d a) s d n m (fun md u i => specialFn 1 s.th.lanes f (x i) md u) ∧
    RoundsLanes (.vrcp d a) s d n m (fun md u i => specialFn 2 s.th.lanes f (x i) md u) ∧
    RoundsLanes (.vrsq d a) s d n m (fun md u i => specialFn 3 s.th.lanes f (x i) md u)

/-- R192: VCVT between formats of which one or both are floating; a lane past the source's writes 0 and takes no step. -/
def Claims.VectorConversion : Prop :=
  ∀ (s : State) (d a b : Reg) (g : BitVec 6), s.th.lanes ≤ 10 → g.toNat ≤ 10 → 5 < s.th.lanes ∨ 5 < g.toNat →
    let n := widthOf s.th.lanes
    let w := widthOf g.toNat
    let o := (s.readReg b).toNat % 16
    RoundsLanes (.vcvt d a b g) s d w (min (64 / w) (64 / n - o)) (fun md u i =>
      convert s.th.lanes g.toNat md u (lane (s.readReg a) n (o + i)))

/-- A finite value that is the integer k; one that is 2^k, with a sign. -/
def Claims.IsInt (v : Val) (k : Int) : Prop :=
  ∃ n m e, v = .fin n m e ∧ (if 0 ≤ e then k = (if n then -1 else 1) * m * 2 ^ e.toNat else k * 2 ^ (-e).toNat = (if n then -1 else 1) * m)
def Claims.IsPow (v : Val) (n : Bool) (k : Int) : Prop := ∃ (j : Nat) (e : Int), v = .fin n (2 ^ j) e ∧ k = j + e

/-- R196: the exact results of the special functions, and the flags they set, in every floating lane format: for NaN,
infinities, zeros and negative operands, and for powers of two (an integer operand of VEXP2, 2^k of VLOG2 and VRCP, 4^k of
VRSQ) whose result the format holds. E4M3 has no infinity: that its largest value stands for one, with the flags of R196's own
row, is the model's choice (log 5). -/
def Obligations.SpecialFunctionCorners : Prop :=
  ∀ (c x m u : Nat) (f : Fmt), fmtOf c = some f → x < 2 ^ f.width →
    let v := f.val x
    (v.isNan = true → ∀ fn < 4, specialFn fn c f x m u = (f.nan, nvIf v.isSnan)) ∧
    (v = .inf true → specialFn 0 c f x m u = (0, 0)) ∧
    (v = .inf false → specialFn 0 c f x m u = (f.inf false, 0) ∧ specialFn 1 c f x m u = (f.inf false, 0) ∧
      specialFn 3 c f x m u = (0, 0)) ∧
    (v.isZero = true → specialFn 1 c f x m u = (f.inf true, fDZ) ∧ specialFn 2 c f x m u = (f.inf v.neg, fDZ) ∧
      specialFn 3 c f x m u = (f.inf v.neg, fDZ)) ∧
    (v.neg = true → v.isZero = false → specialFn 1 c f x m u = (f.nan, fNV) ∧ specialFn 3 c f x m u = (f.nan, fNV)) ∧
    (∀ n, v = .inf n → specialFn 2 c f x m u = (f.zero n, 0)) ∧
    ∀ (z : Nat) (k : Int), z < 2 ^ f.width →
      (IsInt v k → IsPow (f.val z) false k → specialFn 0 c f x m u = (z, 0)) ∧
      (IsPow v false k → IsInt (f.val z) k → (f.val z).neg = decide (k < 0) → specialFn 1 c f x m u = (z, 0)) ∧
      (∀ n, IsPow v n k → IsPow (f.val z) n (-k) → specialFn 2 c f x m u = (z, 0)) ∧
      (IsPow v false (2 * k) → IsPow (f.val z) false (-k) → specialFn 3 c f x m u = (z, 0))

/-- R187, R188: the floating reductions run through FP32, an initial operand first and then the lanes in ascending order,
one rounding and, in mode SR, one step of the seed each. -/
def Claims.VectorFloatReductions : Prop :=
  ∀ (s : State) (d a b : Reg) (f : Fmt), fmtOf s.th.lanes = some f →
    let n := f.width
    let m := 64 / n
    let x := fun (i : Nat) => f.val (lane (s.readReg a) n i)
    let y := fun (i : Nat) => f.val (lane (s.readReg b) n i)
    let run := fun (acc : Word) (op : (mode u : Nat) → Val → Nat → Nat × Flags5) =>
      (List.range m).foldl (fun (r : Nat × Flags5 × Word) k =>
        let sd := if s.th.mode = 5 then seedNext r.2.2 else r.2.2
        let w := if s.th.mode = 5 then op 5 (seedU sd) (fp32.val r.1) k else op s.th.mode 0 (fp32.val r.1) k
        (w.1, r.2.1 ||| w.2, sd)) (acc.toNat % 2 ^ 32, s.th.fxf, s.th.seed)
    let ends := fun (i : Instr) (r : Nat × Flags5 × Word) => GivesF i s d (wordN r.1) r.2.1 r.2.2
    ends (.vdot d a b) (run (s.readReg d) (fun md u acc k => fp32.fma md u (x k) (y k) acc)) ∧
    ends (.vsum d a b) (run (s.readReg b) (fun md u acc k => fp32.add md u acc (x k))) ∧
    (let best := (List.range m).foldl (fun (r : Nat × Flags5) k =>
        if k = 0 then (lane (s.readReg a) n 0, r.2)
        else let w := f.minMax true r.1 (lane (s.readReg a) n k); (w.1, r.2 ||| w.2)) (0, s.th.fxf)
     GivesF (.vmaxr d a) s d (if (f.val best.1).isNan then 0x7FC00000 else wordN (fp32.conv 0 0 (f.val best.1)).1) best.2
       s.th.seed)

/-- R187, R188, R192: floating reductions, and conversion to or from a floating format. -/
def Obligations.VectorReductionsAndConversion : Prop := VectorFloatReductions ∧ VectorConversion

/-! ## Tensors and the cell under one thread (07 R200 to R210) -/

/-- A core slot of the tensor table is loaded with a descriptor. -/
def Claims.Loaded (s : State) (t : Reg) (d : List Word) : Prop := tfind s.me.tens t.toNat = some d

/-- R200, R204: TLD of an own address loads the slot with the 64 bytes there unless their check fails; TST stores the
slot's eight doublewords, zeros for an empty slot; TSETF changes one doubleword of a loaded slot, or nothing. -/
def Obligations.TensorTable : Prop :=
  ∀ (s : State) (a b t : Reg), s.me.ls.wf = true →
    let p := s.readReg a
    let d := (List.range 8).map (fun i => wordN (s.lsValue (p.toNat + 8 * i) 8))
    (s.OwnRead p 64 → s.me.tape = none →
      (Desc.illegal d = false → ∃ u, Ends (.tld a t) s u [] (fun k => { k with tens := tset k.tens t.toNat d })) ∧
      (Desc.illegal d = true → exec (.tld a t) s = .next (s.trap .illegal))) ∧
    (∀ e, (tfind s.me.tens t.toNat).getD (List.replicate 8 0) = e → e.length = 8 → s.OwnAccess p 64 → ∃ u l m, EndsStore (.tst a t) s u [] (fun k => { k with ls := l, lsUe := m }) ∧
      (∀ i < 8, ∀ j < 8, u.lsByte s.cur.1 (p.toNat + 8 * i + j) = BitVec.ofNat 8 (byteOf (e.getD i 0).toNat j)) ∧
      ∀ x, x < p.toNat ∨ p.toNat + 64 ≤ x → u.lsByte s.cur.1 x = s.lsByte s.cur.1 x) ∧
    (tfind s.me.tens t.toNat = none → exec (.tsetf a b t) s = .next (s.trap .illegal)) ∧
    (∀ e, Loaded s t e → e.length = 8 →
      let d' := e.set ((s.readReg b).toNat % 8) p
      (Desc.illegal d' = false → ∃ u, Ends (.tsetf a b t) s u [] (fun k => { k with tens := tset k.tens t.toNat d' })) ∧
      (Desc.illegal d' = true → exec (.tsetf a b t) s = .next (s.trap .illegal)))

/-- R205 to R207: GEO writes the geometry and derives gsm, gsn and gmk from it and the core's place; MZERO clears the
accumulators, sums and installed words; MLATCH writes one word of the latch. While an MTILE runs in the cell the last two
wait. -/
def Claims.GeometryAndCell : Prop :=
  ∀ (s : State) (a : Reg) (j : BitVec 2),
    let v := s.readReg a
    let (m, n) := (v.toNat % 2 ^ 20, v.toNat / 2 ^ 20 % 2 ^ 20)
    let (tm, tn) := (v.toNat / 2 ^ 40 % 256, v.toNat / 2 ^ 48 % 256)
    let vm := min (m - s.me.cy * tm) tm
    let vn := min (n - s.me.cx * tn) tn
    (∃ t l, Ends (.geo a) s t [] (fun k => { k with
      hist := l, geo := wordN (v.toNat % 2 ^ 56), gsm := wordN (k.cy * tm), gsn := wordN (k.cx * tn),
      gmk := wordN (vm + vn * 2 ^ 16 + if vm = 0 ∨ vn = 0 then 2 ^ 32 else 0) })) ∧
    (s.me.cellBusy = false →
      (∃ t, Ends .mzero s t [] (fun k => { k with
        ac := Vector.replicate 16 0, fa := Vector.replicate 16 0, sa := Vector.replicate 4 0, sb := Vector.replicate 4 0,
        gcount := 0, scaleA := 0, scaleB := 0, zpA := 0, zpB := 0 })) ∧
      ∃ t l, Ends (.mlatch a j) s t [] (fun k => { k with latch := l }) ∧
        ∀ i : Fin 4, l.get i = if i.val = j.toNat then v else s.me.latch.get i) ∧
    (s.me.cellBusy = true →
      (∃ t, Leaves .mzero s t id (fun h => h.await (.retry .mzero))) ∧
      ∃ t, Leaves (.mlatch a j) s t id (fun h => h.await (.retry (.mlatch a j))))

/-- R82, R175, R205 to R207: cell registers, geometry, clearing and the latch. -/
def Obligations.CellAndGeometry : Prop := CellRegisters ∧ GeometryAndCell

/-- R208, R300: MTILE with two loaded operands of one cell format and no other MTILE in the core captures descriptors and
operands, asks its die for leave and waits for its last k-step; behind another MTILE it waits for the cell; descriptors that
do not agree are ILLEGAL, and so is an unloaded slot. -/
def Claims.TileStart : Prop :=
  (∀ (s : State) (u a b t : Reg) (q : BitVec 2), tfind s.me.tens t.toNat = none ∨ tfind s.me.tens u.toNat = none →
    exec (.mtile u a b t q) s = .next (s.trap .illegal)) ∧
  ∀ (s : State) (u a b t : Reg) (q : BitVec 2) (x y : List Word), Loaded s t x → Loaded s u y →
    let agree := Desc.fmt x = Desc.fmt y ∧ cellCode (Desc.fmt x) = true ∧ Desc.grp x = Desc.grp y ∧
      (q ≠ 0 → Desc.pat x = true ∧ q ≠ 3)
    (¬agree → exec (.mtile u a b t q) s = .next (s.trap .illegal)) ∧
    (agree → s.me.mtile.isSome = true ∨ s.me.ahead s.cur.2 isMtile = true → ∃ v,
      Leaves (.mtile u a b t q) s v id (fun h => h.await (.retry (.mtile u a b t q)))) ∧
    (agree → s.me.mtile = none → s.me.ahead s.cur.2 isMtile = false → ∃ v, exec (.mtile u a b t q) s = .next v ∧
      v.me.mtile = some { slot := s.cur.2, inc := s.th.inc, desA := x, desB := y, m0 := (s.readReg a).toNat % 2 ^ 32,
                          n0 := (s.readReg a).toNat / 2 ^ 32, k := (s.readReg b).toNat % 2 ^ 32, q := q.toNat } ∧
      v.th = s.th.await .mtile ∧ { v.me with threads := s.me.threads, mtile := s.me.mtile } = s.me ∧
      (∀ c, c ≠ s.cur.1 → v.core c = s.core c) ∧ SameMemory s v ∧
      { v with cores := s.cores, dieTab := s.dieTab, inflight := s.inflight } = s ∧
      (∀ d, d ≠ dieOf s.cur.1 → v.die d = s.die d) ∧
      ∃ r, (v.die (dieOf s.cur.1)).queue = (s.die (dieOf s.cur.1)).queue ++ [r] ∧ r.core = s.cur.1 ∧ r.slot = s.cur.2 ∧ r.w = mtileLeave (Desc.fmt x))

/-- The elements an MST stores, in its order (R210): accumulator lane, row and column of C. -/
def Claims.tileElems (a b : Word) : List (Nat × Nat × Nat) :=
  (List.range (min (b.toNat % 8) 4)).flatMap (fun i => (List.range (min (b.toNat / 16 % 8) 4)).map (fun j =>
    (4 * i + j, a.toNat % 2 ^ 32 + i, a.toNat / 2 ^ 32 + j)))

/-- What an MST stores of the lanes listed, in order, with the flags it raises and the seed it leaves (R60 to R62, R64, R210):
an accumulator read as INT32 is clamped to an integer format with no rounding; every other element rounds in the effective
mode, in mode SR with one step of the seed, in a grouped C with the scale and zero point of its group. -/
def Claims.tileValues (s : State) (fmt : Nat) (b : Word) (params : Nat → Nat × Int) (lanes : List Nat) : List Nat × Flags5 × Word :=
  let float := b.getLsbD 8 || b.getLsbD 9
  let raw := fun (l : Nat) => (if b.getLsbD 8 then s.me.fa.get (lane16 0 l) else s.me.ac.get (lane16 0 l)).toNat
  let value := fun (l : Nat) => if float then fp32.val (raw l) else valInt (sx (raw l) 32)
  let w := widthOf fmt
  let rounded := fun (mode u l : Nat) => if fmt = 13 then toGrouped 8 mode u (value l) (params l).1 (params l).2
    else match fmtOf fmt with
      | some m => m.conv mode u (value l)
      | none => (low (toInt w mode u (value l)).1 w, (toInt w mode u (value l)).2)
  lanes.foldl (fun r l =>
    if !float && fmt ≤ 5 then
      (r.1 ++ [low (max (-(2 ^ (w - 1) : Int)) (min ((2 ^ (w - 1) : Int) - 1) (sx (raw l) 32))) w], r.2)
    else if s.th.mode = 5 then
      let sd := seedNext r.2.2
      (r.1 ++ [(rounded 5 (seedU sd) l).1], r.2.1 ||| (rounded 5 (seedU sd) l).2, sd)
    else (r.1 ++ [(rounded s.th.mode 0 l).1], r.2.1 ||| (rounded s.th.mode 0 l).2, r.2.2)) ([], 0, s.th.seed)

/-- R210, R203, R145: MST stores vm × vn elements in order, each converted in the effective mode; those inside C are written to
their places in the own local store, the higher element standing where two meet, and those beyond an extent are dropped and
counted; flags and seed are left as the conversions leave them, and nothing else changes. The model's choices: the elements take place
together (log 36); one beyond the extents is converted with the group of the clamped column and the line of the clamped row
(log 81); accesses are checked before parameters are read (log 84). The first element whose access faults raises its fault and
nothing is written. MST of an unloaded slot, a 4-bit, INT6
or K-format C is ILLEGAL. -/
def Claims.AccumulatorStore : Prop :=
  (∀ (s : State) (a b t : Reg), tfind s.me.tens t.toNat = none → exec (.mst a b t) s = .next (s.trap .illegal)) ∧
  ∀ (s : State) (a b t : Reg) (d : List Word), Loaded s t d →
    let fmt := Desc.fmt d
    let n := Desc.bytesOf d
    let bad := Desc.bitsOf d = 4 ∨ fmt = 2 ∨ blockCode fmt = true
    let es := tileElems (s.readReg a) (s.readReg b)
    let inside := fun (e : Nat × Nat × Nat) => Desc.inside d e.2.2 e.2.1 0 0
    let addr := fun (e : Nat × Nat × Nat) => Desc.addr d e.2.2 e.2.1 0 0
    (bad → exec (.mst a b t) s = .next (s.trap .illegal)) ∧
    (∀ l e r c fa, ¬bad → es = l ++ e :: r → (∀ x ∈ l, inside x = true → s.OwnAccess (addr x) n) → inside e = true →
      s.place s.cur.1 (addr e) n 2 = .trap c fa → exec (.mst a b t) s = .next (s.trap c fa)) ∧
    (∀ params, ¬bad → fmt ≤ 14 → s.me.ls.wf = true → (∀ e ∈ es, inside e = true → s.OwnAccess (addr e) n) →
      (fmt = 13 → ∀ e ∈ es, s.groupParams s.cur.1 s.cur.2 (stationUnit s.cur.1) d 0 (Desc.lineAt d 0 1 e.2.1)
        (Desc.global d 0 (Desc.clampTo d 0 e.2.2) / Desc.group d) = (s, .ok (params e.1))) →
      let r := tileValues s fmt (s.readReg b) params (es.map (·.1))
      let dropped := (es.filter (fun e => !inside e)).length
      ∃ u, exec (.mst a b t) s = .next u ∧ (∀ q, u.th.reg q = s.th.reg q) ∧ s.th.Completes u.th (s.th.fxf ||| r.2.1) r.2.2 ∧
        Writes s u (fun k => { k with
          ls := u.me.ls, lsUe := u.me.lsUe, drop := if dropped = 0 then k.drop else min 0xFFFF (k.drop + dropped) }) ∧
        (∀ x, u.lsByte s.cur.1 x = (es.zip r.1).foldl (fun v e =>
          if inside e.1 = true ∧ (addr e.1).toNat ≤ x ∧ x < (addr e.1).toNat + n then
            BitVec.ofNat 8 (e.2 / 256 ^ (x - (addr e.1).toNat)) else v) (s.lsByte s.cur.1 x)) ∧
        ∀ c, c ≠ s.cur.1 → ∀ x, u.lsByte c x = s.lsByte c x)

/-! ## Benches as threads see them (07 R211 to R225) -/

/-- R211, R212, R214, R300, 02 R45: GANG with a format no cell computes in is ILLEGAL; a malformed word is refused with status 4
and a rectangle outside the field with status 3. Otherwise its claim is to ask every die that holds a cell, in ascending die
number, for that die's cells times the amount of the format and mode; its request stands last before the governor of the
lowest such die, and the thread waits. Nothing else changes. -/
def Claims.GangClaims : Prop :=
  ∀ (s : State) (d a b : Reg),
    let (x, y) := (s.readReg a, s.readReg b)
    let fmt := y.toNat / 4 % 32
    let noCell := fmt ∉ [0, 1, 6, 7, 8, 9, 10, 11, 12, 13, 14]
    let bad := x.toNat / 2 ^ 42 ≠ 0 ∨ gangOpBad (rectH x) y = true
    (noCell → exec (.gang d a b) s = .next (s.trap .illegal)) ∧
    (¬noCell → bad → Gives (.gang d a b) s d 4) ∧ (¬noCell → ¬bad → gangOutside s.me x y = true → Gives (.gang d a b) s d 3) ∧
    (∀ i f, ¬noCell → ¬bad → gangOutside s.me x y = false → s.me.field = some i → tfind s.fields i = some f →
      let (w, h) := (x.toNat / 2 ^ 22 % 2 ^ 10 + 1, x.toNat / 2 ^ 32 % 2 ^ 10 + 1)
      let per := if fmt ∈ [1, 12, 14] then 3600 else if fmt ∈ [8, 9] then 3400 else if fmt ≠ 10 then 3800
        else if y.toNat % 4 = 0 then 3600 else 2600
      ∃ t q, exec (.gang d a b) s = .next t ∧ t.claims = s.claims ++ [q] ∧
      q.core = s.cur.1 ∧ q.slot = s.cur.2 ∧ q.inc = s.th.inc ∧ q.rect = x ∧ q.op = y ∧ q.held = [] ∧ q.taken = [] ∧
      (q.x0 : Int) = s.me.cx + sx (x.toNat % 2 ^ 11) 11 ∧ (q.y0 : Int) = s.me.cy + sx (x.toNat / 2 ^ 11 % 2 ^ 11) 11 ∧
      q.w = w ∧ q.h = h ∧
      (let cells := (List.range h).flatMap (fun r => (List.range w).map (fun c => s.lcnPos f ((q.y0 + r) * f.fw + (q.x0 + c))))
       let on := fun (d : Nat) => (cells.filter (fun p => dieOf p = d)).length
       q.ask = ((List.range 9).filter (fun d => on d ≠ 0)).map (fun d => (d, on d * per))) ∧
      (∀ e r, q.ask = e :: r → (t.die e.1).queue = (s.die e.1).queue ++ [⟨s.cur.1, s.cur.2, s.th.inc, e.2, e.2, false⟩] ∧
        t.Sent (.leaveGrant e.1) ∧ { t.die e.1 with queue := (s.die e.1).queue } = s.die e.1 ∧ ∀ j, j ≠ e.1 → t.die j = s.die j) ∧
      t.th = s.th.await (.gang d) ∧ { t.me with threads := s.me.threads } = s.me ∧ (∀ c, c ≠ s.cur.1 → t.core c = s.core c) ∧
      { t with cores := s.cores, claims := s.claims, dieTab := s.dieTab, inflight := s.inflight } = s ∧ SameMemory s t)

/-- R216, R218, R221, 11 R308: FEED appends its word and tag behind those in the neighbour's queue, one word in a tick, or waits
for room, behind an earlier FEED, or for the next tick; DRAIN takes the oldest entry that has arrived, one in a tick, or waits.
Other directions are ILLEGAL, and begin with reason 3 the thaw of a bench whose cell lies there. FEED with no neighbour raises PROT,
its record's address 0 (the model's reading, log 96). -/
def Obligations.FeedsAndDrains : Prop :=
  ∀ (s : State) (a b d : Reg) (q : BitVec 2),
    let fed := fun (n : Nat) => s.me.moved n s.cyc
    let traps := fun (i : Instr) => ∃ t, exec i s = .next t ∧
      { t with benches := s.benches, inflight := (s.trap .illegal).inflight } = s.trap .illegal ∧
      (∀ n x y, s.neighbour s.cur.1 q.toNat = some n → (s.core n).cell = some x → tfind s.benches x.bench = some y → y.reason = 0 →
        tfind t.benches x.bench = some { y with reason := 3 }) ∧
      ((∀ n, s.neighbour s.cur.1 q.toNat = some n → (s.core n).cell = none) → t = s.trap .illegal)
    let waits := fun (i : Instr) => ∃ t, Leaves i s t id (fun h => h.await (.retry i))
    (q ≠ 1 → q ≠ 2 → traps (.feed a b q)) ∧ (q ≠ 0 → q ≠ 3 → traps (.drainWord d b q)) ∧
    (q = 1 ∨ q = 2 → s.neighbour s.cur.1 q.toNat = none → exec (.feed a b q) s = .next (s.trap .prot)) ∧
    (∀ n, q = 1 ∨ q = 2 → s.neighbour s.cur.1 q.toNat = some n → n ≠ s.cur.1 →
      let lane := fun (k : Core) => if q = 2 then k.northIn else k.westIn
      (s.me.ahead s.cur.2 (feedsTo q) = false → (lane (s.core n)).length < 8 → fed q.toNat = 0 → fed (4 + q.toNat) < 2 →
        ∃ t x r, exec (.feed a b q) s = .next t ∧ lane (t.core n) = lane (s.core n) ++ [x] ∧
        x.v = s.readReg a ∧ x.tag = (s.readReg b).toNat % 256 ∧ (∀ r, t.th.reg r = s.th.reg r) ∧
        { t.core n with westIn := (s.core n).westIn, northIn := (s.core n).northIn } = s.core n ∧
        { t.me with threads := s.me.threads } = { s.me with rates := r } ∧ (∀ c, c ≠ n → c ≠ s.cur.1 → t.core c = s.core c) ∧
        { t with cores := s.cores, inflight := s.inflight } = s ∧ s.th.Completes t.th s.th.fxf s.th.seed) ∧
      (s.me.ahead s.cur.2 (feedsTo q) = true ∨ 8 ≤ (lane (s.core n)).length ∨ fed q.toNat ≠ 0 ∨ 2 ≤ fed (4 + q.toNat) →
        waits (.feed a b q))) ∧
    (∀ e l, s.me.ahead s.cur.2 (drainsFrom q) = false → e.at' ≤ s.cyc → fed (8 + q.toNat) = 0 →
      (q = 0 → s.me.drainN = e :: l → ∃ t r, Ends (.drainWord d b 0) s t [(d, e.lo), (b, e.hi)] (fun k => { k with drainN := l, rates := r })) ∧
      (q = 3 → s.me.drainW = e :: l → ∃ t r, Ends (.drainWord d b 3) s t [(d, e.lo), (b, e.hi)] (fun k => { k with drainW := l, rates := r }))) ∧
    (q = 0 ∨ q = 3 →
      let drain := if q = 0 then s.me.drainN else s.me.drainW
      (drain = [] ∨ s.me.ahead s.cur.2 (drainsFrom q) = true ∨ (∃ e l, drain = e :: l ∧ s.cyc < e.at') ∨ fed (8 + q.toNat) ≠ 0 →
        waits (.drainWord d b q)))

/-- R224, R225, R66, R222: THAW of a core that is no cell is answered 1 and changes nothing; of a cell it is answered 0 and the
bench begins thaw with reason 8 unless a thaw had begun. GSTAT of the own core completes with the count and the sticky bits of
a live cell, reason 0, or gst, with the bit of a face core; of another core the same value is its answer. A logical core number
outside the field is PROT, its record's address 0 (the model's reading, log 96). -/
def Claims.ThawAndStatus : Prop :=
  ∀ (s : State) (d a : Reg),
    let n := (s.readReg a).toNat
    (s.me.fw * s.me.fh ≤ n → exec (.thawBench d a) s = .next (s.trap .prot) ∧ exec (.gstat d a) s = .next (s.trap .prot)) ∧
    ∀ i f p, n < s.me.fw * s.me.fh → s.me.field = some i → tfind s.fields i = some f → s.lcnPos f n = p →
      ((s.core p).cell = none → ∃ t rs, Leaves (.thawBench d a) s t (fun k => { k with replies := k.replies ++ [rs] })
        (fun h => h.await (.reply [(d, 1)]))) ∧
      (∀ x b, (s.core p).cell = some x → tfind s.benches x.bench = some b → ∃ t, exec (.thawBench d a) s = .next t ∧
        t.th = s.th.await (.reply [(d, 0)]) ∧ SameMemory s t ∧
        ∃ b', tfind t.benches x.bench = some b' ∧ b'.reason = (if b.reason = 0 then 8 else b.reason) ∧
          { b' with reason := b.reason } = b) ∧
      (let bit := fun (b : Bool) => if b then 1 else 0
       let v := wordN ((match (s.core p).cell with
         | some x => x.pulses % 2 ^ 32 * 2 ^ 32 + bit x.iovf * 2 ^ 11 + bit x.inv * 2 ^ 10 + bit x.ovf * 2 ^ 9 + bit x.tag * 2 ^ 8 + 1
         | none => (s.core p).gst.toNat) + if (s.core p).faces = [] then 0 else 2)
       (p = s.cur.1 → Gives (.gstat d a) s d v) ∧
       (p ≠ s.cur.1 → ∃ t rs, Leaves (.gstat d a) s t (fun k => { k with replies := k.replies ++ [rs] })
         (fun h => h.await (.reply [(d, v)]))))

/-- R211 to R215, R224, R225: GANG, THAW and GSTAT. -/
def Obligations.GangAndThaw : Prop := GangClaims ∧ ThawAndStatus

/-! ## Engine commands, generators, deque and tape (08 R226 to R262) -/

/-- R145, R227: a counter operand that is refused, with the cause: as an access of eight bytes is, window 0x3 with PROT. -/
def Claims.CounterDenied (s : State) (p : Word) (e : Cause) : Prop :=
  let q := s.part s.me.part
  (¬OneWindow p 8 ∧ e = .window) ∨ (OneWindow p 8 ∧ p.toNat % 8 ≠ 0 ∧ e = .align) ∨
  (p.toNat / 2 ^ 60 = 3 ∧ p.toNat % 8 = 0 ∧ e = .prot) ∨
  (p.toNat / 2 ^ 35 = 2 ^ 25 ∧ p.toNat % 8 = 0 ∧
    (q.w ≤ p.toNat / 2 ^ 15 % 2 ^ 10 ∨ q.h ≤ p.toNat / 2 ^ 25 % 2 ^ 10 ∨ 0x6000 ≤ p.toNat % 2 ^ 15) ∧ e = .prot) ∨
  (p.toNat / 2 ^ 48 = 0x2000 ∧ p.toNat % 8 = 0 ∧ ∃ x, s.cached (stationUnit s.cur.1) s.me.part (p.toNat % 2 ^ 48) = some x ∧
    s.denies x 3 = some e)

/-- R227: a counter operand that is accepted: none, or one of the own local store, another core's or HBM's. -/
def Claims.CounterTaken (s : State) (p : Word) : Prop :=
  p = 0 ∨ (∃ off, s.place s.cur.1 p 8 3 = .own off ∨ s.place s.cur.1 p 8 3 = .high off) ∨
  ∃ r, s.place s.cur.1 p 8 3 = .far r ∧ ∀ q h o j, r ≠ .imp q h o j

/-- R226, R228, R239: the range a GATHER, SCATTER or SCATADD is refused for at issue, by its list word, its tensor's base and its
repeat field: alignment of the list and the fault vector, then the base, then the bounds; a repeated one's own ranges are checked
when the sequencer takes it. -/
def Claims.listFault (word base : Word) (q : BitVec 2) : Option (Cause × Word) :=
  let list := wbits word 14 0
  let vector := wbits word 30 16
  let rows := wbits word 47 32
  if wbits base 63 60 ≠ 2 ∧ q ≠ 0 then some (.prot, base)
  else if q ≠ 0 then none
  else if list % 4 ≠ 0 then some (.align, wordN list)
  else if vector % 8 ≠ 0 then some (.align, wordN vector)
  else if wbits base 63 60 ≠ 2 then some (.prot, base)
  else if 0x6000 < vector + 8 * ((rows + 63) / 64) then some (.prot, wordN vector)
  else if wbit word 15 = false ∧ 0x6000 < list + 4 * rows then some (.prot, wordN list)
  else none

/-- R226 to R228, R217: an engine command with a counter and a range it may name stands, once issued, before the sequencer in
issue order with its operands captured, and its thread waits for acceptance; one whose slots or fields are not allowed is
ILLEGAL, one whose counter is not allowed takes that address's fault and one whose range is not the range's, in this order, and none
has an effect; a counter whose translation is not at hand waits for a walk. A FEEDS that traps with a cell fed
from there begins, with reason 3, the thaw of that cell's bench; the address 0 of its PROT where no core lies is the model's choice
(log 96). -/
def Claims.EngineCommandsIssue : Prop :=
  ∀ (s : State) (d a b c t : Reg) (q : BitVec 2),
    let kicked := fun (u : State) (e : Cause) (fa : Word) =>
      ((s.trap e fa).core s.cur.1).seqq ≠ [] → ∃ n, (n, Action.ev (.sequencerAccept s.cur.1)) ∈ u.inflight
    let walks := fun (i : Instr) (n : Word) => n ≠ 0 → ∀ va acc, s.place s.cur.1 n 8 3 = .miss va acc → ∃ u,
      Leaves i s u id (fun h => h.await (.walk (some i) va acc)) ∧ u.Sent (.translationWalk s.cur.1 s.cur.2)
    let taken := fun (i : Instr) (z : Word) => ∃ u,
      Leaves i s u (fun k => { k with seqq := insertCmd k.seqq (s.mkCmd i (s.readReg a) (s.readReg b) z) }) (fun h => h.await .seq) ∧
      ∃ n, (n, Action.ev (.sequencerAccept s.cur.1)) ∈ u.inflight
    let issued := fun (i : Instr) (z n : Word) (fault : Option (Cause × Word)) =>
      let cmd := s.mkCmd i (s.readReg a) (s.readReg b) z
      let traps := fun (e : Cause) (fa : Word) => ∃ u, exec i s = .next u ∧
        { u with inflight := (s.trap e fa).inflight } = s.trap e fa ∧ kicked u e fa
      (cmd.bad s.me = true → traps .illegal 0) ∧
      (cmd.bad s.me = false →
        (∀ e, CounterDenied s n e → traps e n) ∧ walks i n ∧
        (CounterTaken s n → (∀ e fa, fault = some (e, fa) → traps e fa) ∧ (fault = none → taken i z)))
    let ofList := (tfind s.me.tens t.toNat).bind (fun x => listFault (s.readReg a) (Desc.base x) q)
    issued (.copyElems d a b t q) 0 (s.readReg a) none ∧ issued (.copy2 d a b t q) 0 (s.readReg a) none ∧
    issued (.copyring d a b t) 0 (s.readReg a) none ∧ issued (.qjoin a b) 0 (s.readReg a) none ∧
    issued (.gather c a b t q) (s.readReg c) (s.readReg c) ofList ∧
    issued (.scatter c a b t q) (s.readReg c) (s.readReg c) ofList ∧
    issued (.scatadd c a b t q) (s.readReg c) (s.readReg c) ofList ∧
    let i := Instr.feeds c a b t q
    let faces := fun (e : Cause) (fa : Word) => ∃ u, exec i s = .next u ∧
      { u with benches := s.benches, inflight := (s.trap e fa).inflight } = s.trap e fa ∧
      (∀ n x y, s.neighbour s.cur.1 q.toNat = some n → (s.core n).cell = some x → tfind s.benches x.bench = some y → y.reason = 0 →
        tfind u.benches x.bench = some { y with reason := 3 })
    (q = 1 ∨ q = 2 → ∀ n x, s.neighbour s.cur.1 q.toNat = some n → Loaded s t x →
      (∀ e, CounterDenied s (s.readReg c) e → faces e (s.readReg c)) ∧ walks i (s.readReg c) ∧
      (CounterTaken s (s.readReg c) → taken i (s.readReg c))) ∧
    (q = 1 ∨ q = 2 → (s.me.slot t.toNat).isSome = true → s.neighbour s.cur.1 q.toNat = none → exec i s = .next (s.trap .prot)) ∧
    ((q ≠ 1 ∧ q ≠ 2) ∨ tfind s.me.tens t.toNat = none → faces .illegal 0 ∧
      ((∀ n, s.neighbour s.cur.1 q.toNat = some n → (s.core n).cell = none) → exec i s = .next (s.trap .illegal)))

/-- R217, R235 to R239, R242: which engine commands are refused as ILLEGAL: a slot not loaded among them. That a list beside G
= 1, or bits 63 to 33 of rb beside S.P = 1, that are not zero are refused so is the model's choice (log 98). -/
def Claims.EngineCommandChecks : Prop :=
  ∀ (s : State) (d a b c t : Reg) (q : BitVec 2),
    let bad := fun (i : Instr) (z : Word) => (s.mkCmd i (s.readReg a) (s.readReg b) z).bad s.me = true
    let rb := s.readReg b
    let word := s.readReg a
    let rows := wbits word 47 32
    let family := wbits word 63 48 ≠ 0 ∨ 4096 < rows ∨ (wbit word 15 = true ∧ wbits word 14 0 ≠ 0)
    (tfind s.me.tens t.toNat = none ∨ tfind s.me.tens d.toNat = none →
      bad (.copyElems d a b t q) 0 ∧ bad (.copy2 d a b t q) 0 ∧ bad (.copyring d a b t) 0) ∧
    (tfind s.me.tens t.toNat = none → bad (.gather c a b t q) (s.readReg c) ∧ bad (.scatter c a b t q) (s.readReg c) ∧
      bad (.scatadd c a b t q) (s.readReg c)) ∧ ¬bad (.qjoin a b) 0 ∧
    ∀ x y, Loaded s t x → Loaded s d y →
      (bad (.copyElems d a b t q) 0 ↔ Desc.fmt x ≠ Desc.fmt y ∨ (Desc.pat x = true ∧ wbits rb 63 33 ≠ 0)) ∧
      (bad (.copy2 d a b t q) 0 ↔ Desc.fmt x ≠ Desc.fmt y ∨ Desc.pat x = true) ∧
      (bad (.copyring d a b t) 0 ↔ Desc.fmt x ≠ Desc.fmt y ∨ Desc.pat x = true ∨ s.me.ring.isSome = true ∨
        wbits rb 7 0 = 0 ∨ wbits rb 15 8 < wbits rb 7 0 ∨ 16 < wbits rb 15 8) ∧
      (bad (.gather c a b t q) (s.readReg c) ↔ family ∨ (Desc.bitsOf x = 4 ∧ Desc.ndim x = 1)) ∧
      (bad (.scatter c a b t q) (s.readReg c) ↔ family ∨ (Desc.bitsOf x = 4 ∧ Desc.ndim x = 1)) ∧
      (bad (.scatadd c a b t q) (s.readReg c) ↔ family ∨ Desc.fmt x ∉ [4, 5, 10])

/-- R145, R217, R226 to R228, R235 to R239, R242: engine commands at issue. -/
def Obligations.EngineCommands : Prop := EngineCommandsIssue ∧ EngineCommandChecks

/-- R237, R238: RINGADV with no ring answers 0; with a chunk filled it releases the one returned before, answers with the
address of the next one's stage and returns it; with every chunk returned it ends the ring; otherwise it waits. -/
def Claims.RingAdvances : Prop :=
  ∀ (s : State) (d : Reg), s.me.ahead s.cur.2 isRingadv = false →
    (s.me.ring = none → Gives (.ringadv d) s d 0) ∧
    ∀ r, s.me.ring = some r →
      let n := r.released + if r.held then 1 else 0
      (n < r.cmd.total → n < r.filled → ∃ t r', Ends (.ringadv d) s t [(d, r.cmd.stageAddr n (0, 0, 0, 0))]
          (fun k => { k with ring := some r' }) ∧ r'.released = n ∧ r'.held = true ∧ r'.filled = r.filled ∧ r'.cmd = r.cmd) ∧
      (n < r.cmd.total → r.filled ≤ n → ∃ t r', Leaves (.ringadv d) s t (fun k => { k with ring := some r' })
          (fun h => h.await (.retry (.ringadv d))) ∧ r'.released = n ∧ r'.held = false) ∧
      (r.cmd.total ≤ n → ∃ t, Ends (.ringadv d) s t [(d, 0)] (fun k => { k.retirable r.cmd.id with ring := none }))

/-- R234: CSTAT reads the engine status and then clears the counters its operand names. -/
def Claims.EngineStatus : Prop :=
  ∀ (s : State) (d a : Reg),
    let m := s.readReg a
    let k := s.me
    let bit := fun (b : Bool) => if b then 1 else 0
    let status := k.drop % 2 ^ 16 * 2 ^ 48 + k.efault % 2 ^ 16 * 2 ^ 32 + bit k.gf * 2 ^ 23 + bit k.ring.isSome * 2 ^ 22 +
      bit (k.copyHalt || k.ring.any (fun r => r.fault.isSome)) * 2 ^ 21 + bit k.gatHalt * 2 ^ 20 + k.copyQ.length % 4 * 2 ^ 18 +
      k.gatQ.length % 4 * 2 ^ 16 + bit k.tape.isSome * 2 ^ 15 + k.scb.length % 16
    ∃ t, Ends (.cstat d a) s t [(d, wordN status)] (fun k => { k with
      drop := if m.toNat / 2 ^ 48 ≠ 0 then 0 else k.drop, efault := if m.toNat / 2 ^ 32 % 2 ^ 16 ≠ 0 then 0 else k.efault,
      gf := k.gf && !m.getLsbD 23 })

/-- R234, R237, R238: RINGADV and CSTAT. -/
def Obligations.RingsAndEngineStatus : Prop := RingAdvances ∧ EngineStatus

/-- R245: a column under the KRONs in force, the earliest first. -/
def Claims.kronColumns (c : Int) (krons : List Nat) : List Int :=
  krons.foldl (fun l q => l.flatMap (fun v => (List.range q).map (fun (j : Nat) => v * q + (j : Int)))) [c]

/-- R244 to R246: what each operation of a pattern program does to its run, how a loop's pass ends, and how a run ends: columns
outside the pattern are dropped, kept ones rise, and PATFAULT is a stack too deep, a POPL with no entry of its own, a PUSHL left
or more than 2^20 operations. -/
def Claims.PatternRuns : Prop :=
  ∀ (ops : List Nat) (cols n : Nat) (x : PRun),
    let w := ops.getD x.pos 0xB000
    let code := bits w 15 12
    let y := { x with pos := x.pos + 1, done := x.done + 1 }
    let emits := fun (l : List Int) =>
      let kept := ((l.flatMap (kronColumns · x.krons)).filter (fun c => decide (0 ≤ c ∧ c < (cols : Int)))).map Int.toNat
      if (x.out.take 1 ++ kept).Pairwise (· < ·) then PStep.go { y with out := kept.reverse ++ x.out } else .bad
    let past := fun (p : Nat) => if bits (ops.getD p 0) 15 12 = 8 then p + 1 + bits (ops.getD p 0) 11 6 else p + 1
    (code = 0 → x.op ops cols = emits ((List.range (bits w 5 0 + 1)).map (fun (j : Nat) => x.c0 + x.rho + x.d * (sx (bits w 11 6) 6 + j)))) ∧
    (code = 1 → x.op ops cols = .go { y with d := ((bits w 11 0 + 1 : Nat) : Int) }) ∧
    (code = 2 → x.op ops cols = emits ((List.range (bits w 11 0 + 1)).map
      (fun (j : Nat) => x.c0 + (x.rho / (bits w 11 0 + 1) * (bits w 11 0 + 1) + j : Nat)))) ∧
    (code = 3 → x.op ops cols = .go { y with rho := x.rho / (bits w 11 6 + 1), krons := x.krons ++ [bits w 5 0 + 1] }) ∧
    (code = 4 → ∃ hs : List Nat, hs.Pairwise (· < ·) ∧
      (∀ h, h ∈ hs ↔ ∃ j < bits w 11 9 + 1, h = (0x9E3779B1 * (x.rho + 65536 * j) + bits w 8 0) % 2 ^ 32 % cols) ∧
      x.op ops cols = emits (hs.map (fun (h : Nat) => x.c0 + (h : Int)))) ∧
    (code = 5 → x.op ops cols = if x.rho % (bits w 11 6 + 1) = bits w 5 0 then .go y else .stop y) ∧
    (code = 6 → x.op ops cols = emits [x.c0 + (bits w 11 0 : Int)]) ∧
    (code = 7 → x.op ops cols = .go (if x.rho < bits w 7 0 then { y with pos := Nat.repeat past (bits w 11 8) y.pos } else y)) ∧
    (code = 8 → x.op ops cols = if 4 ≤ x.stack.length then .bad
      else .go { y with stack := .loop y.pos (y.pos + bits w 11 6) (bits w 5 0 + 1) x.c0 :: x.stack }) ∧
    (code = 9 → x.op ops cols = if 4 ≤ x.stack.length then .bad
      else .go { y with stack := .push x.c0 :: x.stack, c0 := x.c0 + sx (bits w 11 0) 12 }) ∧
    (code = 10 → (∀ v r, x.stack = .push v :: r → x.op ops cols = .go { y with c0 := v, stack := r }) ∧
      ((∀ v r, x.stack ≠ .push v :: r) → x.op ops cols = .bad)) ∧
    (code = 11 → x.op ops cols = .stop y) ∧
    (∀ a st sp l c b, x.stack = a ++ .loop st sp l c :: b → (∀ e ∈ a, ∃ v, e = PStack.push v) →
      (sp = x.pos → x.pass = some (if l ≤ 1 then { x with c0 := c, stack := a ++ b }
        else { x with c0 := x.c0 + x.d, pos := st, stack := a ++ .loop st sp (l - 1) c :: b })) ∧ (sp ≠ x.pos → x.pass = none)) ∧
    ((∀ e ∈ x.stack, ∃ v, e = PStack.push v) → x.pass = none) ∧
    (∀ z, x.pass = some z → PRun.go ops cols (n + 1) x = PRun.go ops cols n z) ∧
    (x.pass = none →
      (2 ^ 20 ≤ x.done ∨ x.op ops cols = .bad → PRun.go ops cols (n + 1) x = none) ∧
      (x.done < 2 ^ 20 → (∀ z, x.op ops cols = .go z → PRun.go ops cols (n + 1) x = PRun.go ops cols n z) ∧
        ∀ z, x.op ops cols = .stop z →
          ((∃ v, PStack.push v ∈ z.stack) → PRun.go ops cols (n + 1) x = none) ∧
          ((∀ v, PStack.push v ∉ z.stack) → PRun.go ops cols (n + 1) x = some z.out.reverse))) ∧
    runRow ops cols n = PRun.go ops cols (6 * 2 ^ 20) { rho := n }

/-- R246: a program is well formed up to its ENDP at p, the first outside every loop body: no operation reserved or with an operand
it may not have; a body or a skip ends within every body around it and before the program's end; at most four loops nest. -/
def Claims.PatternOk (ops : List Nat) (p : Nat) : Prop :=
  let w := fun (i : Nat) => ops.getD i 0
  let code := fun (i : Nat) => bits (w i) 15 12
  let body := fun (i : Nat) => i + 1 + bits (w i) 11 6
  let past := fun (i : Nat) => if code i = 8 then body i else i + 1
  let around := fun (i k : Nat) => k < i ∧ code k = 8 ∧ i < body k
  p < 64 ∧ code p = 11 ∧ (∀ k, ¬around p k) ∧ (∀ i < p, code i = 11 → ∃ k, around i k) ∧
  ∀ i ≤ p, code i < 12 ∧ (code i = 10 ∨ code i = 11 → bits (w i) 11 0 = 0) ∧ (code i = 5 → bits (w i) 5 0 < bits (w i) 11 6 + 1) ∧
    (code i = 7 → let goal := Nat.repeat past (bits (w i) 11 8) (i + 1)
      bits (w i) 11 8 ≠ 0 ∧ goal ≤ p ∧ ∀ k, around i k → goal ≤ body k) ∧
    (code i = 8 → bits (w i) 11 6 ≠ 0 ∧ (∀ k, around i k → body i ≤ body k) ∧
      ((List.range i).filter (fun k => decide (code k = 8) && decide (i < body k))).length < 4)

/-- R246 to R248: the static check takes exactly the well-formed programs, and cuts each at its ENDP; a transposed start of a program
with HASH is PATINV but on R247's conditions; a start reads the program's halfwords in order, and a read that faults is raised when all before
it are well formed. -/
def Claims.PatternsChecked : Prop :=
  (∀ ops prog, patCheck ops = some prog ↔ ∃ p, PatternOk ops p ∧ prog = ops.take (p + 1)) ∧
  (∀ ops rows cols, patInv ops rows cols = true ↔ (∃ w ∈ ops, bits w 15 12 = 4) ∧
    ¬((∀ w ∈ ops, bits w 15 12 = 4 → bits w 11 9 = 0) ∧ cols = rows ∧ (∃ e, cols = 2 ^ e) ∧
      ∀ w ∈ ops, bits w 15 12 ≠ 3 ∧ bits w 15 12 ≠ 9 ∧ bits w 15 12 ≠ 8)) ∧
  ∀ (s u : State) (c t prog rows cols : Nat) (tr : Bool) (vals : List Nat) (e : Flt) (r : List (Except Flt Nat)),
    let at' := wordN (0x2000000000000000 + prog)
    let start := s.startProgram c t prog rows cols tr
    let starts := fun (ops : List Nat) => if tr = true ∧ patInv ops rows cols = true then Except.error (Cause.patinv, at') else .ok ops
    (s.readOps c t prog 64 = (u, vals.map .ok) → (∀ ops, patCheck vals = some ops → start = (u, starts ops)) ∧
      (patCheck vals = none → start = (u, .error (.patfault, at')))) ∧
    (s.readOps c t prog 64 = (u, vals.map .ok ++ .error e :: r) →
      (∀ ops, patCheck (vals ++ [0xC000]) = some ops → start = (u, starts ops)) ∧
      (patCheck (vals ++ [0xC000]) = none → start = (u, .error
        (if (patCheck (vals ++ List.replicate (63 - vals.length) 0 ++ [0xB000])).isSome = true then e else (.patfault, at')))))

/-- R247, R249, R250: the coordinates a generator has still to deliver, every run they need being without fault: forward by row, and in a
row as it runs; transposed by column, and in a column by row. -/
def Claims.Enumerates (g : Gen) (l : List (Nat × Nat)) : Prop :=
  let left := (List.range (g.rend - g.row)).map (g.row + ·)
  let skip := fun (k : Nat) => if k = g.row then g.done else 0
  ∃ runs : Nat → List Nat,
    (if g.t then ∀ r < g.rows, runRow g.ops g.cols r = some (runs r)
      else ∀ r, g.row ≤ r → r < g.rend → runRow g.ops g.cols r = some (runs r)) ∧
    l = if g.t then left.flatMap (fun c => (((List.range g.rows).filter (fun r => (runs r).contains c)).drop (skip c)).map (c, ·))
      else left.flatMap (fun r => ((runs r).drop (skip r)).map (r, ·))

/-- R247, R249 to R251: a draw takes the next coordinates in order and leaves the rest; a generator not started gives none; a run
that faults is PATFAULT where a coordinate drawn needs it, transposed whatever is drawn. That rows past R that PGLOAD has let a
generator go to run too is the model's choice (log 100). -/
def Claims.GeneratorDraws : Prop :=
  ∀ (g : Gen) (n : Nat),
    (g.v = false → g.draw n = some ([], g)) ∧
    (∀ l, g.v = true → Enumerates g l →
      ∃ h, g.draw n = some (l.take n, h) ∧ Enumerates h (l.drop n) ∧ { h with row := g.row, done := g.done } = g) ∧
    (∀ r l, g.v = true → g.t = false → g.row ≤ r → r < g.rend → runRow g.ops g.cols r = none → Enumerates { g with rend := r } l →
      l.length < n → g.draw n = none) ∧
    (g.v = true → g.t = true → n ≠ 0 → (∃ r < g.rows, runRow g.ops g.cols r = none) → g.draw n = none)

/-- R246 to R252, R269: where the generator instructions trap: an own offset misaligned or out of bounds, a program that reads or checks badly, a
run that faults at PGNEXT or PGINV, which names the program (that PGINV needs every run is the model's choice, log 99), and a context PGLOAD refuses; a context with V set has its program read again. -/
def Claims.GeneratorTraps : Prop :=
  ∀ (s u : State) (d a t : Reg) (g : BitVec 1) (x : List Word),
    let p := s.readReg a
    (∀ e ∈ [(Instr.pgnext d a g, 8), (.pgsave a g, 64), (.pgload a g, 64)],
      (p.toNat % e.2 ≠ 0 → exec e.1 s = .next (s.trap .align p)) ∧
      (p.toNat % e.2 = 0 → 0x6000 < p.toNat + 64 → exec e.1 s = .next (s.trap .prot p))) ∧
    (Loaded s t x → Desc.pat x = true →
      let tr := (s.readReg d).getLsbD 0
      let start := s.startProgram s.cur.1 s.cur.2 (Desc.aux x) (Desc.extent x 1) (Desc.extent x 0)
      (∀ e fa, start tr = (u, .error (e, fa)) → exec (.pgstart a d t g) s = .next (u.trap e fa)) ∧
      (∀ e fa, start true = (u, .error (e, fa)) → exec (.pginv d a t) s = .next (u.trap e fa)) ∧
      (∀ ops, start true = (u, .ok ops) → (∃ r < Desc.extent x 1, runRow ops (Desc.extent x 0) r = none) →
        exec (.pginv d a t) s = .next (u.trap .patfault (wordN (0x2000000000000000 + Desc.aux x))))) ∧
    (p.toNat % 8 = 0 → p.toNat + 64 ≤ 0x6000 → s.th.took = none → (s.me.gen g.toNat).draw 8 = none →
      exec (.pgnext d a g) s = .next (s.trap .patfault (wordN (0x2000000000000000 + (s.me.gen g.toNat).prog)))) ∧
    (p.toNat % 64 = 0 → p.toNat + 64 ≤ 0x6000 →
      (s.me.scbHit p.toNat 64 = true → ∃ v, Leaves (.pgload a g) s v id (fun h => h.await (.retry (.pgload a g)))) ∧
      (s.me.scbHit p.toNat 64 = false → s.me.lsBad p.toNat 64 = true → exec (.pgload a g) s = .next (s.trap .ue p))) ∧
    (s.OwnRead p 64 →
      let w := fun (j : Nat) => s.lsValue (p.toNat + 8 * j) 8
      let y : Gen := { v := true, t := w 0 / 2 ^ 48 % 2 = 1, prog := w 0 % 2 ^ 48, rend := w 1 / 2 ^ 32, row := w 1 % 2 ^ 32,
                       done := w 2, rows := w 3 / 2 ^ 32, cols := w 3 % 2 ^ 32 }
      let plain := w 0 / 2 ^ 50 = 0 ∧ w 2 / 2 ^ 32 = 0 ∧ ∀ j, 4 ≤ j → j < 8 → w j = 0
      (¬plain ∨ (w 0 / 2 ^ 49 = 1 ∧ (y.rows = 0 ∨ y.cols = 0)) → exec (.pgload a g) s = .next (s.trap .illegal)) ∧
      (plain → w 0 / 2 ^ 49 = 1 → y.rows ≠ 0 → y.cols ≠ 0 →
        (∀ ops, s.startProgram s.cur.1 s.cur.2 y.prog y.rows y.cols y.t = (u, .ok ops) →
          exec (.pgload a g) s = .next ((u.modMe (fun k => k.setGen g.toNat { y with ops := ops })).replied [])) ∧
        ∀ e fa, s.startProgram s.cur.1 s.cur.2 y.prog y.rows y.cols y.t = (u, .error (e, fa)) → exec (.pgload a g) s = .next (u.trap e fa)))

/-- R248 to R252: the generator instructions where the program reads and checks well. PGSTART starts a generator over the
rows named, to min(start + count, R or W) (the model's choice, log 88); PGINV counts the rows that hold a column; PGNEXT writes
the next coordinates and their number, or waits at the scoreboard over the bytes it writes (09 R269); PGSAVE writes the context
of R251 and PGLOAD takes it back. -/
def Claims.GeneratorResults : Prop :=
  ∀ (s : State) (d a t : Reg) (g : BitVec 1) (x : List Word),
    let batch := fun (l : List (Nat × Nat)) => l.map (fun p => wordN (p.2 % 2 ^ 32 + p.1 % 2 ^ 32 * 2 ^ 32))
    (tfind s.me.tens t.toNat = none → exec (.pgstart a d t g) s = .next (s.trap .illegal) ∧
      exec (.pginv d a t) s = .next (s.trap .illegal)) ∧
    (Loaded s t x → Desc.pat x = false → exec (.pgstart a d t g) s = .next (s.trap .illegal) ∧
      exec (.pginv d a t) s = .next (s.trap .illegal)) ∧
    (Loaded s t x → Desc.pat x = true →
      let (rows, cols) := (Desc.extent x 1, Desc.extent x 0)
      let tr := (s.readReg d).getLsbD 0
      (∀ u ops, s.startProgram s.cur.1 s.cur.2 (Desc.aux x) rows cols tr = (u, .ok ops) →
        ∃ v, exec (.pgstart a d t g) s = .next v ∧ v = (u.modMe (fun k => k.setGen g.toNat {
            v := true, t := tr, prog := Desc.aux x, row := (s.readReg a).toNat % 2 ^ 32,
            rend := min ((s.readReg a).toNat % 2 ^ 32 + (s.readReg a).toNat / 2 ^ 32) (if tr then cols else rows),
            rows := rows, cols := cols, ops := ops })).replied []) ∧
      (∀ u ops all, s.startProgram s.cur.1 s.cur.2 (Desc.aux x) rows cols true = (u, .ok ops) → runAll ops cols rows = some all →
        exec (.pginv d a t) s = .next (u.replied [(d, wordN (((List.range all.length).filter (fun r =>
          (all.getD r []).contains (s.readReg a).toNat)).length))]))) ∧
    (∀ l y, (s.readReg a).toNat % 8 = 0 → (s.readReg a).toNat + 64 ≤ 0x6000 → s.th.took = none →
      (s.me.gen g.toNat).draw 8 = some (l, y) → l ≠ [] → s.me.scbHit (s.readReg a).toNat (8 * l.length) = true →
      ∃ u, Leaves (.pgnext d a g) s u (fun k => k.setGen g.toNat y)
        (fun h => { h.await (.retry (.pgnext d a g)) with opnd := some { h.operands with gen := some (batch l) } })) ∧
    (∀ ws, (s.readReg a).toNat % 8 = 0 → (s.readReg a).toNat + 64 ≤ 0x6000 → s.th.took = some ws → ws ≠ [] → s.me.ls.wf = true →
      s.me.scbHit (s.readReg a).toNat (8 * ws.length) = false →
      ∃ u m e, EndsStore (.pgnext d a g) s u [(d, wordN ws.length)] (fun k => { k with ls := m, lsUe := e }) ∧
        ∀ j < ws.length, u.lsValue ((s.readReg a).toNat + 8 * j) 8 = (ws.getD j 0).toNat) ∧
    (∀ l y, (s.readReg a).toNat % 8 = 0 → (s.readReg a).toNat + 64 ≤ 0x6000 → s.th.took = none →
      (l = [] ∨ s.me.scbHit (s.readReg a).toNat (8 * l.length) = false) →
      s.me.ls.wf = true → (s.me.gen g.toNat).draw 8 = some (l, y) →
      ∃ u m e, EndsStore (.pgnext d a g) s u [(d, wordN l.length)] (fun k => let k := k.setGen g.toNat y; { k with ls := m, lsUe := e }) ∧
        (∀ j < l.length, u.lsValue ((s.readReg a).toNat + 8 * j) 4 = (l.getD j (0, 0)).2 % 2 ^ 32 ∧
          u.lsValue ((s.readReg a).toNat + 8 * j + 4) 4 = (l.getD j (0, 0)).1 % 2 ^ 32) ∧
        ∀ p, p < (s.readReg a).toNat ∨ (s.readReg a).toNat + 8 * l.length ≤ p → u.lsByte s.cur.1 p = s.lsByte s.cur.1 p) ∧
    ((s.readReg a).toNat % 64 = 0 → (s.readReg a).toNat + 64 ≤ 0x6000 → s.th.took = none →
      s.me.scbHit (s.readReg a).toNat 64 = true → ∃ u, Leaves (.pgsave a g) s u id (fun h =>
        { h.await (.retry (.pgsave a g)) with opnd := some { h.operands with gen := some (s.me.gen g.toNat).words } })) ∧
    (s.OwnAccess (s.readReg a) 64 → s.th.took = none → s.me.ls.wf = true → ∃ u m e, EndsStore (.pgsave a g) s u [] (fun k => { k with ls := m, lsUe := e }) ∧
      (let c := s.me.gen g.toNat
       let b := fun (f : Bool) => if f then 1 else 0
       let w := [b c.v * 2 ^ 49 + b c.t * 2 ^ 48 + c.prog, c.rend * 2 ^ 32 + c.row, c.done, c.rows * 2 ^ 32 + c.cols]
       (∀ j < 8, u.lsValue ((s.readReg a).toNat + 8 * j) 8 = (wordN (w.getD j 0)).toNat) ∧
       ∀ p, p < (s.readReg a).toNat ∨ (s.readReg a).toNat + 64 ≤ p → u.lsByte s.cur.1 p = s.lsByte s.cur.1 p)) ∧
    (s.OwnRead (s.readReg a) 64 →
      let w := fun (j : Nat) => s.lsValue ((s.readReg a).toNat + 8 * j) 8
      w 0 / 2 ^ 49 = 0 → w 2 / 2 ^ 32 = 0 → (∀ j, 4 ≤ j → j < 8 → w j = 0) →
      ∃ u rs, Leaves (.pgload a g) s u (fun k => let k := k.setGen g.toNat {
          v := false, t := w 0 / 2 ^ 48 % 2 = 1, prog := w 0 % 2 ^ 48, rend := w 1 / 2 ^ 32, row := w 1 % 2 ^ 32,
          done := w 2, rows := w 3 / 2 ^ 32, cols := w 3 % 2 ^ 32 }; { k with replies := k.replies ++ [rs] })
        (fun h => h.await (.reply [])))

/-- R244 to R252, R269: pattern programs and the index generators. -/
def Obligations.GeneratorInstructions : Prop :=
  GeneratorResults ∧ GeneratorTraps ∧ GeneratorDraws ∧ PatternsChecked ∧ PatternRuns

/-- R253 to R255: the deque instructions. DQPUSH adds a range in front unless it is empty (2) or the deque full (1), DQPOP
takes the newest or gives all ones, DQSPLIT halves the newest, DQCOUNT counts, DQSTEAL asks another core and waits, or raises PROT for a core
outside the field, its record's address 0 (the model's reading, log 96). -/
def Claims.DequeInstructions : Prop :=
  ∀ (s : State) (d a b : Reg),
    let (x, y) := ((s.readReg a).toNat % 2 ^ 32, (s.readReg b).toNat % 2 ^ 32)
    let full := 32 ≤ s.me.deque.length
    (y ≤ x → Gives (.dqpush d a b) s d 2) ∧ (x < y → full → Gives (.dqpush d a b) s d 1) ∧
    (x < y → ¬full → ∃ t, Ends (.dqpush d a b) s t [(d, 0)] (fun k => { k with deque := (x, y) :: k.deque })) ∧
    (s.me.deque = [] → Gives (.dqpop d) s d (BitVec.allOnes 64) ∧ Gives (.dqsplit d) s d 2) ∧
    (∀ r l, s.me.deque = r :: l →
      (∃ t, Ends (.dqpop d) s t [(d, wordN (r.1 + r.2 * 2 ^ 32))] (fun k => { k with deque := l })) ∧
      (r.2 - r.1 < 2 → Gives (.dqsplit d) s d 2) ∧ (2 ≤ r.2 - r.1 → full → Gives (.dqsplit d) s d 1) ∧
      (2 ≤ r.2 - r.1 → ¬full → ∃ t, Ends (.dqsplit d) s t [(d, 0)] (fun k => { k with
        deque := (r.1, r.1 + (r.2 - r.1) / 2) :: (r.1 + (r.2 - r.1) / 2, r.2) :: l }))) ∧
    Gives (.dqcount d) s d (wordN s.me.deque.length) ∧
    (s.me.fw * s.me.fh ≤ (s.readReg a).toNat → exec (.dqsteal d a) s = .next (s.trap .prot)) ∧
    ((s.readReg a).toNat < s.me.fw * s.me.fh → ∃ t, Leaves (.dqsteal d a) s t
      (fun k => { k with reqs := k.reqs ++ [{ slot := s.cur.2, inc := s.th.inc, k := .steal (s.readReg a).toNat }] })
      (fun h => h.await (.home d (.steal (s.readReg a).toNat) 0)) ∧
      (0, Action.ev (.stealRequest s.cur.1 s.cur.2)) ∈ t.inflight)

/-- R256, R257, R259 to R261: TREC begins a tape on an area and a patch block read then (once, the model's choice, log 90);
TGUARD appends a guard entry, which a tape with no room for it refuses; TEND waits until every entry of its recording is written,
writes the header at the area, ends the recording and gives the number of entries, with OVF in bit 32. Both belong to the
recording that ran at their issue: once it is ended, by an earlier TEND, TEND gives its status again and neither changes
anything. -/
def Claims.TapeRecording : Prop :=
  ∀ (s : State) (c a b d : Reg),
    let (area, patch) := (s.readReg a, s.readReg c)
    let n := (s.readReg b).toNat % 2 ^ 17
    (s.me.tape ≠ none ∨ n = 0 ∨ 65536 < n → exec (.trec c a b) s = .next (s.trap .illegal)) ∧
    (s.me.tape = none → 0 < n → n ≤ 65536 → area.toNat % 64 = 0 → patch.toNat % 8 = 0 → area.toNat + 64 + 16 * n ≤ 0x6000 →
      patch.toNat + 256 ≤ 0x6000 → s.me.scbHit patch.toNat 256 = false → s.me.lsBad patch.toNat 256 = false →
      let block := (List.range 32).map (fun i => wordN (s.lsValue (patch.toNat + 8 * i) 8))
      ∃ t, Ends (.trec c a b) s t [] (fun k => { k with
        tape := some { area := area.toNat, cap := n, patch := block, id := k.nextId }, nextId := k.nextId + 1 })) ∧
    (s.me.tapeFor s.cur.2 = if s.th.opnd.isSome then s.th.tape else s.me.tape.map (·.id)) ∧
    (s.me.tapeFor s.cur.2 = none → exec (.tguard a b) s = .next (s.trap .illegal) ∧ exec (.tend d) s = .next (s.trap .illegal)) ∧
    (∀ r, s.me.tapeFor s.cur.2 = some r → (∀ x, s.me.tape = some x → x.id ≠ r) →
      Falls (.tguard a b) s ∧ Gives (.tend d) s d (tget 0 s.me.lastTape r)) ∧
    ∀ x, s.me.tape = some x → s.me.tapeFor s.cur.2 = some x.id →
      (x.buf.length < 8 → x.written + x.buf.length < x.cap → ∃ t y, Ends (.tguard a b) s t [] (fun k => { k with tape := some y }) ∧
        y.buf = x.buf ++ [(wordN ((s.readReg b).toNat % 32 * 2 ^ 40 + 3 * 2 ^ 32), s.readReg a)] ∧ y.nguard = x.nguard + 1 ∧
        y.npatch = max x.npatch ((s.readReg b).toNat % 32 + 1) ∧ y.written = x.written ∧ y.cap = x.cap ∧ y.ovf = x.ovf) ∧
      (x.cap ≤ x.written + x.buf.length → x.buf.length ≤ 8 → ∃ t, Ends (.tguard a b) s t [] id) ∧
      (8 ≤ x.buf.length → x.written + x.buf.length < x.cap →
        ∃ t, Leaves (.tguard a b) s t id (fun h => h.await (.retry (.tguard a b)))) ∧
      (x.buf ≠ [] ∨ s.me.ahead s.cur.2 isTend = true ∨ s.me.scbHit x.area (64 + 16 * x.written) = true ∨
        s.me.tapePending s.cur.2 x.id = true → ∃ t, Leaves (.tend d) s t id (fun h => h.await (.retry (.tend d)))) ∧
      (x.buf = [] → s.me.ls.wf = true → s.me.ahead s.cur.2 isTend = false → s.me.scbHit x.area (64 + 16 * x.written) = false →
        s.me.tapePending s.cur.2 x.id = false →
        let v := wordN (x.written + if x.ovf then 2 ^ 32 else 0)
        ∃ t m u l, EndsStore (.tend d) s t [(d, v)] (fun k => { k with ls := m, lsUe := u, tape := none, lastTape := l }) ∧
          tget 0 l x.id = v ∧ (∀ j e, j ≠ x.id → e ∈ s.me.threads → e.2.tape = some j → tget 0 l j = tget 0 s.me.lastTape j) ∧
          t.lsValue x.area 4 = 0x45504154 ∧ t.lsValue (x.area + 4) 2 = 1 ∧
          t.lsValue (x.area + 6) 2 = (if x.ovf then 1 else 0) ∧ t.lsValue (x.area + 8) 4 = x.written % 2 ^ 32 ∧
          t.lsValue (x.area + 12) 4 = crc32 ((List.range (16 * x.written)).map (fun i => s.lsByte s.cur.1 (x.area + 64 + i))) % 2 ^ 32 ∧
          t.lsValue (x.area + 16) 1 = x.npatch % 256 ∧ t.lsValue (x.area + 20) 4 = x.nguard % 2 ^ 32 ∧
          ∀ p, p < x.area ∨ x.area + 64 ≤ p → t.lsByte s.cur.1 p = s.lsByte s.cur.1 p)

/-- R228, R257: the operand entries of each recorded command, and TLD's version entry. -/
def Claims.RecordedOperands : Prop :=
  ∀ (d a b c t : Reg) (q : BitVec 2),
    let rep := fun (l : List Nat) => some (if q = 0 then l else l ++ [3, 4], false)
    tapeCommand (encode (.copyElems d a b t q)) = rep [0, 1] ∧ tapeCommand (encode (.copy2 d a b t q)) = rep [0, 1] ∧
    tapeCommand (encode (.gather c a b t q)) = rep [0, 1, 2] ∧ tapeCommand (encode (.scatter c a b t q)) = rep [0, 1, 2] ∧
    tapeCommand (encode (.scatadd c a b t q)) = rep [0, 1, 2] ∧
    tapeCommand (encode (.copyring d a b t)) = some ([0, 1], false) ∧ tapeCommand (encode (.qjoin a b)) = some ([0, 1], false) ∧
    tapeCommand (encode (.feeds c a b t q)) = some ([0, 1, 2], false) ∧ tapeCommand (encode (.tld a t)) = some ([0], true)

/-- R258, R262: the fields of a tape entry are allowed for its kind. -/
def Claims.EntryOk (e : TEntry) : Prop :=
  let kind := wbits e.1 35 32
  1 ≤ kind ∧ kind ≤ 4 ∧ wbits e.1 63 49 = 0 ∧ wbits e.1 39 36 = 0 ∧ (kind ≠ 1 → wbits e.1 31 0 = 0) ∧
  (if kind = 2 then wbits e.1 48 46 ≤ 4 else wbits e.1 48 46 = 0 ∧ wbit e.1 45 = false) ∧
  (wbits e.1 44 40 ≠ 0 → wbit e.1 45 = true ∨ kind = 3)

/-- R257, R262: the command at an index of a tape is followed by operand entries at its positions, and as a TLD by its version. -/
def Claims.Follows (es : List TEntry) (i : Nat) (ps : List Nat) (tld : Bool) : Prop :=
  let kind := fun (j : Nat) => (es[j]?).map (fun e => wbits e.1 35 32)
  (∀ j p, ps[j]? = some p → kind (i + 1 + j) = some 2 ∧ (es[i + 1 + j]?).map (fun e => wbits e.1 48 46) = some p) ∧
  (tld = true → kind (i + 1 + ps.length) = some 4)

/-- R257, R258, R262: a sequence of whole records: every entry is allowed, each command entry is an engine command or a TLD followed by
its own, and an operand or version entry stands nowhere else. -/
def Claims.WholeRecords (es : List TEntry) : Prop :=
  let kind := fun (e : TEntry) => wbits e.1 35 32
  (∀ e ∈ es, EntryOk e) ∧
  (∀ i e, es[i]? = some e → kind e = 1 → ∃ ps tld, tapeCommand (e.1.setWidth 32) = some (ps, tld) ∧ Follows es i ps tld) ∧
  ∀ i e, es[i]? = some e → kind e = 2 ∨ kind e = 4 → ∃ j f ps tld, es[j]? = some f ∧ kind f = 1 ∧
    tapeCommand (f.1.setWidth 32) = some (ps, tld) ∧ j < i ∧ i ≤ j + ps.length + if tld then 1 else 0

/-- R257, R262: check 3 takes whole records, whose commands are those performed, in order; otherwise it names the first entry that
fails: one not allowed where a record begins, a command not followed by its own entries (the model's choice, log 45), or one of those with a
field not allowed. -/
def Claims.TapeParses : Prop :=
  ∀ (es : List TEntry),
    (WholeRecords es → ∃ cs, parseTape es 0 .free [] = .ok cs ∧
      cs.map (·.idx) = (List.range es.length).filter (fun i => decide (wbits (es.getD i (0, 0)).1 35 32 = 1)) ∧
      ∀ x ∈ cs, ∃ ps, some (ps, x.tld) = tapeCommand x.word ∧ x.word = (es.getD x.idx (0, 0)).1.setWidth 32 ∧
        x.ops = (List.range ps.length).map (fun j => (x.idx + 1 + j, es.getD (x.idx + 1 + j) (0, 0))) ∧
        (x.tld = true → x.ver = (es.getD (x.idx + 1 + ps.length) (0, 0)).2.toNat) ∧
        ∀ patch : List Word, let y := x.item patch
          y.idx = x.idx ∧ y.word = x.word ∧ (x.tld = true → y.ver = x.ver) ∧
          ∀ j p, ps[j]? = some p → let e := es.getD (x.idx + 1 + j) (0, 0)
            ([y.vals.getD 0 0, y.vals.getD 1 0, y.vals.getD 2 0, y.sq0, y.sqr].getD p 0) =
              if wbit e.1 45 = true then patch.getD (wbits e.1 44 40) 0 + e.2 else e.2) ∧
    ∀ i e, WholeRecords (es.take i) → es[i]? = some e →
      (¬EntryOk e ∨ wbits e.1 35 32 = 2 ∨ wbits e.1 35 32 = 4 → parseTape es 0 .free [] = .error (i + 1)) ∧
      (EntryOk e → wbits e.1 35 32 = 1 →
        (tapeCommand (e.1.setWidth 32) = none → parseTape es 0 .free [] = .error (i + 1)) ∧
        ∀ ps tld, tapeCommand (e.1.setWidth 32) = some (ps, tld) →
          (¬Follows es i ps tld → parseTape es 0 .free [] = .error (i + 1)) ∧
          (Follows es i ps tld → ∀ j, i < j → j ≤ i + ps.length + (if tld then 1 else 0) → ¬EntryOk (es.getD j (0, 0)) →
            (∀ k, i < k → k < j → EntryOk (es.getD k (0, 0))) → parseTape es 0 .free [] = .error (j + 1)))

/-- R259, R262: a tape's header is allowed. -/
def Claims.HeaderOk (h : List Word) : Prop :=
  let w := fun (i : Nat) => h.getD i 0
  wbits (w 0) 31 0 = 0x45504154 ∧ wbits (w 0) 47 32 = 1 ∧ wbits (w 0) 63 49 = 0 ∧ wbits (w 1) 31 0 ≤ 65536 ∧
  wbits (w 2) 7 0 ≤ 32 ∧ wbits (w 2) 31 8 = 0 ∧ ∀ v ∈ h.drop 3, v = 0

/-- R262: the versions of the TLDs of a tape, in order, each read with 64 bytes at its patched address: a read that faults names the
command's entry, a version that differs its version entry. -/
def Claims.VersionsChecked : Prop :=
  ∀ (s u : State) (c t : Nat) (i : TapeItem) (r : List TapeItem) (w : TapeEnd) (e : Flt) (d : Nat),
    let a := i.vals.headD 0
    let tld := (tapeCommand i.word).map (·.2) = some true
    s.checkVersions c t [] = (s, none) ∧
    (¬tld → s.checkVersions c t (i :: r) = s.checkVersions c t r) ∧
    (tld → s.readWaits c a 64 = some w → s.checkVersions c t (i :: r) = (s, some w)) ∧
    (tld → s.readWaits c a 64 = none →
      (s.fetchBytes c t (stationUnit c) true a 64 = (u, .error e) → s.checkVersions c t (i :: r) = (u, some (.flt e (i.idx + 1)))) ∧
      (s.fetchBytes c t (stationUnit c) true a 64 = (u, .ok d) → s.checkVersions c t (i :: r) =
        if d / 2 ^ 32 % 2 ^ 32 = i.ver then u.checkVersions c t r else (u, some (.code 2 (i.idx + 3)))))

/-- R262: the checks of a replay in their order, each with its code and the entry it names: the header (5), OVF and the CRC (3), the
entries (5), the patch references (4), the guards (1), and the versions of the descriptors (2). -/
def Claims.TapeChecked : Prop :=
  ∀ (s u v z : State) (c t : Nat) (a b : Word) (h ws p : List Word) (e : Flt) (w : TapeEnd),
    let chk := s.checkTape c t a (.at' b)
    let n := wbits (h.getD 1 0) 31 0
    let np := wbits (h.getD 2 0) 7 0
    let es := (List.range n).map (fun i => (ws.getD (2 * i) 0, ws.getD (2 * i + 1) 0))
    let kind := fun (e : TEntry) => wbits e.1 35 32
    let stray := fun (e : TEntry) => kind e = 2 ∧ wbit e.1 45 = true ∧ (np ≤ wbits e.1 44 40 ∨ p.getD (wbits e.1 44 40) 0 = 0)
    let broken := fun (e : TEntry) => kind e = 3 ∧ (np ≤ wbits e.1 44 40 ∨ p.getD (wbits e.1 44 40) 0 ≠ e.2)
    let first := fun (q : TEntry → Prop) (i : Nat) => ∃ e, es[i]? = some e ∧ q e ∧ ∀ j < i, ∀ f, es[j]? = some f → ¬q f
    (s.readWaits c a 64 = some w → chk = (s, .error w)) ∧
    (s.readWaits c a 64 = none →
      (s.readDws c t a 8 = (u, .error e) → chk = (u, .error (.flt e 0))) ∧
      (s.readDws c t a 8 = (u, .ok h) →
        (¬HeaderOk h → chk = (u, .error (.code 5 0))) ∧
        (HeaderOk h → (h.getD 0 0).getLsbD 48 = true → chk = (u, .error (.code 3 0))) ∧
        (HeaderOk h → (h.getD 0 0).getLsbD 48 = false →
          (u.readWaits c (a + 64) (16 * n) = some w → chk = (u, .error w)) ∧
          (u.readWaits c (a + 64) (16 * n) = none →
            (u.readDws c t (a + 64) (2 * n) = (v, .error e) → chk = (v, .error (.flt e 0))) ∧
            (u.readDws c t (a + 64) (2 * n) = (v, .ok ws) →
              (crc32 (ws.flatMap (fun x => bytesLE x.toNat 8)) ≠ wbits (h.getD 1 0) 63 32 → chk = (v, .error (.code 3 0))) ∧
              (crc32 (ws.flatMap (fun x => bytesLE x.toNat 8)) = wbits (h.getD 1 0) 63 32 →
                (∀ i, parseTape es 0 .free [] = .error i → chk = (v, .error (.code 5 i))) ∧
                ∀ cs, parseTape es 0 .free [] = .ok cs →
                  (v.readWaits c b 256 = some w → chk = (v, .error w)) ∧
                  (v.readWaits c b 256 = none →
                    (v.readDws c t b 32 = (z, .error e) → chk = (z, .error (.flt e 0))) ∧
                    (v.readDws c t b 32 = (z, .ok p) →
                      (∀ i, first stray i → chk = (z, .error (.code 4 (i + 1)))) ∧
                      ((∀ f ∈ es, ¬stray f) → ∀ i, first broken i → chk = (z, .error (.code 1 (i + 1)))) ∧
                      ((∀ f ∈ es, ¬stray f ∧ ¬broken f) →
                        let items := cs.map (fun x => x.item p)
                        ∀ y, (z.checkVersions c t items = (y, some w) → chk = (y, .error w)) ∧
                          (z.checkVersions c t items = (y, none) → chk = (y, .ok items)))))))))))

/-- R262, 09 R269: TPLAY refuses addresses not aligned; a read that faults is its trap; a tape whose checks end early gives its
code and entry in rd and performs nothing (the checks are one action, the model's choice, log 44); one that passes begins to be performed, its thread waiting until the last entry is
done. It waits where a range of the scoreboard covers what it is to read, or a core that is being placed holds it. -/
def Claims.TapeReplay : Prop :=
  ∀ (s : State) (d a b : Reg),
    let (x, y) := (s.readReg a, s.readReg b)
    (x.toNat % 64 ≠ 0 → exec (.tplay d a b) s = .next (s.trap .align x)) ∧
    (x.toNat % 64 = 0 → y.toNat % 8 ≠ 0 → exec (.tplay d a b) s = .next (s.trap .align y)) ∧
    (x.toNat % 64 = 0 → y.toNat % 8 = 0 → ∀ u,
      (∀ e i, s.checkTape s.cur.1 s.cur.2 x (.at' y) = (u, .error (.flt e i)) → exec (.tplay d a b) s = .next (u.trap e.1 e.2)) ∧
      (s.checkTape s.cur.1 s.cur.2 x (.at' y) = (u, .error .held) → exec (.tplay d a b) s = .next (u.block (.tplay d a b))) ∧
      (s.checkTape s.cur.1 s.cur.2 x (.at' y) = (u, .error .away) →
        exec (.tplay d a b) s = .next ((u.block (.tplay d a b)).push (.resume s.cur.1 s.cur.2))) ∧
      (∀ n i, s.checkTape s.cur.1 s.cur.2 x (.at' y) = (u, .error (.code n i)) →
        exec (.tplay d a b) s = .next (u.replied [(d, wordN (n + 2 ^ 32 * i))])) ∧
      (∀ l, s.checkTape s.cur.1 s.cur.2 x (.at' y) = (u, .ok l) → ∃ t, exec (.tplay d a b) s = .next t ∧
        t = (u.await (.tplay (some d) l)).push (.resume s.cur.1 s.cur.2)))

/-- R256 to R262: tapes. -/
def Obligations.TapeInstructions : Prop :=
  TapeRecording ∧ TapeReplay ∧ RecordedOperands ∧ TapeParses ∧ VersionsChecked ∧ TapeChecked

/-! ## Steps of the machine that no instruction word makes -/


/-- R26, R27, 09 R269: SPILL moves the oldest resident window of a full file to the frame at wsp; FILL brings the newest spilled
one back, or is UE for the thread that waits for it and nothing for one that does not. -/
def Claims.WindowSteps : Prop :=
  ∀ (s : State) (c t : Nat), (s.core c).ls.wf = true →
    let k := s.core c
    let h := s.thr c t
    let off := h.wsp.toNat - 64
    (∀ w r, h.spillDue = true → h.olds = r ++ [w] → k.scbHit h.wsp.toNat 64 = false → ∃ u l x,
      AtHome (.spill c t) s u c (fun k =>
        let k := k.modThr t (fun h => { h with olds := r, wsp := h.wsp + 64 })
        { k with ls := l, lsUe := x }) ∧
      (∀ i : Fin 8, mread l (h.wsp.toNat + 8 * i.val) 8 = (w.get i).toNat) ∧
      ∀ a, a < h.wsp.toNat ∨ h.wsp.toNat + 64 ≤ a → mget l a = mget k.ls a) ∧
    (h.spillDue = true → k.scbHit h.wsp.toNat 64 = true → exec (.spill c t) s = .next s) ∧
    (h.fillDue = true → k.scbHit off 64 = true → exec (.fill c t) s = .next s) ∧
    (h.fillDue = true → k.scbHit off 64 = false →
      (k.lsBad off 64 = false → ∃ u w, OnCore (.fill c t) s u c (fun k => k.modThr t (fun h => { h with olds := [w], wsp := h.wsp - 64 })) ∧
        ∀ i : Fin 8, w.get i = wordN (mread k.ls (off + 8 * i.val) 8)) ∧
      (k.lsBad off 64 = true → h.wantsWindow = true → exec (.fill c t) s = .next (s.trapOf c t .ue (wordN off))) ∧
      (k.lsBad off 64 = true → h.wantsWindow = false → exec (.fill c t) s = .next s))

/-- R256, R268, R270: one entry of the append buffer is written behind the entries written before, and with the last that the
tape holds it is marked OVF; one entry of the range scoreboard retires, and what it held is performed again. -/
def Claims.AppendAndRetirement : Prop :=
  ∀ (s : State) (c : Nat), (s.core c).ls.wf = true →
    let k := s.core c
    (∀ tp e r, k.tape = some tp → tp.buf = e :: r → ∃ u l x,
      AtHome (.tapeAppend c) s u c (fun k =>
        let tp := { tp with buf := r, written := tp.written + 1, ovf := decide (tp.cap ≤ tp.written + 1) }
        { k with tape := some tp, ls := l, lsUe := x }) ∧
      Put k.ls l (tp.area + 64 + 16 * tp.written) (e.1.toNat + 2 ^ 64 * e.2.toNat) 0xFFFF 16) ∧
    (∀ e l r, k.scb = l ++ e :: r → (∀ x ∈ l, x.retirable = false) → e.retirable = true → ∃ u,
      OnCore (.scoreboardRetirement c) s u c (fun k => { k with scb := l ++ r }) ∧
      ∀ t ∈ k.retriers, (0, Action.resume c t) ∈ u.inflight)

/-- R271, R273, R274, R131, 20 R441: a walk that ends in a page the access may use caches its translation in the core's station
and its die's walker complex, and lets the access be performed, or the fetch be made; a walk that ends in a fault, or in a page
the access may not use, installs nothing and is the access's trap, which thaws the bench of a FEEDS; a malformed or an
uncorrectable entry is reported (R378, R417). The line of the next word comes from its home and the
thread is ready; an uncorrectable word of it is UE for the thread that fetches it, with no word fetched. -/
def Claims.TranslationsAndLines : Prop :=
  ∀ (s : State) (c t : Nat),
    let k := s.core c
    let h := s.thr c t
    let missing := fun (va : Nat) => s.cached (stationUnit c) k.part va = none ∧ s.cached (walkerUnit (dieOf c)) k.part va = none
    (∀ i va acc x, h.wait = .walk i va acc → missing va → s.walk k.part va = .leaf x → s.walkDenies x acc = none →
      ∃ u, exec (.translationWalk c t) s = .next u ∧ { u with cores := s.cores, inflight := s.inflight, xlate := s.xlate, xpast := s.xpast } = s ∧
        { x with unit' := stationUnit c } ∈ u.xlate ∧ { x with unit' := walkerUnit (dieOf c) } ∈ u.xlate ∧
        (∀ j, j ≠ c → u.core j = s.core j) ∧
        u.core c = k.modThr t (fun h => match i with
          | some j => { h with wait := .retry j }
          | none => { h with st := .ready, wait := .none, opnd := none }) ∧
        (i ≠ none → (0, Action.resume c t) ∈ u.inflight)) ∧
    (∀ i va acc e s1, h.wait = .walk i va acc → missing va →
      s.walkTold k.part va = (s1, .error e) ∨
        (∃ x, s.walk k.part va = .leaf x ∧ s1 = s ∧ s.walkDenies x acc = some e ∧ e ≠ .collapse) →
      let v := match i with
        | none => (s1.modThr c t (fun h => { h with iw := 0, stepped := h.stepped || h.stepReq, stepReq := false })).trapOf c t e (wordN (2 ^ 61 + va))
        | some _ => (s1.trapOf c t e (wordN (2 ^ 61 + va))).faceTrap c h.iw
      ∃ u, exec (.translationWalk c t) s = .next u ∧ { u with inflight := v.inflight } = v) ∧
    (∀ va e level, s.walk k.part va = .stop e (some level) →
      s.walkTold k.part va = (s.report (some k.part) 12 0 level 0 0, .error e)) ∧
    (∀ va pa key, s.walk k.part va = .bad pa key → s.walkTold k.part va = (s.ueReport (.hbm pa key) 0, .error .ue)) ∧
    (∀ pa key, h.wait = .line → s.place c (codeWord h.pc) 4 1 = .far (.hbm pa key) →
      let base := pa / 64 * 64
      let bytes := (upto 64).map (fun n => s.hbmGet (s.keyPair key) (base + n))
      (s.hbmBad base 64 = false → ∃ u l, exec (.icacheLineFill c t) s = .next u ∧
        { u with cores := s.cores, icache := s.icache } = s ∧ l ∈ u.icache ∧ l.cluster = clusterOf c ∧ l.ctx = k.ctx ∧
        l.va = h.pc.toNat / 64 * 64 ∧ l.bytes = bytes ∧ l.ue = [] ∧ (∀ j, j ≠ c → u.core j = s.core j) ∧
        u.core c = k.modThr t (fun h => { h with st := .ready, wait := .none, opnd := none })) ∧
      (s.hbmBad (base + h.pc.toNat % 64 / 8 * 8) 8 = true → ∃ u r, exec (.icacheLineFill c t) s = .next u ∧
        (u.thr c t).st = .parked ∧ r ∈ (u.die (dieOf c)).recs ∧ r.seq = s.seqNo ∧ r.cause = .ue ∧
        r.faddr = codeWord h.pc ∧ r.iword = 0))

/-- R377, R378, R277, R145: the walk goes down four levels from PTROOT, whose table lies under its own key slot. V = 0 is PAGE, a
malformed entry PROT with its level, a slot not held or empty PROT, a revoked one KEYREV, an uncorrectable entry UE; a leaf gives its
page. An access to a page meets PROT of the slot, PROT of the permission, KEYREV, then COLLAPSE. A replicated page is read in the
group with stacks nearest to the die, the lower of two. -/
def Claims.PageWalks : Prop :=
  ∀ (s : State) (p va : Nat),
    let x := s.part p
    let slot := wbits x.ptroot 5 0
    let root := wbits x.ptroot 39 12 * 2 ^ 12
    let index := fun (i : Nat) => if i = 0 then bits va 47 39 else if i = 1 then bits va 38 30 else if i = 2 then bits va 29 21 else bits va 20 16
    let size := fun (i : Nat) => if i = 0 then 39 else if i = 1 then 30 else if i = 2 then 21 else 16
    let at' := fun (t : Nat → Nat) (i : Nat) => p * 2 ^ 40 + (t i + 8 * index i)
    let entry := fun (t : Nat → Nat) (i : Nat) => s.hbmRead (s.keyPair slot) (at' t i) 8
    let inside := fun (a : Nat) => a % 2 ^ 38 < 48 * 2 ^ 30 * x.groupStacks (a / 2 ^ 38)
    let link := fun (e : Nat) => bits e 0 0 = 1 ∧ bits e 1 1 = 0 ∧ bits e 7 2 = 0 ∧ bits e 63 40 = 0 ∧ inside (bits e 39 8 * 2 ^ 8)
    let reaches := fun (t : Nat → Nat) (n : Nat) => t 0 = root ∧
      ∀ i < n, s.hbmBad (at' t i) 8 = false ∧ link (entry t i) ∧ t (i + 1) = bits (entry t i) 39 8 * 2 ^ 8
    (∀ k, (bits x.keys k k = 0 ∨ tget .empty s.keys k = .empty → s.keyFault p k = some .prot) ∧
      (bits x.keys k k = 1 → (∀ y, tget .empty s.keys k = .loaded y → s.keyFault p k = none) ∧
        (∀ y, tget .empty s.keys k = .revoking y → s.keyFault p k = some .keyrev) ∧
        (tget .empty s.keys k = .revoked → s.keyFault p k = some .keyrev))) ∧
    (∀ e, s.keyFault p slot = some e → s.walk p va = .stop e none) ∧
    (s.keyFault p slot = none → ¬inside root → s.walk p va = .stop .prot (some 0)) ∧
    (s.keyFault p slot = none → inside root → ∀ t n, n ≤ 3 → reaches t n →
      let e := entry t n
      let frame := bits e 39 16 * 2 ^ 16
      let wellFormed := n ≠ 0 ∧ bits e 63 40 = 0 ∧ bits e 15 13 = 0 ∧ bits e 4 4 = 0 ∧ frame % 2 ^ size n = 0 ∧ inside frame ∧
        (bits e 5 5 = 1 → ∀ g < 3, x.groupStacks g ≠ 0 → inside (g * 2 ^ 38 + frame % 2 ^ 38))
      (s.hbmBad (at' t n) 8 = true → s.walk p va = .bad (at' t n) slot) ∧
      (s.hbmBad (at' t n) 8 = false →
        (bits e 0 0 = 0 → s.walk p va = .stop .page none) ∧
        (bits e 0 0 = 1 → bits e 1 1 = 0 → n = 3 ∨ ¬link e → s.walk p va = .stop .prot (some n)) ∧
        (bits e 0 0 = 1 → bits e 1 1 = 1 → ¬wellFormed → s.walk p va = .stop .prot (some n)) ∧
        (bits e 0 0 = 1 → bits e 1 1 = 1 → wellFormed → s.walk p va = .leaf
          { unit' := 0, part := p, base := va / 2 ^ size n * 2 ^ size n, bits := size n, frame := frame, key := bits e 12 7,
            r := decide (bits e 2 2 = 1), w := decide (bits e 3 3 = 1), rep := decide (bits e 5 5 = 1) }))) ∧
    ∀ (l : Xlate) (d acc : Nat),
      (s.walkDenies l acc = if s.keyFault l.part l.key = some .prot then some .prot
        else if acc % 2 = 1 ∧ l.r = false ∨ acc / 2 % 2 = 1 ∧ l.w = false then some .prot
        else if s.keyFault l.part l.key = some .keyrev then some .keyrev
        else if acc / 2 % 2 = 1 ∧ (l.rep = true ∨ s.collapsing l = true) then some .collapse else none) ∧
      (l.rep = false → s.physical l d va = l.part * 2 ^ 40 + (l.frame + va % 2 ^ l.bits)) ∧
      (l.rep = true → (∃ q < 3, (s.part l.part).groupStacks q ≠ 0) → ∃ g < 3, (s.part l.part).groupStacks g ≠ 0 ∧
        s.physical l d va = l.part * 2 ^ 40 + (g * 2 ^ 38 + (l.frame + va % 2 ^ l.bits) % 2 ^ 38) ∧
        ∀ q < 3, (s.part l.part).groupStacks q ≠ 0 → let off := fun (q : Nat) => ((q : Int) - (d % 3 : Nat)).natAbs
          off g < off q ∨ off g = off q ∧ g ≤ q)

/-- R275: a core that has drained what it wrote through a translation being changed forgets it: its translators, its
phase buffer, with sectors of a page that no unit translates or has translated (the model's choice, log 23), and its micro-TLBs; the change waits for the cores left, and completes when none is. A core that has not
drains first; one with a store that waits for room, translated, tries again later. Units of no core of the partition forget the
range as the change begins, and a core placed while it lasts takes part in it. -/
def Claims.TranslationChanges : Prop :=
  ∀ (s : State) (p c : Nat) (q : Change) (l r : List Change),
    (s.part p).changes = l ++ q :: r → (∀ y ∈ l, y.todo.contains c = false) → q.todo.contains c = true →
    let k := s.core c
    let mine := fun (u : Nat) => u = stationUnit c ∨ u = microUnit c 0 ∨ u = microUnit c 1
    let waits := ∃ e ∈ k.threads, ∃ l fl sd on, e.2.wait = .room l fl sd on ∧ ∃ d v n, Piece.far d v n ∈ l ∧ s.inChange p q d = true
    (k.writeSet (s.inChange p q) = [] → waits → exec (.invalidation p c) s = .next (s.post (.invalidation p c) (s.cyc + 1))) ∧
    (∀ q0, let cs := (s.cores.filter (fun e => e.2.field ≠ none && e.2.part = p)).map (·.1)
      let u := s.beginChange p q0
      ∀ x, x ∈ u.xlate ↔ x ∈ s.xlate ∧ ¬(q0.hits p x = true ∧
        ∀ j ∈ cs, x.unit' ≠ stationUnit j ∧ x.unit' ≠ microUnit j 0 ∧ x.unit' ≠ microUnit j 1)) ∧
    (∀ j, (s.core j).part = p → let u := s.joinChanges j
      (u.part p).changes.length = (s.part p).changes.length ∧ ∀ (i : Nat) (y : Change), (s.part p).changes[i]? = some y →
        (u.part p).changes[i]? = some { y with todo := if y.todo.contains j then y.todo else y.todo ++ [j] } ∧
        (y.todo.contains j = false → u.Sent (.invalidation p j))) ∧
    (k.writeSet (s.inChange p q) = [] → ¬waits → ∃ u q', exec (.invalidation p c) s = .next u ∧
      { u with cores := s.cores, inflight := s.inflight, xlate := s.xlate, xpast := s.xpast, parts := s.parts } = s ∧
      (∀ j, j ≠ c → u.core j = s.core j) ∧
      { u.core c with pbuf := k.pbuf, fetches := k.fetches, evict := k.evict } = k ∧
      (∀ e ∈ (u.core c).pbuf, e.r = true → s.inChange p q e.dst = false) ∧
      (∀ f ∈ (u.core c).fetches, s.inChange p q f.dst = true → f.barred = true) ∧
      ((u.core c).evict = (k.evict || k.pbuf.any (fun e => e.r && s.inChange p q e.dst))) ∧
      (∀ x, x ∈ u.xlate ↔ x ∈ s.xlate ∧ ¬ (mine x.unit' ∧ q.hits p x = true)) ∧
      q' ∈ (u.part p).changes ∧ q' = { q with todo := q'.todo } ∧ (∀ j, j ∈ q'.todo ↔ j ∈ q.todo ∧ j ≠ c) ∧
      (q'.todo = [] → u.Sent (.translationChangeComplete p))) ∧
    (k.writeSet (s.inChange p q) ≠ [] → ∃ u, exec (.invalidation p c) s = .next u ∧
      { u with cores := s.cores, inflight := s.inflight } = s ∧ (∀ j, j ≠ c → u.core j = s.core j) ∧
      { u.core c with pbuf := k.pbuf } = { k with spill := true } ∧
      (∀ e ∈ (u.core c).pbuf, e.mask ≠ 0 → s.inChange p q e.dst = true → e.d = true) ∧
      (∀ e ∈ k.pbuf, e.mask ≠ 0 → e.d = false → s.inChange p q e.dst = true → u.Sent (.sectorDrain c e.id)) ∧
      (s.cyc + 1, Action.ev (.invalidation p c)) ∈ u.inflight)

/-- A step reaches a state in which nothing but the cores named and the messages in flight may differ. -/
def Claims.CoresOnly (i : Instr) (s u : State) (cs : List Nat) : Prop :=
  exec i s = .next u ∧ { u with cores := s.cores, inflight := s.inflight } = s ∧ ∀ x, x ∉ cs → u.core x = s.core x

/-- R283, R282, R151: home reads a whole sector in one action and answers with it; once the reply has come the copy, formed with
the core's own written bytes and those of a STREL still on its way, joins the read set, in the newest entry of its sector (the
model's choice, log 39) or a new one, unless its fetch was barred or its load met an uncorrectable word. A free core reads
zero (R265). -/
def Claims.SectorFetches : Prop :=
  ∀ (s : State) (c f : Nat) (x : Fetch), (s.core c).fetch f = some x →
    let k := s.core c
    (x.got = none → x.sentAt = none → s.swept x.dst k.ctx = false → s.held x.dst = false → x.dst.atPeer = false →
      let (off, n) := (s.thr c x.slot).needs f
      let bad := (s.homeRead (x.dst.plus off) n).2
      ∃ u l,
      OnCore (.sectorFetch c f) s u c (fun k => { k with
        fetches := l, replies := k.replies ++ [⟨x.slot, x.inc, .sector f (s.homeRead x.dst 32).1 bad⟩] }) ∧
      u.Sent (.remoteReply c x.slot) ∧
      ∃ y, (u.core c).fetch f = some y ∧ y.got = some (s.homeRead x.dst 32).1 ∧ y.ue = bad) ∧
    (x.due = false → exec (.readSetInstall c f) s = .next s) ∧
    (∀ v, x.due = true → x.got = some v → x.barred = true ∨ x.ue = true → ∃ u,
      OnCore (.readSetInstall c f) s u c (fun k => { k with fetches := k.fetches.filter (fun y => y.id ≠ f) })) ∧
    (∀ v, x.due = true → x.got = some v → x.barred = false → x.ue = false → (∀ e ∈ k.pbuf, e.dst ≠ x.dst) →
      k.pbuf.length < 64 → x.room = none → ∃ u l,
      OnCore (.readSetInstall c f) s u c (fun k =>
        { k with fetches := k.fetches.filter (fun y => y.id ≠ f), pbuf := l, nextId := k.nextId + 1 }) ∧
      ∃ e ∈ l, e.dst = x.dst ∧ e.r = true ∧ e.copy = k.overlaid x.dst v ∧ e.mask = 0 ∧ ∀ i < 4, bits e.bad i i = bits x.bad i i) ∧
    (∀ v l e, x.due = true → x.got = some v → x.barred = false → x.ue = false →
      k.pbuf.filter (fun y => y.dst = x.dst) = l ++ [e] → (∀ y ∈ l ++ [e], y.r = false) → ∃ u,
      OnCore (.readSetInstall c f) s u c (fun k =>
        { k with fetches := k.fetches.filter (fun y => y.id ≠ f),
                 pbuf := k.pbuf.map (fun y => if y.id = e.id then
                   { y with r := true, copy := k.overlaid x.dst v, bad := badLeft x.bad (if y.past then 0 else y.mask) } else y) })) ∧
    (∀ v, (∀ r ∈ k.reqs, r.k.isStrel = false) → (∀ e ∈ k.pbuf, e.dst ≠ x.dst) → k.overlaid x.dst v = v) ∧
    (∀ pos off, (s.core (s.locate pos)).field = none → s.homeRead (.ls pos off) 32 = (0, false))

/-- R281, R285, R286: a drain writes the written bytes of its sector at home, under the key of the page, and no other byte, in its
turn behind earlier drains of the sector; what a fetch of the core brought before takes its bytes (the model's choice, log 73).
Its acknowledgement, when it has come, ends the entry's write set, and the entry when it was drained to make room; it lets the
threads that awaited it go on, and sends the drain of the sector that waited for it. No byte of memory changes at an acknowledgement. The field logs no pre-images. -/
def Claims.SectorDrains : Prop :=
  ∀ (s : State) (c e : Nat) (x : Entry), (s.core c).pbuf.find? (fun y => y.id = e) = some x →
    let k := s.core c
    let marked := fun (k : Core) => Core.performed { k with
      pbuf := k.pbuf.map (fun y => if y.id = e then { y with sent := true } else y) } x.dst x.data x.mask
    (x.d = true → x.sent = false → (∃ y ∈ k.pbuf, y.dst = x.dst ∧ y.d = true ∧ y.id < x.id) → exec (.sectorDrain c e) s = .next s) ∧
    (x.d = true → x.sent = false → (∀ y ∈ k.pbuf, y.dst = x.dst → y.d = true → x.id ≤ y.id) →
      (∀ pos off, x.dst = .ls pos off →
        let home := s.locate pos
        (s.core home).field ≠ none → (s.core home).placing = false → home ≠ c → (s.core home).ls.wf = true → ∃ u l w,
          AtHomes (.sectorDrain c e) s u (fun j k => if j = c then marked k else if j = home then { k with ls := l, lsUe := w } else k) ∧
          Put (s.core home).ls l off x.data x.mask 32 ∧ u.Sent (.drainAcknowledgement c e)) ∧
      (∀ pa key, x.dst = .hbm pa key → pa % 32 = 0 → s.hbm.wf = true → s.watches = [] →
        (∀ i g, k.field = some i → tfind s.fields i = some g → g.ckArea = none) → ∃ u,
        exec (.sectorDrain c e) s = .next u ∧ u.core c = marked k ∧ (∀ j, j ≠ c → u.core j = s.core j) ∧
        { u with cores := s.cores, inflight := s.inflight, hbm := s.hbm, hbmKey := s.hbmKey, hbmUe := s.hbmUe } = s ∧
        (∀ j < 32, u.hbmGet (s.keyPair key) (pa + j) =
          if bits x.mask j j = 1 then BitVec.ofNat 8 (x.data / 256 ^ j) else s.hbmGet (s.keyPair key) (pa + j)) ∧
        (∀ a, a < pa ∨ pa + 32 ≤ a → u.hbmByte a = s.hbmByte a) ∧
        u.Sent (.drainAcknowledgement c e))) ∧
    (x.sent = true → k.threads = [] → ∃ u l,
      OnCore (.drainAcknowledgement c e) s u c (fun k =>
        let k := { k with pbuf := l, phase := (u.core c).phase }
        if x.room then { k with evict := k.evict || x.r, fetches := k.fetches.map (fun f =>
          if f.dst = x.dst then { f with barred := true } else f) } else k) ∧
      (u.core c).phase = (if k.partOver && (l.filter (fun y => y.mask ≠ 0)) = [] then k.phase + 1 else k.phase) ∧
      SameMemory s u ∧
      (∀ y ∈ l, y.id = e → y.mask = 0 ∧ y.d = false ∧ y.sent = false ∧ y.r = true) ∧
      (x.room = true → (∀ y ∈ k.pbuf, y.id = e → y = x) → ∀ y ∈ l, y.id ≠ e) ∧
      (∀ y ∈ k.pbuf, y.id ≠ e → y.r = true ∨ y.mask ≠ 0 → y ∈ l) ∧
      (∀ y ∈ l, y.dst = x.dst → y.d = true → y.sent = false → u.Sent (.sectorDrain c y.id))) ∧
    (∀ t h, x.sent = true → k.threads = [(t, h)] → (k.thr 0).st ≠ .empty →
      (h.wait = .drains [e] .rel → ∃ u, exec (.drainAcknowledgement c e) s = .next u ∧ u.thr c t = h.retire ∧ SameMemory s u) ∧
      (h.wait = .drains [e] .pend → ∃ u, exec (.drainAcknowledgement c e) s = .next u ∧ u.thr c t = h.retire ∧
        (u.core c).phase = k.phase + 1 ∧ SameMemory s u) ∧
      (∀ rd q a, h.wait = .drains [e] (.req rd q a) → ∃ u, exec (.drainAcknowledgement c e) s = .next u ∧
        (u.thr c t).wait = .home rd q a ∧ ({ slot := t, inc := h.inc, k := q } : Req) ∈ (u.core c).reqs ∧ u.Sent (q.step c t) ∧ SameMemory s u))

/-- R281, R283, R286: sectors fetched and drained. -/
def Obligations.PhaseBufferSteps : Prop := SectorFetches ∧ SectorDrains

/-- R150, R151, R155 to R157, R280: a request at its home is performed as one action there and answered with the value it
found, or with an uncorrectable error. LDA reads, and takes the bytes of the core's write set from there; STREL writes its bytes,
and what the core fetched of the sector before takes them (the model's choice, log 73); an atomic reads and writes, and on HBM it arrives in
one tick at the cluster's atomic engine, which serves it in a later one behind what arrived before it, or in the same tick
from a lower core, and owns its line until it is written back. The field of the HBM atomic logs no pre-images. -/
def Claims.RequestsAtHome : Prop :=
  ∀ (s : State) (c t : Nat) (r : Req) (l : List Req), (s.core c).reqs = r :: l → r.slot = t →
    let answered := fun (k : Core) (b : RBody) => { k with reqs := l, replies := k.replies ++ [⟨t, r.inc, b⟩] }
    (∀ d n z sc, r.k = .lda d n z sc → s.swept d (s.core c).ctx = false → s.held d = false → d.atPeer = false → ∃ u,
      OnCore (.ldaAtHome c t) s u c (fun k => answered k 
        (if (s.homeRead d n).2 then .ue else .val ((s.core c).merged d (s.homeRead d n).1 n))) ∧
      u.Sent (.remoteReply c t)) ∧
    (∀ pos off n v, r.k = .strel (.ls pos off) n v → s.swept (.ls pos off) (s.core c).ctx = false →
      let home := s.locate pos
      (s.core home).field ≠ none → (s.core home).placing = false → home ≠ c → (s.core home).ls.wf = true → ∃ u m w,
        AtHomes (.strelAtHome c t) s u
          (fun j k => if j = c then (answered k .ok).performed (Dest.ls pos off).sector (v * 256 ^ (off % 32)) ((2 ^ n - 1) * 2 ^ (off % 32))
            else if j = home then { k with ls := m, lsUe := w } else k) ∧
        Put (s.core home).ls m off v (2 ^ n - 1) n ∧ u.Sent (.remoteReply c t)) ∧
    (∀ op dbl pos off y e, r.k = .atomic op dbl (.ls pos off) y e →
      let home := s.locate pos
      let n := if dbl then 64 else 32
      let x := mread (s.core home).ls off (n / 8)
      (s.core home).field ≠ none → (s.core home).placing = false → home ≠ c → (s.core home).ls.wf = true →
      ((s.core home).lsBad off (n / 8) = false → ∃ u m w,
        AtHomes (.atomicAtHome c t) s u
          (fun j k => if j = c then answered k (.val x) else if j = home then { k with ls := m, lsUe := w } else k) ∧
        Put (s.core home).ls m off (atomicNew op n x y e) (2 ^ (n / 8) - 1) (n / 8) ∧ u.Sent (.remoteReply c t)) ∧
      ((s.core home).lsBad off (n / 8) = true → ∃ u, OnCore (.atomicAtHome c t) s u c (fun k => answered k .ue))) ∧
    (∀ op dbl pa key y e, r.k = .atomic op dbl (.hbm pa key) y e →
      let n := if dbl then 64 else 32
      let kp := s.keyPair key
      let x := s.hbmRead kp pa (n / 8)
      (r.cameAt = none → ∃ u, OnCore (.atomicAtHome c t) s u c (fun k => { k with reqs := l ++ [{ r with cameAt := some s.cyc }] }) ∧
        (s.cyc + 1, Action.ev (.atomicAtHome c t)) ∈ u.inflight) ∧
      (∀ a, r.cameAt = some a → s.cyc ≤ a ∨ s.atomicAhead c a = true → ∃ u,
        OnCore (.atomicAtHome c t) s u c (fun k => { k with reqs := l ++ [r] }) ∧ u.Sent (.atomicAtHome c t)) ∧
      (∀ a, r.cameAt = some a → a < s.cyc → s.atomicAhead c a = false →
        (s.hbmBad pa (n / 8) = false → pa % (n / 8) = 0 → s.hbm.wf = true → s.watches = [] →
          (∀ i g, (s.core c).field = some i → tfind s.fields i = some g → g.ckArea = none) → ∃ u,
          exec (.atomicAtHome c t) s = .next u ∧ u.core c = answered (s.core c) (.val x) ∧ (∀ j, j ≠ c → u.core j = s.core j) ∧
          { u with cores := s.cores, inflight := s.inflight, hbm := s.hbm, hbmKey := s.hbmKey, hbmUe := s.hbmUe, owned := s.owned } = s ∧
          (∀ j < n / 8, u.hbmGet kp (pa + j) = BitVec.ofNat 8 (atomicNew op n x y e / 256 ^ j)) ∧
          (∀ b, b / 32 = pa / 32 → b < pa ∨ pa + n / 8 ≤ b → u.hbmGet kp b = s.hbmGet kp b) ∧
          (∀ b, b / 32 ≠ pa / 32 → u.hbmByte b = s.hbmByte b) ∧
          (clusterOf c, pa / 64) ∈ u.owned ∧
          (∀ z, z ≠ clusterOf c → (z, pa / 64) ∈ u.owned → (z, pa / 64) ∈ s.owned ∧ (clusterOf c, pa / 64) ∈ s.owned) ∧
          u.Sent (.remoteReply c t)) ∧
        (s.hbmBad pa (n / 8) = true → ∃ u, exec (.atomicAtHome c t) s = .next u ∧ u.core c = answered (s.core c) .ue ∧
          u.hbm = s.hbm))) ∧
    (∀ cl line, ∃ u, exec (.atomicEngineLineWriteback cl line) s = .next u ∧ { u with owned := s.owned } = s ∧
      ∀ e, e ∈ u.owned ↔ e ∈ s.owned ∧ e ≠ (cl, line))

/-- R158 to R161: a full-or-empty operation at a remote home whose condition holds is served there and then, taking or
giving the word and its tag, reading the tag or setting it, no other word's tag changing; one whose condition fails joins the home's empty queue, or traps with a limit of zero. One whose
thread is gone leaves the queue; one whose limit has run out leaves it with FETIME, unless a reply is on its way. -/
def Claims.FullEmptyAtHome : Prop :=
  ∀ (s : State) (c t pos off op v : Nat) (r : Req) (l : List Req),
    let home := s.locate pos
    let hk := s.core home
    let h := s.thr c t
    let full := hk.tags.contains (off / 8)
    let tagged := fun (u : State) (f : Bool) => ∀ k, (u.core home).tags.contains k = if k = off / 8 then f else hk.tags.contains k
    home ≠ c → hk.field ≠ none → hk.placing = false → hk.ls.wf = true → hk.feq = [] →
    ((s.core c).reqs = r :: l → r.slot = t → r.k = .fe op (.ls pos off) v → s.swept (.ls pos off) (s.core c).ctx = false →
      (op < 2 → full = true → hk.lsBad off 8 = false → ∃ u, CoresOnly (.feAtHome c t) s u [c, home] ∧
        u.core c = { s.core c with reqs := l, replies := (s.core c).replies ++ [⟨t, r.inc, .val (mread hk.ls off 8)⟩] } ∧
        { u.core home with tags := hk.tags } = hk ∧ tagged u (if op = 0 then false else true)) ∧
      (op = 4 → ∃ u, OnCore (.feAtHome c t) s u c (fun k =>
        { k with reqs := l, replies := k.replies ++ [⟨t, r.inc, .val (if full then 1 else 0)⟩] }) ∧ u.Sent (.remoteReply c t)) ∧
      (op = 5 → ∃ u, CoresOnly (.feAtHome c t) s u [c, home] ∧
        u.core c = { s.core c with reqs := l, replies := (s.core c).replies ++ [⟨t, r.inc, .val 0⟩] } ∧
        { u.core home with tags := hk.tags, dry := hk.dry, dryHeld := hk.dryHeld } = hk ∧
        (v ≠ 1 → { u.core home with tags := hk.tags } = hk) ∧ tagged u (decide (v = 1))) ∧
      (op < 2 → full = true → hk.lsBad off 8 = true → ∃ u, OnCore (.feAtHome c t) s u c (fun k =>
        { k with reqs := l, replies := k.replies ++ [⟨t, r.inc, .ue⟩] })) ∧
      (op = 2 ∧ full = false ∨ op = 3 → ∃ u, exec (.feAtHome c t) s = .next u ∧ (u.core c).reqs = l ∧
        (⟨t, r.inc, .val 0⟩ : Reply) ∈ (u.core c).replies ∧
        (s.watches = [] → (u.core c).replies = (s.core c).replies ++ [⟨t, r.inc, .val 0⟩]) ∧
        Put hk.ls (u.core home).ls off v 0xFF 8 ∧ tagged u true ∧ u.Sent (.remoteReply c t)) ∧
      (∀ rd q a, (op < 2 ∧ full = false) ∨ (op = 2 ∧ full = true) → h.inc = r.inc → h.wait = .home rd (.fe op (.ls pos off) q) a →
        (h.limit ≠ some 0 → ∃ u, CoresOnly (.feAtHome c t) s u [c, home] ∧ u.core c = { s.core c with reqs := l } ∧
          u.core home = { hk with feq := [⟨off, op, v, c, t, r.inc, (s.core c).ctx⟩] }) ∧
        (h.limit = some 0 → exec (.feAtHome c t) s =
          .next ((s.modCore c (fun k => { k with reqs := l })).trapOf c t .fetime a)))) ∧
    (∀ w rest n, hk.withdraw = w :: rest → w.1 = n → ∃ u, OnCore (.feWithdrawal home n) s u home (fun k => { k with
      withdraw := rest, feq := k.feq.filter (fun q => !(decide (q.core = w.1) && decide (q.slot = w.2.1) && decide (q.inc = w.2.2))) })) ∧
    (∀ rd a, h.wait = .home rd (.fe op (.ls pos off) v) a → h.limit = some 0 →
      (∀ q ∈ (s.core c).replies, q.slot = t → q.inc ≠ h.inc) → (s.core c).reqs = r :: l → r.slot = t →
      r.k = .fe op (.ls pos off) v → exec (.feLimitExpiry c t) s =
        .next (((s.modCore home (fun k => { k with feq := [] })).modCore c (fun k => { k with reqs := l })).trapOf c t .fetime a)) ∧
    (∀ rd a, h.wait = .home rd (.fe op (.ls pos off) v) a → h.limit = some 0 →
      (∃ q ∈ (s.core c).replies, q.slot = t ∧ q.inc = h.inc) → exec (.feLimitExpiry c t) s = .next s)

/-- R159, R160: what an operation leaves behind at home is offered to the queue at once: a STEF that waited for the word a remote
LDFE takes puts its own there and is answered, in the same step. -/
def Claims.QueueServedAtHome : Prop :=
  ∀ (s : State) (c t pos off : Nat) (r : Req) (l : List Req) (q : FeOp),
    let home := s.locate pos
    let hk := s.core home
    home ≠ c → q.core ≠ c → q.core ≠ home → hk.field ≠ none → hk.placing = false → hk.ls.wf = true → hk.feq = [q] →
    (s.core c).reqs = r :: l → r.slot = t → r.k = .fe 0 (.ls pos off) 0 → s.swept (.ls pos off) (s.core c).ctx = false →
    hk.tags.contains (off / 8) = true → hk.lsBad off 8 = false → q.op = 2 → q.off = off → off % 8 = 0 →
    ∃ u, exec (.feAtHome c t) s = .next u ∧ (u.core home).feq = [] ∧ (u.core home).tags.contains (off / 8) = true ∧
      Put hk.ls (u.core home).ls off q.v 0xFF 8 ∧ (⟨t, r.inc, .val (mread hk.ls off 8)⟩ : Reply) ∈ (u.core c).replies ∧
      (⟨q.slot, q.inc, .val 0⟩ : Reply) ∈ (u.core q.core).replies ∧ u.Sent (.remoteReply q.core q.slot) ∧ u.Sent (.remoteReply c t)

/-- R166, R168, R19, R304: home answers a WAITGE whose counter has reached its target, and watches it while it has not; a limit
run out is CNTTIME, unless a reply is on its way. A SLEEP whose limit has run out completes with no event, but not in a frozen
core (the model's choice, log 89). -/
def Claims.CountersAndSleep : Prop :=
  ∀ (s : State) (c t : Nat),
    let k := s.core c
    let h := s.thr c t
    let answered := ∃ q ∈ k.replies, q.slot = t ∧ q.inc = h.inc
    (∀ rd off target a, h.wait = .home rd (.waitge (.ls c off) target) a → k.fwdTo = none → k.placing = false → k.field ≠ none →
      k.reqs = [] → k.lsBad off 8 = false → s.swept (.ls c off) k.ctx = false →
      let v := mread k.ls off 8
      (target ≤ v → ∃ u, exec (.waitgeAtHome c t) s = .next u ∧
        { u with cores := s.cores, inflight := s.inflight, watches := s.watches } = s ∧ (∀ j, j ≠ c → u.core j = s.core j) ∧
        u.core c = { k with replies := k.replies ++ [⟨t, h.inc, .val v⟩] } ∧ ∀ w ∈ u.watches, ¬(w.core = c ∧ w.slot = t)) ∧
      (v < target → h.limit ≠ some 0 → ∃ u, exec (.waitgeAtHome c t) s = .next u ∧
        { u with watches := s.watches } = s ∧ (∀ w ∈ s.watches, w ∈ u.watches) ∧
        ∃ w ∈ u.watches, w.core = c ∧ w.slot = t ∧ w.inc = h.inc) ∧
      (v < target → h.limit = some 0 → exec (.waitgeAtHome c t) s = .next ((s.unwatch c t).trapOf c t .cnttime a))) ∧
    (∀ rd d target a, h.wait = .home rd (.waitge d target) a → h.limit = some 0 →
      (k.reqs = [] → ¬answered → exec (.counterLimitExpiry c t) s = .next ((s.unwatch c t).trapOf c t .cnttime a)) ∧
      (answered → exec (.counterLimitExpiry c t) s = .next s)) ∧
    (∀ rd, h.wait = .sleep rd → h.st = .sleeping → h.limit = some 0 → h.evm &&& h.evp = 0 →
      ((∀ x, k.cell = some x → x.frozen = false) →
        ∃ u, OnCore (.sleepTimeout c t) s u c (fun k => k.modThr t (fun h => (h.setReg rd 0).retire))) ∧
      (∀ x, k.cell = some x → x.frozen = true → exec (.sleepTimeout c t) s = .next s)) ∧
    (∀ (d : Dest) (n x : Nat) (w : Watch) (rd : Reg) (target : Nat) (a : Word), s.watches = [w] → s.overlaps d n w.dst = true →
      (s.thr w.core w.slot).wait = .home rd (.waitge w.dst target) a → s.counterSeen w.core w.dst = (x, false) →
      (target ≤ x → ∃ u, s.notify d n = u ∧ u.watches = [] ∧ (∀ j, j ≠ w.core → u.core j = s.core j) ∧
        u.core w.core = { s.core w.core with replies := (s.core w.core).replies ++ [⟨w.slot, w.inc, .val x⟩] } ∧
        u.Sent (.remoteReply w.core w.slot)) ∧
      (x < target → s.notify d n = s))

/-- R158 to R161, R166, R168: full-or-empty operations and counters at home, and limits. -/
def Obligations.HomeQueues : Prop := FullEmptyAtHome ∧ QueueServedAtHome ∧ CountersAndSleep

/-- R162 to R164, R167, R43: the oldest entry sent through a port is appended to the neighbour's queue; the oldest event a
slot sent (that they arrive in the order sent is the model's reading, log 20) sets its bit in the slots its mask names, and a thread
that slept for it goes on with it. -/
def Claims.Arrivals : Prop :=
  ∀ (s : State) (c d t : Nat),
    let k := s.core c
    (∀ n v r, s.neighbour c d = some n → tget [] k.portOut d = v :: r → s.swept (.ls n 0) k.ctx = false → ∃ u, CoresOnly (.portEntryArrival c d) s u [c, n] ∧
      tget [] (u.core n).portIn (opposite d) = tget [] (s.core n).portIn (opposite d) ++ [v] ∧
      (∀ e, e ≠ opposite d → tget [] (u.core n).portIn e = tget [] (s.core n).portIn e) ∧
      tget [] (u.core c).portOut d = r ∧ (∀ e, e ≠ d → tget [] (u.core c).portOut e = tget [] k.portOut e) ∧
      (n ≠ c → { u.core c with portOut := k.portOut } = k) ∧
      ∀ j ∈ (s.core n).retriers, (0, Action.resume n j) ∈ u.inflight) ∧
    (∀ m r i f, k.evOut = m :: r → m.slot = t → k.field = some i → tfind s.fields i = some f →
      let x := s.lcnPos f m.lcn
      s.swept (.ls x 0) k.ctx = false → ∃ u, CoresOnly (.eventArrival c t) s u [c, x] ∧ (u.core c).evOut = r ∧
        (∀ j, u.thr x j = if bits m.mask j j = 1 then (s.thr x j).event (8 + m.e) else s.thr x j) ∧
        { u.core x with evOut := (s.core x).evOut, threads := (s.core x).threads } = s.core x) ∧
    (∀ (h : Thread) (b : Nat),
      let m := h.evm &&& (h.evp ||| BitVec.ofNat 16 (2 ^ b))
      (h.st = .empty → h.event b = h) ∧
      (h.st ≠ .empty → h.st ≠ .sleeping → h.event b = { h with evp := h.evp ||| BitVec.ofNat 16 (2 ^ b) }) ∧
      (∀ rd, h.st = .sleeping → h.wait = .sleep rd → m ≠ 0 → (h.event b).st = .ready ∧ (h.event b).wait = .none ∧
        (h.event b).evp = (h.evp ||| BitVec.ofNat 16 (2 ^ b)) &&& ~~~ m ∧
        ∀ q, (h.event b).reg q = if q = rd ∧ q ≠ 0 then m.setWidth 64 else h.reg q))

/-- R153, R165: each serialiser grants the fences before it in the order they arrived, and passes each on to the next scope,
where it stands last; after the last, the read set is cleared and the fence completes, or as a BAR's arrives in its barrier: it
joins the episode under way, or begins one, or is PROT where that has another scope (its address 0 is the model's, log 96). An episode in which every core of its
region has arrived releases every thread that waits in it, clears the read set of their cores, and is counted. -/
def Claims.TokensAndEpisodes : Prop :=
  ∀ (s : State) (c t b : Nat),
    let line := fun (v : State) (y : Nat) => tget [] v.serial (s.serialiser c y)
    (∀ y r k g q, (s.thr c t).wait = .token (y :: r) k → line s y = g :: q → (g.1, g.2.1) ≠ (c, t) →
      exec (.orderTokenGrant c t) s = .next s) ∧
    (∀ y x r k g q, (s.thr c t).wait = .token (y :: x :: r) k → line s y = g :: q → (g.1, g.2.1) = (c, t) →
      s.serialiser c y ≠ s.serialiser c x → ∃ u, exec (.orderTokenGrant c t) s = .next u ∧
      { u with cores := s.cores, inflight := s.inflight, tokens := s.tokens, serial := s.serial } = s ∧ u.tokens = s.tokens + 1 ∧
      (∀ j, j ≠ c → u.core j = s.core j) ∧ u.core c = (s.core c).modThr t (fun h => { h with wait := .token (x :: r) k }) ∧
      line u y = q ∧ line u x = line s x ++ [(c, t, (s.thr c t).inc)] ∧
      (∀ i, i ≠ s.serialiser c y → i ≠ s.serialiser c x → tget [] u.serial i = tget [] s.serial i) ∧
      (line s x = [] → u.Sent (.orderTokenGrant c t)) ∧
      ∀ f q', q = f :: q' → u.Sent (.orderTokenGrant f.1 f.2.1)) ∧
    (∀ y sc g q, (s.thr c t).wait = .token [y] (.sc sc) → line s y = g :: q → (g.1, g.2.1) = (c, t) →
      ∃ u, exec (.orderTokenGrant c t) s = .next u ∧
      { u with cores := s.cores, inflight := s.inflight, tokens := s.tokens, serial := s.serial } = s ∧ u.tokens = s.tokens + 1 ∧
      (∀ j, j ≠ c → u.core j = s.core j) ∧ u.core c = (ReadsCleared (s.core c)).modThr t Thread.retire ∧
      line u y = q ∧ (∀ i, i ≠ s.serialiser c y → tget [] u.serial i = tget [] s.serial i) ∧
      ∀ f q', q = f :: q' → u.Sent (.orderTokenGrant f.1 f.2.1)) ∧
    (∀ y j sc g q, (s.thr c t).wait = .token [y] (.bar j sc) → line s y = g :: q → (g.1, g.2.1) = (c, t) →
      let granted := fun (u : State) => u.tokens = s.tokens + 1 ∧ line u y = q ∧
        (∀ i, i ≠ s.serialiser c y → tget [] u.serial i = tget [] s.serial i) ∧ (∀ j, j ≠ c → u.core j = s.core j) ∧
        { u with cores := s.cores, inflight := s.inflight, tokens := s.tokens, serial := s.serial, episodes := s.episodes, nextId := s.nextId } = s
      let arrives := fun (u : State) => u.core c = (ReadsCleared (s.core c)).modThr t (fun h => h.await (.bar j sc))
      (∀ n e, s.episodeOf c j = some (n, e) →
        (e.scope = sc → ∃ u, exec (.orderTokenGrant c t) s = .next u ∧ granted u ∧ arrives u ∧ u.episodes = s.episodes ∧
          u.nextId = s.nextId) ∧
        (e.scope ≠ sc → ∃ u, exec (.orderTokenGrant c t) s = .next (u.trapOf c t .prot 0) ∧ granted u ∧
          u.core c = ReadsCleared (s.core c) ∧ u.episodes = s.episodes)) ∧
      (s.episodeOf c j = none → ∃ u e, exec (.orderTokenGrant c t) s = .next u ∧ granted u ∧ arrives u ∧ u.nextId = s.nextId + 1 ∧
        tfind u.episodes s.nextId = some e ∧ e.k = j ∧ e.scope = sc ∧
        ∀ i, i ≠ s.nextId → tfind u.episodes i = tfind s.episodes i)) ∧
    (∀ e, tfind s.episodes b = some e →
      let cs := s.regionCores e
      (∀ j ∈ cs, (s.core j).arrived e.k = true) → ∃ u, exec (.barrierEpisodeComplete b) s = .next u ∧
        { u with cores := s.cores, episodes := s.episodes, fields := s.fields } = s ∧
        tfind u.episodes b = none ∧ (∀ i, i ≠ b → tfind u.episodes i = tfind s.episodes i) ∧ (∀ j, j ∉ cs → u.core j = s.core j) ∧
        (∀ j ∈ cs, ∀ i, u.thr j i = match (s.thr j i).wait with
          | .bar n _ => if n = e.k then (s.thr j i).retire else s.thr j i
          | _ => s.thr j i) ∧
        (∀ j ∈ cs, ∀ i sc, (s.thr j i).wait = .bar e.k sc → { u.core j with threads := (s.core j).threads } = ReadsCleared (s.core j)) ∧
        ((cs.map (fun j => (s.core j).lcn)).Nodup → ∀ f, tfind s.fields e.field = some f → ∃ g, tfind u.fields e.field = some g ∧
          ∀ j ∈ cs, tget 0 g.episodes ((s.core j).lcn * 4 + e.k) = tget 0 f.episodes ((s.core j).lcn * 4 + e.k) + 1))

/-- R153, R162 to R167: ports, events, order tokens and barriers. -/
def Obligations.ArrivalsAndEpisodes : Prop := Arrivals ∧ TokensAndEpisodes

/-- R254, R318: a steal is served once, at the victim's deque: the upper half of its newest range, all of a range of one,
or all ones of an empty deque; nothing else of the victim changes. -/
def Claims.StealsServed : Prop :=
  ∀ (s : State) (c t lcn i : Nat) (r : Req) (l : List Req) (f : Field), (s.core c).reqs = r :: l → r.slot = t → r.k = .steal lcn →
    (s.core c).field = some i → tfind s.fields i = some f →
    let v := s.lcnPos f lcn
    s.swept (.ls v 0) (s.core c).ctx = false →
    let gives := fun (n : Nat) (dq : List (Nat × Nat)) => ∃ u, CoresOnly (.stealRequest c t) s u [c, v] ∧
      (u.core c).reqs = l ∧ (u.core c).replies = (s.core c).replies ++ [⟨t, r.inc, .range n⟩] ∧ (u.core v).deque = dq ∧
      (v ≠ c → u.core v = { s.core v with deque := dq }) ∧ u.Sent (.remoteReply c t)
    ((s.core v).deque = [] → gives (2 ^ 64 - 1) []) ∧
    (∀ a b q, (s.core v).deque = (a, b) :: q → (b - a) / 2 = 0 → gives (a + 2 ^ 32 * b) q) ∧
    (∀ a b q, (s.core v).deque = (a, b) :: q → (b - a) / 2 ≠ 0 →
      gives (a + (b - a) / 2 + 2 ^ 32 * b) ((a, a + (b - a) / 2) :: q))

/-- R253 to R255, R318: the deque, and steals at the victim. -/
def Obligations.DequeAndSteals : Prop := DequeInstructions ∧ StealsServed

/-- R19, R142, R171, R283: a reply writes its registers and its thread goes on; a sector's bytes go to its load and join the read
set at once, unless its fetch was barred; an uncorrectable error is UE at the access's address; a reply to a thread that is
gone changes nothing. -/
def Claims.RepliesArrive : Prop :=
  ∀ (s : State) (c t : Nat) (r : Reply) (l : List Reply), (s.core c).replies = r :: l → r.slot = t →
    let h := s.thr c t
    let k := s.core c
    (h.inc = r.inc →
      (∀ ws, r.body = .ok → h.wait = .reply ws → ∃ u, OnCore (.remoteReply c t) s u c (fun k =>
        Core.modThr { k with replies := l } t (fun h => (h.setRegs ws).retire))) ∧
      (∀ v rd op dbl d y e a, r.body = .val v → h.wait = .home rd (.atomic op dbl d y e) a → ∃ u,
        OnCore (.remoteReply c t) s u c (fun k =>
          (Core.removeR { k with replies := l } d).modThr t (fun h => (h.setReg rd (atomicRes op (if dbl then 64 else 32) v)).retire))) ∧
      (∀ v rd d n z sc a, r.body = .val v → h.wait = .home rd (.lda d n z sc) a → ∃ u,
        OnCore (.remoteReply c t) s u c (fun k =>
          let k := Core.removeR { k with replies := l } d
          (if 1 ≤ sc then k.clearR else k).modThr t (fun h => (h.setReg rd (loadExt v n z)).retire))) ∧
      (∀ v rd n a, r.body = .range v → h.wait = .home rd (.steal n) a → ∃ u, OnCore (.remoteReply c t) s u c (fun k =>
        Core.modThr { k with replies := l } t (fun h => (h.setReg rd (wordN v)).retire))) ∧
      (∀ rd d n v a, r.body = .ok → h.wait = .home rd (.strel d n v) a → ∃ u, OnCore (.remoteReply c t) s u c (fun k =>
        Core.modThr { k with replies := l } t Thread.retire)) ∧
      (∀ v rd d n a, r.body = .val v → h.wait = .home rd (.waitge d n) a → ∃ u, OnCore (.remoteReply c t) s u c (fun k =>
        (ReadsCleared (Core.removeR { k with replies := l } d)).modThr t Thread.retire)) ∧
      (∀ v rd op d x a, r.body = .val v → h.wait = .home rd (.fe op d x) a → ∃ u, OnCore (.remoteReply c t) s u c (fun k =>
        (Core.removeR { k with replies := l } d).modThr t (fun h =>
          if op ∈ [0, 1, 4] then (h.setReg rd (wordN v)).retire else h.retire))) ∧
      (∀ f x v w rd n z off a, r.body = .sector f v false → h.wait = .load f rd n z off a → k.pbuf = [] →
        k.fetch f = some x → x.got = some w → x.ue = false →
        let came := fun (k : Core) => Core.modThr { k with replies := l, fetches := k.fetches.filter (fun y => y.id ≠ f) } t
          (fun h => (h.setReg rd (loadExt (sectorPart (k.overlaid x.dst w) off n) n z)).retire)
        (x.barred = true → ∃ u, OnCore (.remoteReply c t) s u c came) ∧
        (x.barred = false → ∃ u e, OnCore (.remoteReply c t) s u c (fun k => { came k with pbuf := [e], nextId := k.nextId + 1 }) ∧
          e.dst = x.dst ∧ e.r = true ∧ e.copy = k.overlaid x.dst w ∧ e.mask = 0)) ∧
      (∀ f x v w rd n z off a, r.body = .sector f v true → h.wait = .load f rd n z off a → k.fetch f = some x → x.got = some w →
        x.ue = true → exec (.remoteReply c t) s =
          .next (((s.modCore c (fun k => { k with replies := l })).trapOf c t .ue a).modCore c
            (fun k => { k with fetches := k.fetches.filter (fun y => y.id ≠ f) }))) ∧
      (∀ rd q a, r.body = .ue → h.wait = .home rd q a →
        exec (.remoteReply c t) s = .next ((s.modCore c (fun k => { k with replies := l })).trapOf c t .ue a))) ∧
    (h.inc ≠ r.inc → (∀ v, r.body ≠ .range v) → (∀ f v x, r.body ≠ .sector f v x) →
      ∃ u, OnCore (.remoteReply c t) s u c (fun k => { k with replies := l }))

/-- R374, R383: a request sent to a peer 2^20 ticks ago, or a sector fetch, is answered with an uncorrectable error; a drain is
acknowledged as failed, with a report of class 11 that names the import handle and counts one. -/
def Claims.PeerTimeouts : Prop :=
  ∀ (s : State) (c n : Nat), n + 2 ^ 20 ≤ s.cyc →
    let k := s.core c
    (∀ r, k.pbuf = [] → k.fetches = [] → k.reqs = [r] → r.sentAt = some n → r.k.isStrel = false → ∃ u,
      OnCore (.peerReplyTimeout c) s u c (fun k => { k with reqs := [], replies := k.replies ++ [⟨r.slot, r.inc, .ue⟩] })) ∧
    (∀ f, k.pbuf = [] → k.fetches = [f] → k.reqs = [] → f.sentAt = some n → ∃ u,
      OnCore (.peerReplyTimeout c) s u c (fun k =>
        let f := { f with got := some 0, bad := 15, ue := true, sentAt := none }
        { k with fetches := [f], replies := k.replies ++ [⟨f.slot, f.inc, .sector f.id 0 true⟩] })) ∧
    (∀ e p h o i, k.pbuf = [e] → k.fetches = [] → k.reqs = [] → e.dst = .imp p h o i → e.sent = true → e.sentAt = some n →
      exec (.peerReplyTimeout c) s = .next (((s.modCore c (fun k => { k with pbuf := [{ e with sentAt := none }] })).post
        (.drainAcknowledgement c e.id)).report (some k.part) 11 0 h 1 k.ctx))

/-- R19, R150 to R157, R280, R374: requests at home and their replies. -/
def Obligations.RequestsAndReplies : Prop := RequestsAtHome ∧ RepliesArrive ∧ PeerTimeouts

/-- R301, R302: returned leave goes back to its governor; every millisecond the ramp credit is 200,000 microwatts again; the
head request draws from the credit, once in a tick, and the MTILE that asked is granted when it has drawn all. -/
def Claims.LeaveSteps : Prop :=
  ∀ (s : State) (d : Nat),
    let x := s.die d
    let onDie := fun (i : Instr) (u : State) (y : Die) => exec i s = .next u ∧
      { u with dieTab := s.dieTab, inflight := s.inflight } = s ∧ u.die d = y ∧ ∀ e, e ≠ d → u.die e = s.die e
    (∃ u, onDie (.rampCreditRefill d) u { x with credit := 200000 }) ∧
    (∀ w r, x.back = w :: r → ∃ u, onDie (.leaveReturn d) u { x with back := r, held := x.held - w } ∧ u.Sent (.leaveGrant d)) ∧
    (∀ r q, x.queue = r :: q → x.lastGrant ≠ s.cyc + 1 → r.started = true ∨ x.held + r.w ≤ x.cap →
      (x.credit < r.left → ∃ u, onDie (.leaveGrant d) u
        (let r := { r with left := r.left - x.credit, started := true }
         { x with credit := 0, lastGrant := s.cyc + 1, queue := r :: q })) ∧
      (∀ m, r.left ≤ x.credit → s.claims = [] → (s.core r.core).mtile = some m → m.slot = r.slot → m.inc = r.inc → ∃ u,
        exec (.leaveGrant d) s = .next u ∧ (u.core r.core).mtile = some { m with granted := true } ∧
        u.die d = { x with credit := x.credit - r.left, lastGrant := s.cyc + 1, queue := q, held := x.held + r.w } ∧
        (∀ e, e ≠ d → u.die e = s.die e) ∧ (∀ j, j ≠ r.core → u.core j = s.core j) ∧ u.Sent (.kStep r.core)))

/-! ## Engines, tiles and benches -/

/-- R226 to R229, R250, R268: the sequencer takes its oldest command, behind any issued earlier that still waits for a
translation. One that then breaks its row's conditions is ILLEGAL for its thread and commits nothing (checked again, the model's choice, log
47). A copy or FEEDS that is not
repeated enters the copy queue as soon as the queue and the range scoreboard have room, with the descriptors as they stand,
holding its own ranges; its thread's instruction is then complete. -/
def Claims.SequencerAccepts : Prop :=
  ∀ (s : State) (c : Nat) (q : Cmd) (l : List Cmd), (s.core c).seqq = q :: l → q.taken = false → q.rep = 0 →
    (s.thr c q.slot).inc = q.inc →
    let k := s.core c
    (k.commandAhead q.stamp = true → exec (.sequencerAccept c) s = .next s) ∧
    (k.commandAhead q.stamp = false → q.bad k = true → q.op ≠ .feeds → ∃ u r, exec (.sequencerAccept c) s = .next u ∧
      (u.thr c q.slot).st = .parked ∧
      (u.core c).seqq = l ∧ (u.core c).copyQ = k.copyQ ∧ (u.core c).gatQ = k.gatQ ∧ (u.core c).scb = k.scb ∧
      r ∈ (u.die (dieOf c)).recs ∧ r.seq = s.seqNo ∧ r.cause = .illegal) ∧
    (k.commandAhead q.stamp = false → q.bad k = false → q.op = .copy ∨ q.op = .copy2 ∨ q.op = .feeds → q.draws k = none →
      q.j = 0 → k.tape = none → k.copyQ.length < 2 → (s.thr c q.slot).wait = .seq →
      k.scb.length ≤ 6 → ∃ u x es,
        OnCore (.sequencerAccept c) s u c (fun k =>
          let k := k.modThr q.slot Thread.retire
          { k with seqq := l, copyQ := k.copyQ ++ [x], scb := k.scb ++ es, nextId := k.nextId + 1 }) ∧
        x.word = q.word ∧ x.ra = q.ra ∧ x.rb = q.rb ∧ x.rc = q.rc ∧ x.done = q.done ∧ x.wrote = q.wrote ∧ x.sadv = 0 ∧ x.dadv = 0 ∧
        x.desS = (k.slot q.slotS).getD [] ∧ x.desD = (k.slot q.slotD).getD [] ∧
        es.map (fun e => (e.lo, e.hi)) = s.ranges c x ∧ ∀ e ∈ es, e.cmd = x.id ∧ e.retirable = false)

/-- R230, R231, R233, R266: a counter in the core's own local store is added to as an atomic of the core, and one of another home there,
checked and translated when the add is made: a fault leaves the add unmade, and one in offsets 0x6000 to 0x7FFF of the own store is
dropped and spoil names it. A command with no counter adds nothing. -/
def Claims.CounterAdds : Prop :=
  ∀ (s : State) (c : Nat) (q : Cmd),
    let k := s.core c
    let off := q.counter.toNat
    (q.counter = 0 → s.counterAdd c q = (s, none)) ∧
    (q.counter ≠ 0 → off % 8 = 0 → off < 0x6000 → k.field ≠ none → k.fwdTo = none → k.ls.wf = true →
      (k.lsBad off 8 = false → ∃ u l x, s.counterAdd c q = (u, none) ∧ Told (s.setCore c { k with ls := l, lsUe := x }) u ∧
        Put k.ls l off (mread k.ls off 8 + 1) 0xFF 8) ∧
      (k.lsBad off 8 = true → s.counterAdd c q = (s, some (.ue, q.counter)))) ∧
    (q.counter ≠ 0 → ∀ u p, s.placeNow c (stationUnit c) q.counter 8 3 = (u, p) →
      (∀ e fa, p = .trap e fa → s.counterAdd c q = (u, some (e, fa))) ∧
      (∀ x h o i, p = .far (.imp x h o i) → s.counterAdd c q = (u, some (.prot, q.counter))) ∧
      (∀ o, p = .high o → s.counterAdd c q = (u.modCore c (fun k => k.spoiled q.slot o true), none)) ∧
      (∀ d, p = .far d → (∀ x h o i, d ≠ .imp x h o i) →
        ((u.homeRead d 8).2 = true → s.counterAdd c q = (u, some (.ue, q.counter))) ∧
        ((u.homeRead d 8).2 = false → s.counterAdd c q =
          (u.homeWrite (u.core c).field d (((u.homeRead d 8).1 + 1) % 2 ^ 64) 0xFF 8, none))))

/-- R229, R231, R235: an element of a copy from the core's own local store to itself: the source element, clamped to the source's
extents, is written at the destination's indices and counts as written; beyond the destination's extents it is dropped and
counted as dropped. Indices are unbounded integers (R11): that a source below the first element gives a free value and a
destination below it drops the element is the model's choice (log 22). -/
def Claims.CopyElements : Prop :=
  ∀ (s : State) (c : Nat) (q : Cmd) (x : Nat × Nat × Nat × Nat), s.sectorBad c q q.done = false →
    let (S, D) : Desc × Desc := (q.desS, q.desD)
    let k := s.core c
    let a := (Desc.clamped S x).toNat
    let n := Desc.bytesOf D
    let drops := ∃ u, s.copyOne c q = (u, { q with done := q.done + 1 }) ∧ (∀ j, j ≠ c → u.core j = s.core j) ∧
      u.core c = { k with drop := min 0xFFFF (k.drop + 1) }
    let puts := fun (s : State) (y : Nat × Nat × Nat × Nat) (v : Nat) => ∃ u l w,
      s.copyOne c q = (u, { q with done := q.done + 1, wrote := q.wrote + 1 }) ∧
      Told (s.setCore c { k with ls := l, lsUe := w }) { u with free := s.free } ∧ Put k.ls l (Desc.at4 D y).toNat v (2 ^ n - 1) n
    let home := fun (y : Nat × Nat × Nat × Nat) => let b := (Desc.at4 D y).toNat; b % n = 0 ∧ b + n ≤ 0x6000
    Desc.bitsOf D = 8 * n → n ∈ [1, 2, 4, 8] → k.field ≠ none → k.fwdTo = none → k.ls.wf = true →
    (q.srcAt q.done = .elem x → Desc.empty S = false → Desc.bitsOf S = 8 * n → Desc.bytesOf S = n →
      a % n = 0 → a + n ≤ 0x6000 → k.lsBad a n = false →
      (∀ y, q.dstAt q.done = some y → Desc.holds D y = true → home y → puts s y (mread k.ls a n)) ∧
      (∀ y, q.dstAt q.done = some y → Desc.holds D y = false → drops) ∧
      (q.dstAt q.done = none → drops)) ∧
    (∀ y, q.srcAt q.done = .below → q.dstAt q.done = some y → Desc.holds D y = true → home y →
      puts s y (Config.freeElement s.free)) ∧
    (q.srcAt q.done = .none → s.copyOne c q = (s, { q with done := q.done + 1 })) ∧
    (q.op = .copy → ∀ i : Int, q.dadv = i - q.done → (i < 0 → q.dstAt q.done = none) ∧
      (0 ≤ i → q.dstAt q.done = some (Desc.linear D i.toNat)))

/-- R230, R231, R265, R268: a copy at the head of its queue writes what it has left to write, adds to its counter and completes: its
scoreboard entries may retire and the queue moves on; or the fault it met stays with it; or, a home being placed, it is tried
again in the next tick. An add that faults stays with the command, and when it is tried again only the add is made. Of a queue that is
halted, or paused, nothing completes. -/
def Claims.CommandsComplete : Prop :=
  ∀ (s : State) (c : Nat) (x : Cmd) (l : List Cmd), (s.core c).copyQ = x :: l →
    let k := s.core c
    let adds := fun (s1 : State) (x1 : Cmd) => x1.counter ≠ 0 → x1.id = x.id →
      (s1.addHeld c x1 = true → ∃ u, exec (.engineCommandComplete c 0) s = .next u ∧ (u.core c).copyQ = { x1 with addOnly := true } :: l ∧
        (s1.cyc + 1, Action.ev (.engineCommandComplete c 0)) ∈ u.inflight) ∧
      (s1.addHeld c x1 = false → ∀ v r, s1.counterAdd c x1 = (v, r) → (v.core c).copyQ = x1 :: l →
        (r = none → ∃ u, exec (.engineCommandComplete c 0) s = .next u ∧ (u.core c).copyQ = l ∧ SameMemory v u ∧
          (∀ e ∈ (u.core c).scb, e.cmd = x.id → e.retirable = true)) ∧
        (∀ e fa, r = some (e, fa) → ∃ u, exec (.engineCommandComplete c 0) s = .next u ∧ u.Sent (.engineFault c 0) ∧ SameMemory v u ∧
          (u.core c).copyQ = { x1 with addOnly := true, fault := some (e, fa, true) } :: l))
    (x.op = .copy ∨ x.op = .copy2 → k.copyHalt = false → k.paused = false → x.fault = none → x.addOnly = false →
      ∀ s1 x1, s.copyRun c x (x.total - x.done) = (s1, x1) → (s1.core c).copyQ = k.copyQ →
        (x1.fault = none → x1.total ≤ x1.done → x1.counter = 0 → x1.id = x.id → ∃ u,
          exec (.engineCommandComplete c 0) s = .next u ∧ (u.core c).copyQ = l ∧
          (∀ a j, u.lsByte j a = s1.lsByte j a) ∧ u.hbm = s1.hbm ∧ u.hostMem = s1.hostMem ∧
          (∀ e ∈ (u.core c).scb, e.cmd = x.id → e.retirable = true)) ∧
        (x1.fault ≠ none → ∃ u, exec (.engineCommandComplete c 0) s = .next u ∧ (u.core c).copyQ = x1 :: l ∧
          u.Sent (.engineFault c 0) ∧ ∀ a j, u.lsByte j a = s1.lsByte j a) ∧
        (x1.fault = none → x1.total ≤ x1.done → adds (s1.modCore c (fun k => k.setHead 0 x1)) x1) ∧
        (x1.fault = none → x1.done < x1.total → ∃ u, exec (.engineCommandComplete c 0) s = .next u ∧ (u.core c).copyQ = x1 :: l ∧
          (s1.cyc + 1, Action.ev (.engineCommandComplete c 0)) ∈ u.inflight)) ∧
    (k.copyHalt = false → k.paused = false → x.fault = none → x.addOnly = true → adds s x) ∧
    (k.copyHalt = true ∨ k.paused = true → exec (.engineCommandComplete c 0) s = .next s)

/-- R231 to R233, R243, 14 R330: a fault of the head of the copy or the gather queue halts that queue, and of a fence the queues it
stands in. The thread that issued the command, ready, waiting or sleeping, parks at its next word with what it waited for
withdrawn, its limit kept, and with it what its PGNEXT or PGSAVE had taken at issue (R316; the model's choice, log 114); a parked one has a record more. The record holds the cause, the address and the engine detail with
the elements written, under the next sequence number; of an empty slot, or one another thread has taken, it says so and no
thread changes. -/
def Claims.EngineFaults : Prop :=
  ∀ (s : State) (c q : Nat) (x : Cmd) (e : Cause) (fa : Word) (d : Bool),
    let k := s.core c
    let h := s.thr c x.slot
    let halted := fun (u : State) =>
      (u.core c).copyHalt = (k.copyHalt || decide (q = 0) || (decide (x.op = .join) && bits x.rb.toNat 0 0 = 1)) ∧
      (u.core c).gatHalt = (k.gatHalt || decide (q = 1) || (decide (x.op = .join) && bits x.rb.toNat 1 1 = 1))
    let record := fun (u : State) (r : TrapRec) =>
      r ∈ (u.die (dieOf c)).recs ∧ r.seq = s.seqNo ∧ r.org = 1 ∧ r.cause = e ∧ r.faddr = fa ∧ r.slot = x.slot ∧
      r.dw7 = wordN (x.wrote % 2 ^ 32 * 2 ^ 32 + x.tape % 2 ^ 16 * 2 ^ 16 + q * 2 ^ 7 + (if d then 2 ^ 6 else 0) +
        bits x.word.toNat 13 8) ∧
      u.seqNo = s.seqNo + 1 ∧ SameMemory s u
    q < 2 → k.head q = some x → x.fault = some (e, fa, d) → (if q = 0 then k.copyHalt else k.gatHalt) = false →
    (h.inc = x.inc → h.st ≠ .empty → ∃ u r, exec (.engineFault c q) s = .next u ∧ halted u ∧ record u r ∧ r.e = false ∧
      r.iaddr = h.iaddr.toNat ∧ (u.thr c x.slot).st = .parked ∧ (u.thr c x.slot).recs = h.recs + 1 ∧
      (u.thr c x.slot).limit = h.limit ∧ (∀ i, (u.thr c x.slot).reg i = h.reg i) ∧
      (h.st = .parked → u.thr c x.slot = { h with recs := h.recs + 1 }) ∧
      (h.st ≠ .parked → (u.thr c x.slot).pc = h.iaddr ∧ (u.thr c x.slot).wait = h.keptWait ∧ (u.thr c x.slot).inc = h.inc + 1) ∧
      (h.st = .waiting ∨ h.st = .sleeping →
        (∀ w ∈ u.watches, ¬(w.core = c ∧ w.slot = x.slot ∧ w.inc = h.inc)) ∧
        (h.wait = .seq → ∀ y ∈ (u.core c).seqq, ¬(y.slot = x.slot ∧ y.inc = h.inc)) ∧
        (h.wait = .mtile → (u.core c).mtile = none))) ∧
    (h.inc ≠ x.inc ∨ h.st = .empty → ∃ u r, exec (.engineFault c q) s = .next u ∧ halted u ∧ record u r ∧ r.e = true ∧
      r.iaddr = 0 ∧ u.thr c x.slot = h ∧ ∀ j, j ≠ c → u.core j = s.core j)

/-- R230, R231, R243: a QJOIN at the head of every queue it names, or one that names none with nothing before it, adds to its counter and
leaves them; while another command stands before it in one of them it waits in the other; an add that faults stays with it, and its
fault is the copy queue's where it stands in both (the model's choice, log 97), and of no queue where it stands in none. -/
def Claims.JoinsComplete : Prop :=
  ∀ (s s1 : State) (c : Nat) (x : Cmd) (l m : List Cmd) (r : Option Flt), x.op = .join → x.fault = none →
    (s.core c).paused = false → s.addHeld c x = false → s.counterAdd c x = (s1, r) →
    (s1.core c).copyQ = (s.core c).copyQ → (s1.core c).gatQ = (s.core c).gatQ → (s1.core c).joins = (s.core c).joins →
    let k := s.core c
    let mask := wbits x.rb 1 0
    let y := fun (e : Flt) => { x with addOnly := true, fault := some (e.1, e.2, true) }
    let goes := fun (cq gq : List Cmd) => ∃ u, exec (.qjoinFenceComplete c) s = .next u ∧ (u.core c).copyQ = cq ∧ (u.core c).gatQ = gq ∧
      (u.core c).joins = k.joins ∧ SameMemory s1 u ∧ ∀ j, j ≠ c → u.core j = s1.core j
    let keeps := fun (cq gq : List Cmd) (q : Nat) => ∃ u, OnCore (.qjoinFenceComplete c) s u c (fun _ =>
        { s1.core c with copyQ := cq, gatQ := gq }) ∧ u.Sent (.engineFault c q)
    (k.copyQ = x :: l → k.gatQ = [] → k.copyHalt = false → mask = 1 →
      (r = none → goes l []) ∧ (∀ e, r = some e → s1 = s → keeps (y e :: l) [] 0)) ∧
    (k.gatQ = x :: m → k.copyQ = [] → k.gatHalt = false → mask = 2 →
      (r = none → goes [] m) ∧ (∀ e, r = some e → s1 = s → keeps [] (y e :: m) 1)) ∧
    (k.copyQ = x :: l → k.gatQ = x :: m → k.copyHalt = false → k.gatHalt = false → mask = 3 →
      (r = none → goes l m) ∧ (∀ e, r = some e → s1 = s → keeps (y e :: l) (y e :: m) 0)) ∧
    (∀ z, k.copyQ = z :: l → z.op ≠ .join → z.id ≠ x.id → k.gatQ = x :: m → k.joins = [] → mask = 3 →
      exec (.qjoinFenceComplete c) s = .next s) ∧
    (∀ z, k.gatQ = z :: m → z.op ≠ .join → z.id ≠ x.id → k.copyQ = x :: l → k.joins = [] → mask = 3 →
      exec (.qjoinFenceComplete c) s = .next s) ∧
    (k.copyQ = [] → k.gatQ = [] → k.joins = x :: l → mask = 0 →
      (r = none → ∃ u, exec (.qjoinFenceComplete c) s = .next u ∧ u.core c = { s1.core c with joins := l } ∧ SameMemory s1 u ∧
        (∀ j, j ≠ c → u.core j = s1.core j) ∧ (l ≠ [] → u.Sent (.qjoinFenceComplete c))) ∧
      (∀ e, r = some e → s1 = s → ∃ u, OnCore (.qjoinFenceComplete c) s u c (fun k => { k with joins := y e :: l }) ∧
        u.Sent (.engineFault c 3)))

/-- R226 to R235, R243, R268: the sequencer, the queues and their faults. -/
def Obligations.EngineQueues : Prop :=
  SequencerAccepts ∧ CounterAdds ∧ CopyElements ∧ CommandsComplete ∧ EngineFaults ∧ JoinsComplete

/-- R237, R312, R313: a chunk starts when its stage has been released and qdepth allows, and holds its ranges in the
scoreboard (the model's choice, log 42); its completion counts it as filled and moves qdepth one toward F / I rounded up plus one, within the ring's bounds. -/
def Claims.RingChunks : Prop :=
  ∀ (s : State) (c : Nat) (r : Ring), (s.core c).ring = some r → r.fault = none →
    let k := s.core c
    (k.paused = true → exec (.ringChunkStart c) s = .next s ∧ exec (.ringChunkComplete c) s = .next s) ∧
    (k.paused = false → r.since = none → r.filled < r.cmd.total → r.filled < r.released + r.cmd.ringMax →
      r.filled + 1 - r.released ≤ k.qdepth →
      k.scb.length + (s.ranges c r.copy).length ≤ 8 → ∃ u es, OnCore (.ringChunkStart c) s u c (fun k =>
        let r := { r with since := some s.cyc, part := 0 }
        { k with scb := k.scb ++ es, ring := some r }) ∧
      es.map (fun e => (e.lo, e.hi)) = s.ranges c r.copy ∧ (s.cyc + 1, Action.ev (.ringChunkComplete c)) ∈ u.inflight) ∧
    (∀ t s1 q1, k.paused = false → r.since = some t → r.addOnly = false → r.cmd.counter = 0 →
      s.copyRun c r.copy (r.cmd.chunk - r.part) = (s1, q1) →
      q1.fault = none → r.cmd.chunk ≤ q1.done → (s1.core c).qdepth = k.qdepth → s1.cyc = s.cyc → ∃ u r',
        exec (.ringChunkComplete c) s = .next u ∧
        (u.core c).ring = some r' ∧ r'.filled = r.filled + 1 ∧ r'.since = none ∧ r'.fill = s.cyc - t ∧ r'.released = r.released ∧
        (∀ a j, u.lsByte j a = s1.lsByte j a) ∧ (r.adv1 = none → (u.core c).qdepth = k.qdepth) ∧
        (∀ a b, r.adv0 = some a → r.adv1 = some b →
          let goal := max r.cmd.ringMin (min r.cmd.ringMax (ceilDiv (s.cyc - t) (max (b - a) 1) + 1))
          (u.core c).qdepth = if k.qdepth < goal then k.qdepth + 1 else if goal < k.qdepth then k.qdepth - 1 else k.qdepth))

/-- R239 to R241, R314: the lead reads each index of a list once, an uncorrectable one being an element fault that efault and
the vector tell (the model's choice, log 49; that all are read in one action, log 93). A part of a row goes to the window that is open at the engine of its granule, or opens one, which closes
after 32 ticks or with 256 sectors. When a window closes, its parts are performed at their homes, an element of a GATHER being
read there, one of a SCATTER written; with no row left the fault vector is written and the command may complete. -/
def Claims.GatherSteps : Prop :=
  ∀ (s : State) (c : Nat) (x : Cmd) (l : List Cmd), (s.core c).gatQ = x :: l → x.op = .gather ∨ x.op = .scatter ∨ x.op = .scatadd →
    (s.core c).gatHalt = false → x.fault = none →
    let k := s.core c
    (x.phase = 0 → x.drawn = false → x.sadv = 0 → k.paused = false → x.fv = [] → k.efault ≤ 0xFFFF →
      x.list + 4 * x.total ≤ 0x8000 → ∃ u y,
      exec (.gatherLead c) s = .next u ∧ (u.core c).gatQ = y :: l ∧ y.phase ≠ 0 ∧
      (∀ j < x.total, let a := x.list + 4 * j
        (k.lsBad a 4 = false → y.rows[j]? = some (some (mread k.ls a 4))) ∧
        (k.lsBad a 4 = true → y.rows[j]? = some none ∧ j ∈ y.fv ∧ j ∉ y.todo)) ∧
      (u.core c).efault = min 0xFFFF (k.efault + y.fv.length)) ∧
    (∀ p u q, s.passPart p = (u, q) → q = { p with win := q.win } ∧ u.cores = s.cores ∧
      ∃ w ∈ u.gwins, w.id = q.win ∧ w.engine = s.engineOf p.dst ∧ p.dst.sectorNo ∈ w.sectors ∧ s.cyc < w.closes ∧
        w.sectors.length ≤ 256 ∧ (w.sectors.length = 256 → u.Sent (.gatherWindowClose w.engine)) ∧
        ((∀ v ∈ s.gwins, v.engine ≠ w.engine ∨ v.closes ≤ s.cyc ∨ 256 ≤ v.sectors.length) →
          w.closes = s.cyc + 32 ∧ (w.closes, Action.ev (.gatherWindowClose w.engine)) ∈ u.inflight)) ∧
    (∀ w r p, s.gwins = w :: r → w.closes ≤ s.cyc ∨ 256 ≤ w.sectors.length → (∀ j, j ≠ c → (s.core j).gatQ = []) →
      x.parts = [p] → p.win = w.id →
      ∀ s1 x1, ({ s with gwins := r } : State).servePart c x p = (s1, x1) → x1.fault = none → x1.parts = [p] →
        (s1.core c).gatQ = x :: l → (s1.core c).gatHalt = false → (s.cores.map (·.1)).Nodup →
        let y := { x1 with parts := [] }
        exec (.gatherWindowClose w.engine) s = .next ((s1.modCore c (fun k => { k with gatQ := y :: l })).gatherOn c y)) ∧
    (∀ p v, x.op = .gather → Desc.bitsOf x.desS ≠ 4 → s.homeRead p.dst (Desc.bytesOf x.desS) = (v, false) →
      s.servePart c x p = (s, { x with got := x.got ++ [(p.row, p.elem, v)] })) ∧
    (∀ p pos off, x.op = .scatter → Desc.bitsOf x.desS ≠ 4 → p.dst = .ls pos off → (s.core (s.locate pos)).field ≠ none →
      (s.core (s.locate pos)).ls.wf = true →
      let home := s.locate pos
      let n := Desc.bytesOf x.desS
      ∃ u m z, s.servePart c x p = (u, { x with wrote := x.wrote + 1 }) ∧ Told (s.setCore home { s.core home with ls := m, lsUe := z }) u ∧
        Put (s.core home).ls m off p.v (2 ^ n - 1) n) ∧
    (x.todo = [] → x.sent = [] → ∃ u y, s.gatherOn c x = u ∧ (u.core c).gatQ = y :: l ∧ y = { x with phase := 2 } ∧
      (k.field ≠ none → k.fwdTo = none → k.ls.wf = true → x.fv = [] →
        Put k.ls (u.core c).ls x.fvAt 0 (2 ^ x.fvBytes - 1) x.fvBytes) ∧
      (s.cyc + 1, Action.ev (.engineCommandComplete c 1)) ∈ u.inflight)

/-- R217, R308: a word of a FEEDS whose elements are there enters the cell's queue with its tag, and the next word follows; a
full queue takes none, and no more than two words enter in one tick with those of FEED. -/
def Claims.FeedsDeliver : Prop :=
  ∀ (s : State) (c n v : Nat) (x : Cmd) (l : List Cmd), (s.core c).copyQ = x :: l → x.op = .feeds → (s.core c).copyHalt = false →
    (s.core c).paused = false → x.fault = none → x.done < x.total → s.neighbour c (x.fld 3 2) = some n → n ≠ c →
    let lane := fun (k : Core) => if x.fld 3 2 = 2 then k.northIn else k.westIn
    let entered := (s.core c).moved (x.fld 3 2) s.cyc + (s.core c).moved (4 + x.fld 3 2) s.cyc
    (8 ≤ (lane (s.core n)).length → exec (.feedsWordDelivery c) s = .next s) ∧
    ((lane (s.core n)).length < 8 → 2 ≤ entered → exec (.feedsWordDelivery c) s = .next (s.post (.feedsWordDelivery c) (s.cyc + 1))) ∧
    ((lane (s.core n)).length < 8 → entered < 2 → s.feedHeld c x = false →
      s.feedWord c x (lanesOf (Desc.fmt x.desS)) 0 = (s, .ok v) → ∃ u p y,
      CoresOnly (.feedsWordDelivery c) s u [c, n] ∧ lane (u.core n) = lane (s.core n) ++ [p] ∧ p.v = wordN v ∧ p.tag = x.feedTag ∧
      (u.core c).copyQ = y :: l ∧ y = { x with done := x.done + 1, wrote := x.wrote + lanesOf (Desc.fmt x.desS) } ∧
      (u.core c).moved (4 + x.fld 3 2) s.cyc = (s.core c).moved (4 + x.fld 3 2) s.cyc + 1 ∧
      (y.done = x.total → u.Sent (.engineCommandComplete c 0)) ∧ (y.done < x.total → u.Sent (.feedsWordDelivery c)))

/-- R217, R237 to R241, R308, R312 to R314: rings, gathers and FEEDS under way. -/
def Obligations.EngineSteps : Prop := RingChunks ∧ GatherSteps ∧ FeedsDeliver

/-- R66 to R70, R208, R301, R302, R317: a k-step of an MTILE that has its leave multiplies a column of A with a row of B into the
accumulators, as one step: sixteen, or of FP32 four; which column is rowp's, or the next coordinate of a generator. A grouped or K format adds
the side sums and the count, and at the end of a group or of the tile closes it into the sixteen totals. The flags are those of every lane. An
exhausted generator adds nothing, and such a group closes (of which parameters a close reads, the model's choice, log 41). rowp counts
the step; after the last the tile is complete, rowp is 0 and the leave goes back. A fault of a coordinate, an operand or a parameter leaves
the cell as it was; an operand at a core being placed is awaited (09 R265). -/
def Claims.TileSteps : Prop :=
  ∀ (s : State) (c : Nat) (m : MTile), (s.core c).mtile = some m → m.granted = true → (s.thr c m.slot).wait = .mtile →
    (s.thr c m.slot).inc = m.inc →
    let h := s.thr c m.slot
    let k := s.core c
    let fmt := Desc.fmt m.desA
    let j := h.rowp.toNat
    let r := if fmt = 10 then 2 else 4
    let as' := fun (kk : Nat) => (List.range r).map (fun i => (kk, m.m0 + i))
    let bs' := fun (kk : Nat) => (List.range r).map (fun i => (m.n0 + i, kk))
    let held := fun (kk : Nat) => ∃ i < r, s.elemHeld c m.desA (kk, m.m0 + i, 0, 0) = true ∨ s.elemHeld c m.desB (m.n0 + i, kk, 0, 0) = true
    let drawn := fun (kk : Nat) (g : Core) => (m.q = 0 ∧ kk = j ∧ g = k) ∨
      (m.q ≠ 0 ∧ ∃ i1 l y, (k.gen (m.q - 1)).draw 1 = some ((i1, kk) :: l, y) ∧ g = k.setGen (m.q - 1) y)
    let sums := groupedCode fmt = true ∨ blockCode fmt = true
    let closes := sums ∧ ((j + 1) % Desc.group m.desA = 0 ∨ j + 1 = m.k)
    let goes := fun (u : State) (fl : Flags5) => exec (.kStep c) s = .next u ∧ SameMemory s u ∧ (u.thr c m.slot).fxf = h.fxf ||| fl ∧
      (j + 1 < m.k → (u.thr c m.slot).rowp = wordN (j + 1) ∧ (u.thr c m.slot).wait = .mtile ∧
        (s.cyc + 1, Action.ev (.kStep c)) ∈ u.inflight) ∧
      (m.k = j + 1 → (u.thr c m.slot).rowp = 0 ∧ (u.thr c m.slot).st = .ready ∧ (u.core c).mtile = none)
    let flags := fun (l : List Sticky) => nvIf (l.any (·.inv)) ||| (if l.any (·.ovf) then fOF else 0)
    let cell := fun (u : State) (ac fa : Fin 16 → BitVec 32) (sa sb : Fin 4 → BitVec 32) (n : Nat) =>
      (∀ l, (u.core c).ac.get l = ac l ∧ (u.core c).fa.get l = fa l) ∧
      (∀ i, (u.core c).sa.get i = sa i ∧ (u.core c).sb.get i = sb i) ∧ (u.core c).gcount = n
    let rowsAt := s.linesParams c m.slot (microUnit c 0) m.desA 0 (Desc.global m.desA 0 j / Desc.group m.desA)
      ((List.range 4).map (fun i => Desc.lineAt m.desA 0 1 (m.m0 + i)))
    let colsAt := s.linesParams c m.slot (microUnit c 1) m.desB 1 (Desc.global m.desB 1 j / Desc.group m.desB)
      ((List.range 4).map (fun i => Desc.lineAt m.desB 1 0 (m.n0 + i)))
    let total := fun (ac : Fin 16 → BitVec 32) (sa sb : Fin 4 → BitVec 32) (n : Nat) (rows cols : List (Nat × Int)) (l : Fin 16) =>
      let (p, q) := (rows.getD (l.val / 4) (0, 0), cols.getD (l.val % 4) (0, 0))
      if blockCode fmt then closeBlock (ac l) (k.fa.get l) p.1 q.1
      else closeGrouped (ac l) (k.fa.get l) (sa (lane4 (l.val / 4))) (sb (lane4 (l.val % 4))) n p.1 q.1 p.2 q.2
    let lands := fun (ac : Fin 16 → BitVec 32) (sa sb : Fin 4 → BitVec 32) (n : Nat) (st : List Sticky) (g : Core) =>
      (¬closes → ∃ u, goes u (flags st) ∧ cell u ac k.fa.get sa sb n ∧ (u.core c).gen0 = g.gen0 ∧ (u.core c).gen1 = g.gen1) ∧
      ∀ rows cols, closes → rowsAt = (s, .ok rows) → colsAt = (s, .ok cols) → ∃ u,
        goes u (flags (st ++ (List.finRange 16).map (fun l => (total ac sa sb n rows cols l).2))) ∧
        cell u (fun _ => 0) (fun l => (total ac sa sb n rows cols l).1) (if blockCode fmt then sa else fun _ => 0)
          (if blockCode fmt then sb else fun _ => 0) (if blockCode fmt then n else 0) ∧
        (u.core c).gen0 = g.gen0 ∧ (u.core c).gen1 = g.gen1
    let fails := fun (e : Cause) (fa : Word) => ∃ u r, exec (.kStep c) s = .next u ∧ cell u k.ac.get k.fa.get k.sa.get k.sb.get k.gcount ∧
      (u.core c).gen0 = k.gen0 ∧ (u.core c).gen1 = k.gen1 ∧ (u.thr c m.slot).rowp = h.rowp ∧ (u.thr c m.slot).fxf = h.fxf ∧
      (u.thr c m.slot).st = .parked ∧ r ∈ (u.die (dieOf c)).recs ∧ r.cause = e ∧ r.faddr = fa
    (m.k ≤ j → ∃ u, exec (.kStep c) s = .next u ∧ u.thr c m.slot = Thread.retire { h with rowp := 0 } ∧ (u.core c).mtile = none ∧
      (u.core c).ac = k.ac ∧ mtileLeave fmt ∈ (u.die (dieOf c)).back ∧ SameMemory s u) ∧
    (j < m.k →
      (m.q ≠ 0 → (k.gen (m.q - 1)).draw 1 = none → fails .patfault (wordN (0x2000000000000000 + (k.gen (m.q - 1)).prog))) ∧
      (∀ y, m.q ≠ 0 → (k.gen (m.q - 1)).draw 1 = some ([], y) →
        lands k.ac.get k.sa.get k.sb.get k.gcount [] k ∧
        (closes → ∀ e fa, rowsAt = (s, .error (e, fa)) → fails e fa)) ∧
      ∀ kk g, drawn kk g →
        (held kk → exec (.kStep c) s = .next (s.post (.kStep c) (s.cyc + 1))) ∧
        (¬held kk →
          (∀ e fa, s.readElems c m.slot (microUnit c 0) m.desA (as' kk) = (s, .error (e, fa)) → fails e fa) ∧
          ∀ as, s.readElems c m.slot (microUnit c 0) m.desA (as' kk) = (s, .ok as) →
            (∀ e fa, s.readElems c m.slot (microUnit c 1) m.desB (bs' kk) = (s, .error (e, fa)) → fails e fa) ∧
            ∀ bs, s.readElems c m.slot (microUnit c 1) m.desB (bs' kk) = (s, .ok bs) →
              let ends := fun (l : Fin 16) =>
                if l.val / 4 < r ∧ l.val % 4 < r then cellUpdate fmt (k.ac.get l) [(as.getD (l.val / 4) 0, bs.getD (l.val % 4) 0)]
                else (k.ac.get l, {})
              let side := fun (v : Vector (BitVec 32) 4) (l : List Nat) (i : Fin 4) =>
                if sums then BitVec.ofInt 32 ((v.get i).toInt + sx (l.getD i.val 0) (widthOf fmt)) else v.get i
              lands (fun l => (ends l).1) (side k.sa as) (side k.sb bs) (if sums then k.gcount + 1 else k.gcount)
                ((List.finRange 16).map (fun l => (ends l).2)) g ∧
              (closes → (∀ e fa, rowsAt = (s, .error (e, fa)) → fails e fa) ∧
                ∀ rows e fa, rowsAt = (s, .ok rows) → colsAt = (s, .error (e, fa)) → fails e fa)))

/-- R210, R281, R282, R284: an MST whose elements inside C lie at other homes enters them into the core's buffer in its order, as
ordinary stores, all of them or none, and waits for the reply that completes it; while the buffer has no room it waits
with nothing entered, its elements converted and its steps of the seed still to be taken. -/
def Claims.RemoteTiles : Prop :=
  ∀ (s : State) (a b t : Reg) (d : List Word) (params : Nat → Nat × Int) (home : Nat × Nat × Nat → Dest), Loaded s t d →
    let fmt := Desc.fmt d
    let n := Desc.bytesOf d
    let es := tileElems (s.readReg a) (s.readReg b)
    let inside := fun (e : Nat × Nat × Nat) => Desc.inside d e.2.2 e.2.1 0 0
    ¬(Desc.bitsOf d = 4 ∨ fmt = 2 ∨ blockCode fmt = true) → fmt ≤ 14 → (∃ e ∈ es, inside e = true) →
    (∀ e ∈ es, inside e = true → s.place s.cur.1 (Desc.addr d e.2.2 e.2.1 0 0) n 2 = .far (home e)) →
    (fmt = 13 → ∀ e ∈ es, s.groupParams s.cur.1 s.cur.2 (stationUnit s.cur.1) d 0 (Desc.lineAt d 0 1 e.2.1)
      (Desc.global d 0 (Desc.clampTo d 0 e.2.2) / Desc.group d) = (s, .ok (params e.1))) →
    let r := tileValues s fmt (s.readReg b) params (es.map (·.1))
    let puts := (es.zip r.1).filterMap (fun e => if inside e.1 then some (home e.1, e.2, n) else none)
    let dropped := (es.filter (fun e => !inside e)).length
    (∀ k, s.me.stores s.cyc puts = .ok k → ∃ u, u.Sent (.remoteReply s.cur.1 s.cur.2) ∧ Leaves (.mst a b t) s u
      (fun _ => { k with drop := if dropped = 0 then k.drop else min 0xFFFF (k.drop + dropped),
                         replies := k.replies ++ [⟨s.cur.2, s.th.inc, .ok⟩] })
      (fun h => { h with fxf := h.fxf ||| r.2.1, seed := r.2.2 }.await (.reply []))) ∧
    (∀ y, s.me.stores s.cyc puts = .error (some y) → ∃ u, Leaves (.mst a b t) s u id (fun h => h.await (.room
      ((es.zip r.1).map (fun e => if inside e.1 then .far (home e.1) e.2 n else .drop)) r.2.1 r.2.2 (some y))))

/-- R202, R203, R208 to R210, R301, R302: MTILE and MST, the steps of a tile, and the leave it draws. -/
def Obligations.TilesOfOneThread : Prop := TileStart ∧ AccumulatorStore ∧ RemoteTiles ∧ TileSteps ∧ LeaveSteps

/-- R211 to R215, R305: a claim that has its leave takes its target cores die by die, dies ascending, each die's in one
step; it is refused with 1 when one of them is a cell, a face core, migrating, in MTILE or taken by another claim, and, when it
has all, with 2 when a face core is a cell, and with 1 when a die edge has no channel left; its GANG then completes, its leave
goes back, and what it took is free. Otherwise every target core is a cell of the new bench, every face core a face core of
it, and the cells freeze at the next rotation. -/
def Claims.ClaimsDecided : Prop :=
  ∀ (s : State) (c t : Nat) (q : Claim) (r : List Claim), s.claims = q :: r → q ∉ r → q.core = c → q.slot = t → q.ask = [] →
    let b := q.bench s
    let left := (b.cells s).filter (fun p => !q.taken.contains p)
    let die := (left.map dieOf).foldl min 9
    let here := left.filter (fun p => dieOf p = die)
    let free := ∀ p ∈ q.taken ++ here, (s.core p).claimed = false ∧ ∀ x ∈ r, p ∉ x.taken
    let crossed := ∃ p ∈ b.faces s, (s.core p).cell.isSome = true
    let channels := ∀ e ∈ crossings (b.links s), 0 < (s.edge e.1).free
    let refused := fun (v : Word) => ∃ u, exec (.claim c t) s = .next u ∧ u.claims = r ∧ u.benches = s.benches ∧
      u.thr c t = ((s.thr c t).setReg b.rd v).retire ∧ (∀ j, j ≠ c → u.core j = s.core j) ∧
      (∀ e ∈ q.held, e.2 ∈ (u.die e.1).back) ∧ SameMemory s u
    (¬free → refused 1) ∧
    (free → (∃ p ∈ left, dieOf p ≠ die) → ∃ u, exec (.claim c t) s = .next u ∧
      { u with claims := s.claims, inflight := s.inflight } = s ∧ u.claims = { q with taken := q.taken ++ here } :: r ∧
      u.Sent (.claim c t)) ∧
    (free → (∀ p ∈ left, dieOf p = die) → crossed → refused 2) ∧
    (free → (∀ p ∈ left, dieOf p = die) → ¬crossed → ¬channels → refused 1) ∧
    (free → (∀ p ∈ left, dieOf p = die) → ¬crossed → channels → ∃ u x,
      exec (.claim c t) s = .next u ∧ u.claims = r ∧ tfind u.benches s.nextId = some x ∧ u.nextId = s.nextId + 1 ∧
      x.core = c ∧ x.slot = t ∧ x.rect = q.rect ∧ x.x0 = q.x0 ∧ x.y0 = q.y0 ∧ x.w = q.w ∧ x.h = q.h ∧ x.reason = 0 ∧
      x.leave = q.held ∧ x.t0 = (s.cyc / 16 + 1) * 16 ∧ SameMemory s u ∧
      (∀ p ∈ b.cells s, ∃ y, (u.core p).cell = some y ∧ y.bench = s.nextId ∧ y.frozen = false ∧ (u.core p).gst = 0) ∧
      (∀ p ∈ b.faces s, s.nextId ∈ (u.core p).faces) ∧
      ((s.cyc / 16 + 1) * 16 - 1, Action.ev (.freeze s.nextId)) ∈ u.inflight)

/-- R214, R304: at the freeze every cell of the bench is frozen, and nothing else of a core changes. -/
def Claims.CellsFreeze : Prop :=
  ∀ (s : State) (i : Nat) (b : Bench), tfind s.benches i = some b → ∃ u, exec (.freeze i) s = .next u ∧
    { u with cores := s.cores, inflight := s.inflight, benches := s.benches } = s ∧
    (∀ p, p ∉ b.cells s → u.core p = s.core p) ∧
    (∀ p ∈ b.cells s, { u.core p with cell := (s.core p).cell } = s.core p ∧
      (u.core p).cell = (s.core p).cell.map (fun y => { y with frozen := true, last := s.cyc + 1 }))

/-- R216, R219, R220: each pulse of a frozen cell whose words are there. A latch pulse keeps its word once the words of the
cells below have passed; a data pulse takes its words and makes its products, and opens its group if a position is valid in both
words (the model's choice, log 68); a scale pulse closes an open group and installs its words, a zero point pulse installs its words; an END begins the thaw
with reason END, and the last outputs in the drain queues of a bench that has done its pulses begin it as complete. No core
that the cell writes to is the cell itself. -/
def Claims.Pulses : Prop :=
  ∀ (s : State) (c t : Nat) (x : Cell) (b : Bench) (kind : PulseKind), (s.core c).cell = some x → tfind s.benches x.bench = some b →
    s.pulseAt c = some (kind, t) → t ≤ s.cyc → (∀ d, b.eastOf s x ≠ some (c, d) ∧ b.southOf s x ≠ some (c, d)) →
    let k := s.core c
    let did := fun (i : Instr) (P : Core → Cell → Prop) => ∃ u y, exec i s = .next u ∧ (u.core c).cell = some y ∧ P (u.core c) y ∧
      (u.core c).threads = k.threads ∧ ∀ a j, u.lsByte j a = s.lsByte j a
    (∀ n r, kind = .latch → k.northIn = n :: r → tagKind n = 0 →
      let left := b.latches x.row - x.latched
      did (.latchPulse c) (fun k' y => k'.northIn = r ∧ y.latched = x.latched + 1 ∧ k'.ac = k.ac ∧
        (4 < left → k'.latch = k.latch) ∧ (left ≤ 4 → k'.latch.get (idxLatch (BitVec.ofNat 2 (4 - left))) = n.v))) ∧
    (∀ w wr n1 n2 nr, kind = .ws → k.westIn = w :: wr → k.northIn = n1 :: n2 :: nr → tagKind w = 0 → tagKind n1 = 0 → tagKind n2 = 0 →
      did (.wsDataPulse c) (fun k' y => k'.westIn = wr ∧ k'.northIn = nr ∧ y.pulses = x.pulses + 1 ∧ k'.latch = k.latch ∧
        ∀ i < 4, k'.ac.get (lane16 0 i) = (k.wsSum b.fmt w.v n1.v n2.v).1.getD i 0)) ∧
    (∀ w wr n nr, k.westIn = w :: wr → k.northIn = n :: nr →
      let took := fun (k' : Core) => k'.westIn = wr ∧ k'.northIn = nr
      (kind = .rs → tagKind n = 0 → did (.rsDataPulse c) (fun k' y => took k' ∧ y.pulses = x.pulses + 1 ∧
        (y.open' = true ↔ x.open' = true ∨ ∃ i < 4, w.tag / 2 ^ (4 + i) % 2 = 1 ∧ n.tag / 2 ^ (4 + i) % 2 = 1) ∧
        k'.ac = (k.rsData b w n).ac ∧ k'.sa = (k.rsData b w n).sa ∧ k'.sb = (k.rsData b w n).sb ∧ k'.fa = k.fa)) ∧
      (kind = .scale → tagKind n = 1 → (groupedCode b.fmt || blockCode b.fmt) = true → x.open' = false →
        did (.scalePulse c) (fun k' y => took k' ∧ y.pulses = x.pulses ∧ k'.scaleA = w.v ∧ k'.scaleB = n.v ∧ k'.ac = k.ac ∧ k'.fa = k.fa)) ∧
      (kind = .scale → tagKind n = 1 → (groupedCode b.fmt || blockCode b.fmt) = true → x.open' = true →
        did (.scalePulse c) (fun k' y => took k' ∧ y.open' = false ∧ k'.scaleA = w.v ∧ k'.scaleB = n.v ∧
          k'.fa = (k.closeGroup b.fmt).fa ∧ k'.ac = (k.closeGroup b.fmt).ac)) ∧
      (kind = .zero → tagKind n = 2 → groupedCode b.fmt = true →
        did (.zeroPointPulse c) (fun k' y => took k' ∧ y.pulses = x.pulses ∧ k'.zpA = w.v ∧ k'.zpB = n.v ∧ k'.ac = k.ac)) ∧
      (kind = .fin → b.ws = false → did (.endPulse c) (fun k' y => took k' ∧ y.pulses = x.pulses ∧ k'.ac = k.ac) ∧
        ∃ u b', exec (.endPulse c) s = .next u ∧ tfind u.benches x.bench = some b' ∧ b'.reason = 2 ∧ u.Sent (.thawReturn x.bench))) ∧
    (b.complete s = true → (b.drained s = true → ∃ u, s.checkComplete x.bench = u ∧
        tfind u.benches x.bench = some { b with reason := 1 } ∧ u.Sent (.thawReturn x.bench)) ∧
      (b.drained s = false → s.checkComplete x.bench = s))

/-- R221 to R223, R302, R310: at the return every cell of the bench is a core again with its inbound queues empty; the
bench and its claim on face cores are gone, its leave goes back, and the GANG completes with the bench
result, or traps BENCHLINK when a link failed. -/
def Claims.BenchesReturn : Prop :=
  ∀ (s : State) (i : Nat) (b : Bench), tfind s.benches i = some b → (s.thr b.core b.slot).inc = b.inc →
    (∀ rd, (s.thr b.core b.slot).wait = .gang rd → b.reason ≠ 7 → ∃ u, exec (.thawReturn i) s = .next u ∧
      tfind u.benches i = none ∧ (∀ j, j ≠ i → tfind u.benches j = tfind s.benches j) ∧
      (∀ p ∈ b.cells s, (u.core p).cell = none) ∧
      (∀ p ∈ b.cells s, ∀ y, (s.core p).cell = some y → (u.core p).westIn = [] ∧ (u.core p).northIn = [] ∧
        (b.reason ≠ 1 → (u.core p).gst = wordN (y.pulses % 2 ^ 32 * 2 ^ 32 +
          min 255 ((s.core p).westIn.length + (s.core p).northIn.length) * 2 ^ 16 + (if y.iovf then 2 ^ 11 else 0) +
          (if y.inv then 2 ^ 10 else 0) + (if y.ovf then 2 ^ 9 else 0) + (if y.tag then 2 ^ 8 else 0) + b.reason * 2 ^ 4))) ∧
      (∀ p ∈ b.faces s, i ∉ (u.core p).faces) ∧ (∀ e ∈ b.leave, e.2 ∈ (u.die e.1).back) ∧
      u.thr b.core b.slot = ((s.thr b.core b.slot).setReg rd (benchResult b.reason ((b.cells s).map (fun p => (u.core p).gst)))).retire ∧
      SameMemory s u) ∧
    (∀ rd, (s.thr b.core b.slot).wait = .gang rd → b.reason = 7 → ∃ u r, exec (.thawReturn i) s = .next u ∧
      tfind u.benches i = none ∧ (u.thr b.core b.slot).st = .parked ∧ r ∈ (u.die (dieOf b.core)).recs ∧ r.cause = .benchlink ∧
      r.faddr = b.rect)

/-- R211 to R223, R302 to R310: the life of a bench. -/
def Obligations.BenchLife : Prop := ClaimsDecided ∧ CellsFreeze ∧ Pulses ∧ BenchesReturn

/-! ## Launches -/

/-- R331, R332: a doorbell read shows the queue's write index; a window wider than the queue halts it with error 1, an
unreadable doorbell with error 2, each with a report; otherwise its entry at the read index is read and checked, and, when
it is well formed, is the head; a head is none once no entry is pending (R335). Of a halted queue the write index alone is taken.
That an address that is no multiple of 8 halts the queue with error 2 is the model's choice (log 103). -/
def Claims.DoorbellsRead : Prop :=
  ∀ (s : State) (p q : Nat),
    let x := s.queue p q
    let reported := fun (u : State) => u.seqNo = s.seqNo + 1
    (x.hlt = true → x.wix.toNat % 8 = 0 → ∀ v, s.schedRead p x.wix.toNat 8 = .ok v →
      exec (.doorbellWrite p q) s = .next (s.modQueue p q (fun y => { y with wr := v }))) ∧
    (x.en = true → x.hlt = false → x.wix.toNat % 8 ≠ 0 → ∃ u, exec (.doorbellWrite p q) s = .next u ∧
      u.queue p q = { x with hlt := true, err := 2, head := none, since := none } ∧ reported u) ∧
    (x.en = true → x.hlt = false → x.wix.toNat % 8 = 0 →
    (∀ e, s.schedRead p x.wix.toNat 8 = .error e → s.readReport p x.wix.toNat 8 = s → ∃ u, exec (.doorbellWrite p q) s = .next u ∧
      u.queue p q = { x with hlt := true, err := 2, head := none, since := none } ∧ reported u) ∧
    (∀ v, s.schedRead p x.wix.toNat 8 = .ok v →
      (2 ^ x.size < (v + 2 ^ 64 - x.rd) % 2 ^ 64 → ∃ u, exec (.doorbellWrite p q) s = .next u ∧
        u.queue p q = { x with wr := v, hlt := true, err := 1, head := none, since := none } ∧ reported u) ∧
      ((v + 2 ^ 64 - x.rd) % 2 ^ 64 ≤ 2 ^ x.size → x.head ≠ none ∨ x.rd = v → ∃ u, exec (.doorbellWrite p q) s = .next u ∧
        { u with parts := s.parts, inflight := s.inflight } = s ∧
        u.queue p q = (if x.rd = v then { x with wr := v, head := none, since := none, depBad := false } else { x with wr := v }) ∧
        u.Sent (.dispatch p)) ∧
      ((v + 2 ^ 64 - x.rd) % 2 ^ 64 ≤ 2 ^ x.size → x.head = none → x.rd ≠ v →
        let s' := s.modQueue p q (fun y => { y with wr := v })
        ∀ d, s'.schedWords p (x.base + 256 * (x.rd % 2 ^ x.size)) 32 = .ok d → (s'.checkHead p q d).status = 0 →
          ((s'.checkHead p q d).tFlag = true → (s'.checkHead p q d).patch ≠ none) → ∃ u f,
          exec (.doorbellWrite p q) s = .next u ∧ { u with parts := s.parts, inflight := s.inflight } = s ∧
          u.queue p q = { x with wr := v, head := some f, since := none, depBad := false } ∧ f.status = 0 ∧ f.part = p ∧ f.queue = q ∧
          f.id = d.getD 18 0 ∧ f.arg = d.getD 3 0 ∧ f.entry = (d.getD 0 0).toNat ∧ u.Sent (.dispatch p))))

/-- R335 to R337, R340, R341, R405: the chosen head that is eligible and has room starts: its read index moves on, its
cores are taken in its rectangle, an interval opens under a fresh number, and its gangers start when the local-store images
have been loaded. The same round follows a rise of its effective priority. -/
def Claims.Dispatches : Prop :=
  ∀ (s : State) (p q t x y pa key : Nat) (z : Queue) (f : Field), (s.part p).queues = [(q, z)] → z.en = true → z.hlt = false →
    z.head = some f → z.since = some t → s.eligible p q = true → f.moved = [] → f.part = p →
    let s' := s.modPart p (fun x => { x with cand := some q, candModes := if x.cand = some q then x.candModes else x.modes })
    s'.originFor p q f = some (x, y) → z.rix.toNat % 8 = 0 → s'.schedPlace p z.rix.toNat 2 = .ok (.hbm pa key) →
    ∀ i ∈ [Instr.dispatch p, .effectivePriorityRise p q], ∃ u g, exec i s = .next u ∧ tfind u.fields s.nextId = some g ∧
      u.nextId = s.nextId + 1 ∧ g.stage = .placing ∧ g.x0 = x ∧ g.y0 = y ∧ g.fw = f.fw ∧ g.fh = f.fh ∧ g.id = f.id ∧ g.lastCk = s.cyc ∧
      (u.queue p q).rd = z.rd + 1 ∧ (u.queue p q).head = none ∧
      (∀ n < f.fw * f.fh, let c := (s.part p).pos (x + n % f.fw) (y + n / f.fw)
        (u.core c).field = some s.nextId ∧ (u.core c).placing = true) ∧
      (s.cyc + 768 + ceilDiv f.lssize 32, Action.ev (.gangerStart s.nextId)) ∈ u.inflight

/-- R267, R341, R342: when every core of a field that replays no tape has been placed, its local store holds the image, and
its ganger is ready at the entry of its role, with the launch's argument, origin and thread count in g1 to g3. -/
def Claims.GangersStart : Prop :=
  ∀ (s : State) (i : Nat) (f : Field), tfind s.fields i = some f → f.stage = .placing → f.tFlag = false →
    (∀ c ∈ s.fieldCores f, (s.core c).placing = true) →
    let img := (s.imageBytes f.part f.lsimg (ceilDiv f.lssize 32)).take f.lssize
    ∃ u g, exec (.gangerStart i) s = .next u ∧ tfind u.fields i = some g ∧ g = { f with stage := .running } ∧
      ∀ c ∈ s.fieldCores f, (u.core c).placing = false ∧ (∀ a, u.lsByte c a = img.getD a 0) ∧
        let h := u.thr c 0
        h.st = .ready ∧ h.pc = BitVec.ofNat 48 (tget {} f.roles (s.core c).role).entry ∧ h.wait = .none ∧
        h.reg 1 = f.arg ∧ h.reg 2 = wordN (f.x0 + 65536 * f.y0) ∧ h.reg 3 = wordN f.threads ∧
        (∀ r : Reg, 4 ≤ r.toNat → h.reg r = 0) ∧ h.wdp = 0 ∧ h.fxf = 0 ∧
        h.seed = seedStart (s.core c).jseed (s.core c).lcn 0

/-- R331 to R342: from a doorbell to a running field. -/
def Obligations.LaunchesStart : Prop := DoorbellsRead ∧ Dispatches ∧ GangersStart

/-- A vector of a function has been raised: it has interrupted, or it is pending behind its mask (R357). -/
def Claims.Raised (s u : State) (fn vec : Nat) : Prop :=
  if (fn, vec) ∈ s.msixMask then (fn, vec) ∈ u.msixPend ∧ u.msix = s.msix else (fn, vec) ∈ u.msix ∧ u.msixPend = s.msixPend

/-- R337, R338, R339: a core whose ganger is gone and that has nothing left ends its part; when the last of a launch does,
its cores are free, their local stores, tags, gst and accumulators as they were (the model's choice, log 24), and it retires; the record of one with no
done counter takes the next place of the completion ring, when that has room. -/
def Claims.PartsEnd : Prop :=
  ∀ (s : State) (c i : Nat) (f : Field), tfind s.fields i = some f →
    ((s.core c).field = some i → f.stage = .running → (s.core c).partDone = true →
      (∀ x, x ∈ s.fieldCores f → x ≠ c → (s.core x).ended = false → ∃ u,
        OnCore (.corePartEnd c) s u c (fun k => { k with ended := true })) ∧
      ((∀ x ∈ s.fieldCores f, x = c ∨ (s.core x).ended = true) → ∃ u g, exec (.corePartEnd c) s = .next u ∧
        tfind u.fields i = some g ∧ g.stage = .retiring ∧ g.status = f.status ∧ u.Sent (.retirement i) ∧
        (∀ x, (s.core x).field = some i → (u.core x).field = none ∧ (u.core x).ls = (s.core x).ls ∧
          (u.core x).tags = (s.core x).tags ∧ (u.core x).gst = (s.core x).gst ∧ (u.core x).ac = (s.core x).ac))) ∧
    (f.stage = .retiring → (s.part f.part).cring.full = false → f.done = 0 → s.hostMem.wf = true →
      let r := (s.part f.part).cring
      let a := r.base + 32 * (r.wix % 2 ^ r.size)
      ∃ u, exec (.retirement i) s = .next u ∧ tfind u.fields i = none ∧ (u.part f.part).cring = { r with wix := r.wix + 1 } ∧
        u.seqNo = s.seqNo + 1 ∧ Raised s u (f.part + 1) 0 ∧ mread u.hostMem a 8 = f.id.toNat ∧
        mread u.hostMem (a + 8) 1 = f.queue % 2 ^ 8 ∧ mread u.hostMem (a + 9) 1 = f.status % 2 ^ 8 ∧
        mread u.hostMem (a + 10) 2 = f.ctx % 2 ^ 16 ∧ mread u.hostMem (a + 12) 4 = f.flcn % 2 ^ 32 ∧
        mread u.hostMem (a + 24) 8 = s.seqNo % 2 ^ 64 ∧ (∀ b, b < a ∨ a + 32 ≤ b → u.hostByte b = s.hostByte b))

/-- R350, R355: a replay that failed, once nothing it accepted is left, leaves its record for the trap ring and the field
runs live with status 5, or retires with status 4 when the host had the duty as the replay failed. -/
def Claims.ReplaysFallBack : Prop :=
  ∀ (s : State) (i : Nat) (f : Field), tfind s.fields i = some f → f.stage = .fallback → f.reread = false →
    (∀ c ∈ s.fieldCores f, (s.core c).threads = [] ∧ (s.core c).settled = true) →
    (inMode f.fmodes 3 = false → ∃ u g, exec (.replayFallback i) s = .next u ∧ tfind u.fields i = some g ∧ g.stage = .placing ∧
      g.tFlag = false ∧ g.status = 5 ∧ u.Sent (.gangerStart i) ∧
      ∃ r ∈ (u.part f.part).tpend, r.seq = s.seqNo ∧ r.cause = .tapefault ∧ r.org = 2 ∧ r.faddr = wordN (f.tapes.getD f.flcn 0)) ∧
    (inMode f.fmodes 3 = true → ∃ u g, exec (.replayFallback i) s = .next u ∧ tfind u.fields i = some g ∧ g.stage = .retiring ∧
      g.status = 4 ∧ u.Sent (.retirement i))

/-- R337 to R339, R350: the end of a launch. -/
def Obligations.LaunchesEnd : Prop := PartsEnd ∧ ReplaysFallBack

/-- R346, R347, R354: a dry timer at its role's limit sets DRY in the ganger's events, once until the next arrival, and
recasts the core when its role says so, or tells the host in host-assisted mode, by a note of the partition under a number of
its own (the model's choice, logs 51 and 92); a recast empties every slot and starts the ganger of the new role with the old role
in g4. -/
def Claims.DryAndRecast : Prop :=
  ∀ (s : State) (c r i : Nat) (f : Field) (o : Role), (s.core c).field = some i → tfind s.fields i = some f →
    let k := s.core c
    let dried := fun (k : Core) =>
      let k := k.modThr 0 (fun h => h.event 1)
      { k with dryHeld := true }
    (tfind f.roles k.role = some o → k.dryHeld = false → o.dry ≠ 0 → o.dry ≤ k.dry →
      (s.assisted k.part 4 = false → ∃ u, OnCore (.dryTimerExpiry c) s u c dried ∧
        (o.recast ≠ 0xFF → u.Sent (.coreRecast c o.recast))) ∧
      (s.assisted k.part 4 = true → ∃ u, exec (.dryTimerExpiry c) s = .next u ∧ u.core c = dried k ∧
        (∀ j, j ≠ c → u.core j = s.core j) ∧ { u with cores := s.cores, parts := s.parts, seqNo := s.seqNo } = s ∧ u.seqNo = s.seqNo + 1 ∧
        (u.part k.part).notes = (s.part k.part).notes ++ [.dry s.seqNo k.ctx k.lcn])) ∧
    (tfind f.roles r = some o → f.stage = .running → k.ended = false → k.frozen = false → k.migTo = none → ∃ u,
      exec (.coreRecast c r) s = .next u ∧ (u.core c).role = r ∧ (u.core c).stage = o.stage ∧ (u.core c).exits = [] ∧
      (∀ j, j ≠ 0 → (u.thr c j).st = .empty) ∧ (u.thr c 0).st = .ready ∧ (u.thr c 0).pc = BitVec.ofNat 48 o.entry ∧
      (u.thr c 0).reg 4 = wordN (256 + k.role) ∧ (u.thr c 0).reg 1 = f.arg ∧ SameMemory s u)

/-- R352, R265, R353: at the switch a bench cell's thaw is awaited, and an MTILE's end; then a core whose engines have reached
a sector boundary stands at its destination, its field finds it there, and its old position forwards to it; from the second
boundary issue and its queues go on. -/
def Claims.Migrations : Prop :=
  ∀ (s : State) (c d i : Nat) (f : Field),
    ((s.core c).migTo = some c → ∃ u,
      OnCore (.migrationResume c) s u c (fun k => { k with migTo := none, migStop := false })) ∧
    ((s.core c).field = some i → tfind s.fields i = some f → (s.core c).migTo = some d → d ≠ c →
      ((s.core c).cell ≠ none → exec (.migrationSwitch c) s = .next (s.post (.migrationSwitch c) (s.boundary + 16))) ∧
      ((s.core c).cell = none → (s.core c).copying = none → (s.core c).filling = none →
        ((s.core c).mtile ≠ none → ∃ u, OnCore (.migrationSwitch c) s u c (fun k => { k with migStop := true })) ∧
        ((s.core c).mtile = none → ∃ u g, exec (.migrationSwitch c) s = .next u ∧ (u.core d).threads = (s.core c).threads ∧
          (u.core d).ls = (s.core c).ls ∧ (u.core d).tags = (s.core c).tags ∧ (u.core d).field = some i ∧ (u.core d).lcn = (s.core c).lcn ∧
          (u.core d).place = (s.core c).place ∧ (u.core d).ac = (s.core c).ac ∧ (u.core d).migStop = true ∧ u.locate c = d ∧
          (u.core c).field = none ∧ tfind u.fields i = some g ∧ tfind g.moved (s.core c).lcn = some d ∧
          (s.boundary + 16, Action.ev (.migrationResume d)) ∈ u.inflight)) ∧
      -- a copy that is under way first reaches a sector boundary
      ((s.core c).cell = none → (s.core c).mtile = none →
        let s' := (s.modCore c (fun k => { k with migStop := true })).toSector c
        ∃ u, exec (.migrationSwitch c) s = .next u ∧ (u.core d).copyQ = (s'.core c).copyQ ∧ (u.core d).ring = (s'.core c).ring ∧
          u.locate c = d))

/-- R172, R287, R403 to R405, R354, R408: a checkpoint clears the read set of every core, and of a field with no checkpoint
area gives every ganger 0; at the host's interval CKPT is set in every ganger's events, and, where the host schedules checkpoints, at its request (the
model's choice, log 95); a rollback puts the logged bytes back and restores every core from the valid set in memory, with the
device state kept beside it (the model's choice, log 25), or, when nothing has been saved, places the field anew. -/
def Claims.Checkpoints : Prop :=
  ∀ (s : State) (i p : Nat) (f : Field), tfind s.fields i = some f → (s.fieldCores f).Nodup →
    (f.stage = .running → (∀ c ∈ s.fieldCores f, (s.core c).ckptArrived = true ∧ (s.core c).ckReady = true ∧
        (s.core c).writeSet (fun _ => true) = []) →
      (∃ c ∈ s.fieldCores f, ∃ rd, (s.thr c 0).wait = .ckpt rd) → (s.part f.part).ckbase = 0 → ∃ u,
        exec (.ckptCollective i) s = .next u ∧ { u with cores := s.cores } = s ∧
        ∀ c ∈ s.fieldCores f, (u.core c).phase = (s.core c).phase + 1 ∧ (∀ e ∈ (u.core c).pbuf, e.r = false) ∧
          ∀ rd, (s.thr c 0).wait = .ckpt rd → u.thr c 0 = ((s.thr c 0).setReg rd 0).retire) ∧
    (s.fields = [(i, f)] → f.part = p → f.stage = .running → f.lastCk + (s.part p).ckint ≤ s.cyc → (s.part p).ckint ≠ 0 →
      s.assisted p 6 = false → ∃ u, exec (.checkpointInterval p) s = .next u ∧
        { u with cores := s.cores, fields := s.fields } = s ∧ tfind u.fields i = some { f with lastCk := s.cyc } ∧
        ∀ c ∈ s.fieldCores f, u.thr c 0 = (s.thr c 0).event 2) ∧
    (s.fields = [(i, f)] → f.part = p → f.stage = .running → s.assisted p 6 = true → exec (.checkpointInterval p) s = .next s ∧
      ∃ u, s.hostCheckpoint p f.ctx = u ∧ { u with cores := s.cores, fields := s.fields } = s ∧
        tfind u.fields i = some { f with lastCk := s.cyc } ∧ ∀ c ∈ s.fieldCores f, u.thr c 0 = (s.thr c 0).event 2) ∧
    (∀ e, f.stage = .rolling → f.undo = [e] → s.hbm.wf = true → ∃ u, exec (.rollbackRestore i) s = .next u ∧
      (∀ j < 32, u.hbmByte (e.pa + j) = BitVec.ofNat 8 (e.pre / 256 ^ j)) ∧
      (∀ a, a < e.pa ∨ e.pa + 32 ≤ a → u.hbmByte a = s.hbmByte a) ∧
      (f.valid = none → ∃ g, tfind u.fields i = some g ∧ g.stage = .placing ∧ g.rolls = f.rolls + 1 ∧ g.undo = [] ∧
        u.Sent (.gangerStart i) ∧ ∀ c ∈ s.fieldCores f, (u.core c).field = some i ∧ (u.core c).placing = true) ∧
      (∀ n, f.valid = some n → (∃ g, tfind u.fields i = some g ∧ g.stage = .running ∧ g.rolls = f.rolls + 1) ∧
        ∀ l < f.fw * f.fh, ∀ k, tfind (f.images.getD n []) l = some k →
          let img := ((s.undoOne e).ckImage f n l k).2
          (u.core (s.lcnPos f l)).ls = img.ls ∧ (u.core (s.lcnPos f l)).tags = img.tags ∧ (u.core (s.lcnPos f l)).sq0 = k.sq0))

/-- R403, R404: a checkpoint's area is written sector by sector, through the partition's translation, until one faults. The image of a core is its
local store, its tags, one bit each, and its device state, whose bytes are a free value (the model's choice, log 25). -/
def Claims.ImagesWritten : Prop :=
  ∀ (s t u v : State) (p va n x tags : Nat) (k : Core) (ok : Bool),
    s.ckWrite p va x 0 = (s, true) ∧
    (∀ pa slot, s.schedPlace p va 2 = .ok (.hbm pa slot) → s.ckWrite p va x (n + 1) =
      ((s.hbmWrite (s.keyPair slot) pa x (2 ^ 32 - 1) 32).notify (.hbm pa slot) 32).ckWrite p (va + 32) (x / 2 ^ 256) n) ∧
    ((∀ pa slot, s.schedPlace p va 2 ≠ .ok (.hbm pa slot)) → s.ckWrite p va x (n + 1) = (s.walkReport p va, false)) ∧
    (k.tags.Nodup → (∀ i ∈ k.tags, i < 3072) → tags < 2 ^ 3072 → (∀ i < 3072, tags.testBit i = k.tags.contains i) →
      (s.ckWrite p va (mread k.ls 0 0x6000) 768 = (t, false) → s.ckCore p va k = (t, false)) ∧
      (s.ckWrite p va (mread k.ls 0 0x6000) 768 = (t, true) →
        (t.ckWrite p (va + 0x6000) tags 12 = (u, false) → s.ckCore p va k = (u, false)) ∧
        (t.ckWrite p (va + 0x6000) tags 12 = (u, true) →
          State.ckWrite { u with free := u.free + 1 } p (va + 0x6200) (Config.deviceState u.free) 1264 = (v, ok) →
          s.ckCore p va k = (v, ok))))

/-- R172, R404: once every core has arrived a checkpoint waits for engines and benches and drains every phase; it then writes the images of the
cores in lcn order into the set that is not valid, then the header, which names the set and its number. With that the new interval opens, with an
empty log, under the sequence number then assigned, which every ganger receives; where a write of the save faults the open interval
goes on and every ganger receives 0. That psr.phase counts it is the model's choice (log 105). -/
def Claims.CheckpointSaves : Prop :=
  ∀ (s : State) (i : Nat) (f : Field), tfind s.fields i = some f → (s.fieldCores f).Nodup → f.stage = .running →
    (∀ c ∈ s.fieldCores f, (s.core c).ckptArrived = true) → (∃ c ∈ s.fieldCores f, ∃ rd, (s.thr c 0).wait = .ckpt rd) →
    let n := f.fw * f.fh
    let pt := s.part f.part
    let g := { f with ckb := pt.ckbase, cks := pt.ckstride }
    let area := pt.ckbase + f.ctx * pt.ckstride
    let set := if f.valid = some 0 then 1 else 0
    let ready := ∀ c ∈ s.fieldCores f, (s.core c).ckReady = true ∧ (s.core c).writeSet (fun _ => true) = []
    let ends := fun (t u : State) (no : Nat) (h : Field) => exec (.ckptCollective i) s = .next u ∧ SameMemory t u ∧
      tfind u.fields i = some h ∧ (∀ j, j ≠ i → tfind u.fields j = tfind s.fields j) ∧
      ∀ c ∈ s.fieldCores f, ∀ rd, (s.thr c 0).wait = .ckpt rd → u.thr c 0 = ((s.thr c 0).setReg rd (wordN no)).retire
    (¬ready → ∃ u, exec (.ckptCollective i) s = .next u ∧ (s.cyc + 1, Action.ev (.ckptCollective i)) ∈ u.inflight ∧
      { u with cores := s.cores, inflight := s.inflight } = s ∧ (∀ c, c ∉ s.fieldCores f → u.core c = s.core c) ∧
      ∀ c ∈ s.fieldCores f, u.core c =
        { s.core c with pbuf := (s.core c).pbuf.map (fun e => if e.mask ≠ 0 then { e with d := true } else e) }) ∧
    (ready → pt.ckbase ≠ 0 → 0x1000 + 2 * n * 0x10000 + 0x10000 ≤ pt.ckstride → ∃ s1 : State,
      { s1 with cores := s.cores } = s ∧ (∀ c, c ∉ s.fieldCores f → s1.core c = s.core c) ∧
      (∀ c ∈ s.fieldCores f, s1.core c = { ReadsCleared (s.core c) with phase := (s.core c).phase + 1 }) ∧
      ∀ s2 ok, s1.ckCores g (area + 0x1000 + set * n * 0x10000) (List.range n) = (s2, ok) →
        (ok = false → ∃ u, ends s2 u 0 f) ∧
        (ok = true →
          let nos := putAt f.setNo set s2.seqNo
          ∀ s3 ok, s2.ckWrite f.part area (0x54504B43 + f.fw * 2 ^ 32 + f.fh * 2 ^ 48 + set * 2 ^ 64 + nos.getD 0 0 * 2 ^ 128 +
              nos.getD 1 0 * 2 ^ 192) 128 = (s3, ok) →
            (ok = false → ∃ u, ends s3 u 0 f) ∧
            (ok = true → ∃ u, u.seqNo = s2.seqNo + 1 ∧ ends s3 u s2.seqNo { g with
              interval := s2.seqNo, valid := some set, setNo := nos, undo := [], unrest := false, ckAsked := false, rolls := 0,
              images := putAt f.images set ((List.range n).map (fun l => (l, s3.core (s3.lcnPos g l)))) }))) ∧
    ∀ (t : State) (b l : Nat) (r : List Nat), t.ckCores g b [] = (t, true) ∧
      (∀ u, t.ckCore f.part (b + l * 0x10000) (t.core (t.lcnPos g l)) = (u, false) → t.ckCores g b (l :: r) = (u, false)) ∧
      (∀ u, t.ckCore f.part (b + l * 0x10000) (t.core (t.lcnPos g l)) = (u, true) → t.ckCores g b (l :: r) = u.ckCores g b r)

/-- R265, R346, R347, R352 to R354, R402 to R408: recast, migration, checkpoint and rollback. -/
def Obligations.CoresMoveAndRoll : Prop := DryAndRecast ∧ Migrations ∧ ImagesWritten ∧ CheckpointSaves ∧ Checkpoints

/-! ## Records settled, kills and rollbacks -/

/-- R391 to R396, R171, R328, R355: the agent takes the oldest record of the field, of ILLEGAL, BRK or TRAP, unless an earlier one of
its context is still being served; a step that comes before an older record's serves the older and comes again. It discards one
of a context that is being killed. In the host-assisted mode the record was taken in it goes to the trap ring. Otherwise the
actions: kill; replay, its thread going on, but the sixteenth repeat to the trap ring with RPT; park, to the ring; forward; roll
back. A record whose thread is gone has no effect. -/
def Claims.RecordsServed : Prop :=
  ∀ (s : State) (d : Nat) (r : TrapRec) (f : Field) (l : List TrapRec), (s.die d).recs = r :: l → tfind s.fields r.field = some f →
    (r.cause = .illegal ∨ r.cause = .brk ∨ r.cause = .trapi) → r.org = 0 → r.lcn < f.fw * f.fh →
    let c := s.lcnPos f r.lcn
    let h := s.thr c r.slot
    let turn := fun (n : Nat) => n = r.seq ∨ n ≠ r.seq ∧ ∃ r0, l.find? (fun x => x.seq = n) = some r0 ∧ r0.field = r.field
    let served := fun (P : State → Prop) => ∀ n, turn n → ∃ u, exec (.trapService d n) s = .next u ∧ (u.die d).recs = l ∧
      (∀ e, e ≠ d → u.die e = s.die e) ∧ (n ≠ r.seq → u.Sent (.trapService d n)) ∧ P u
    let act := (f.action r.cause).1
    (f.discards = true → served (fun u => { u with dieTab := s.dieTab, inflight := s.inflight } = s)) ∧
    (f.discards = false → s.recordWaits f.part f r = true → ∀ n, turn n →
      exec (.trapService d n) s = .next (s.post (.trapService d n) (s.cyc + 1))) ∧
    (f.discards = false → s.recordWaits f.part f r = false → inMode r.modes 1 = true → served (fun u =>
      (u.part f.part).tpend = (s.part f.part).tpend ++ [r] ∧ u.Sent (.trapRecordDelivery f.part))) ∧
    (f.discards = false → s.recordWaits f.part f r = false → inMode r.modes 1 = false →
      ((h.inc ≠ r.inc ∨ h.st ≠ .parked) → served (fun u => { u with dieTab := s.dieTab, inflight := s.inflight } = s)) ∧
      (h.inc = r.inc → h.st = .parked → f.stage = .running →
        let falls := fun (stage : Stage) => ∃ u g, exec (.trapService d r.seq) s = .next u ∧ tfind u.fields r.field = some g ∧
          g.stage = stage ∧ (∀ x ∈ (u.die d).recs, x.field ≠ r.field) ∧ SameMemory s u
        (act = 0 → falls .killing) ∧
        (act = 4 → falls (if f.ckArea ≠ none ∧ f.unrest = false ∧ f.rolls < 3 then .rolling else .killing))) ∧
      (h.inc = r.inc → h.st = .parked → ∀ k, f.action r.cause = (3, k) → k ≠ r.lcn → k < f.fw * f.fh →
        let o := s.locate (s.lcnPos f k)
        (s.core o).field ≠ none → (s.core o).ls.wf = true → served (fun u =>
          (∀ i < 8, mread (u.core o).ls (0x5FC0 + 8 * i) 8 = (r.words.getD i 0).toNat) ∧ u.thr c r.slot = h ∧
          u.thr (s.lcnPos f k) 0 = (s.thr (s.lcnPos f k) 0).event 0)) ∧
      (act = 2 → h.inc = r.inc → h.st = .parked → served (fun u => (u.part f.part).tpend = (s.part f.part).tpend ++ [r])) ∧
      (act = 1 → h.inc = r.inc → h.st = .parked → h.repCount < 16 → r.e = false → served (fun u =>
        u.thr c r.slot = (if r.cause = .illegal then h.replay else h.replayPast) ∧ ∀ j, j ≠ c → u.core j = s.core j)) ∧
      (act = 1 → h.inc = r.inc → h.st = .parked → 16 ≤ h.repCount → served (fun u =>
        (u.part f.part).tpend = (s.part f.part).tpend ++ [{ r with rpt := true }] ∧ u.thr c r.slot = h)))

/-- A record of cause PAGE, PROT, KEYREV or COLLAPSE that the agent is to replay: its turn has come, its thread is parked, and
this is not the sixteenth repeat. -/
def Claims.Replays (s : State) (d : Nat) (r : TrapRec) (f : Field) (l : List TrapRec) : Prop :=
  (s.die d).recs = r :: l ∧ tfind s.fields r.field = some f ∧ f.discards = false ∧ r.org = 0 ∧ r.e = false ∧ r.held = false ∧
    r.lcn < f.fw * f.fh ∧ inMode r.modes 1 = false ∧ (f.action r.cause).1 = 1 ∧
    (s.thr (s.lcnPos f r.lcn) r.slot).inc = r.inc ∧ (s.thr (s.lcnPos f r.lcn) r.slot).st = .parked ∧
    (s.thr (s.lcnPos f r.lcn) r.slot).repCount < 16

/-- R279, R354, R378, R395, R422, R442: replay of PAGE, PROT, KEYREV and COLLAPSE first asks the page-fault duty. It services
PAGE on a demand-zero entry at level 3: the next frame of POOL is written as zero under the entry's key, the entry takes it with V
= 1, and the thread is replayed; and COLLAPSE: of a replicated page the entry keeps the lowest group's frame, without REP, and a
change of translation begins, which the record awaits. Any other fault, and each in host-assisted mode, is passed to the trap
ring, its thread parked. The model's choices: a page valid by then is replayed (log 26); without a leader the record waits (log 59). -/
def Claims.PagesServed : Prop :=
  ∀ (s : State) (d : Nat) (r : TrapRec) (f : Field) (l : List TrapRec), Replays s d r f l → s.hbm.wf = true →
    let p := f.part
    let va := bits r.faddr.toNat 47 0
    let c := s.lcnPos f r.lcn
    let h := s.thr c r.slot
    let table := s.keyPair (wbits (s.part p).ptroot 5 0)
    let asks := inMode r.modes 2 = false ∧ wbits r.faddr 63 60 = 2
    let served := fun (P : State → Prop) => ∃ u, exec (.trapService d r.seq) s = .next u ∧ (u.die d).recs = l ∧
      (∀ e, e ≠ d → u.die e = s.die e) ∧ P u
    let replayed := fun (u : State) => u.thr c r.slot = h.replay
    let hosted := served (fun u => (u.part p).tpend = (s.part p).tpend ++ [{ r with held := true }] ∧
      u.Sent (.trapRecordDelivery p) ∧ u.thr c r.slot = h ∧ SameMemory s u)
    ((s.part p).serving.any (fun x => x.field = r.field) = true ∨ s.leaderUp = false ∧ asks ∧ (r.cause = .page ∨ r.cause = .collapse) →
      exec (.trapService d r.seq) s = .next (s.post (.trapService d r.seq) (s.cyc + 1))) ∧
    (s.recordWaits p f r = false →
      (r.cause = .prot ∨ r.cause = .keyrev ∨ (r.cause = .page ∨ r.cause = .collapse) ∧ ¬asks → hosted) ∧
      (r.cause = .page → asks →
        ((∀ x, s.walk p va ≠ .leaf x) → (∀ lv a e, s.entryOf p va = some (lv, a, e) → bits e 0 0 = 1) → hosted) ∧
        (∀ x, s.walk p va = .leaf x → served (fun u => replayed u ∧ SameMemory s u)) ∧
        ∀ lv a e, s.entryOf p va = some (lv, a, e) → bits e 0 0 = 0 →
          let pool := (s.part p).pool
          let dz := lv = 3 ∧ bits e 1 1 = 1 ∧ bits e 6 6 = 1 ∧ s.keyFault p (bits e 12 7) = none
          let fits := fun (g : Nat) => g = bits g 39 16 * 2 ^ 16 ∧ (s.part p).ppaOk g = true ∧
            (bits e 5 5 = 1 → ∀ q < 3, (s.part p).groupStacks q ≠ 0 → (s.part p).ppaOk (q * 2 ^ 38 + g % 2 ^ 38) = true)
          let list := wbits pool 15 0 ≠ 0 ∧ wbits pool 63 16 % 8 = 0
          (¬dz ∨ ¬list ∨ (∀ g, s.schedRead p (wbits pool 63 16) 8 = .ok g → ¬fits g) → hosted) ∧
          (∀ g, dz → list → s.schedRead p (wbits pool 63 16) 8 = .ok g → fits g → served (fun u => replayed u ∧
            (u.part p).pool = wordN ((wbits pool 63 16 + 8) % 2 ^ 48 * 2 ^ 16 + (wbits pool 15 0 - 1)) ∧
            let key := s.keyPair (bits e 12 7)
            let home := fun (q : Nat) => p * 2 ^ 40 + q * 2 ^ 38 + g % 2 ^ 38
            let takes := fun (q : Nat) => if bits e 5 5 = 1 then q < 3 ∧ (s.part p).groupStacks q ≠ 0 else q = g / 2 ^ 38
            let sec := (p * 2 ^ 40 + a) / 32
            (∀ q, takes q → ∀ b < 0x10000, (home q + b) / 32 ≠ sec → u.hbmGet key (home q + b) = 0) ∧
            (∀ b, b / 32 ≠ sec → (∀ q, takes q → b < home q ∨ home q + 0x10000 ≤ b) → ∀ k, u.hbmGet k b = s.hbmGet k b) ∧
            let v := u.hbmRead table (p * 2 ^ 40 + a) 8
            bits v 0 0 = 1 ∧ bits v 6 6 = 0 ∧ bits v 39 16 = g / 2 ^ 16 ∧ bits v 5 1 = bits e 5 1 ∧
              bits v 15 7 = bits e 15 7 ∧ bits v 63 40 = bits e 63 40))) ∧
      (r.cause = .collapse → asks →
        ((∀ x, s.walk p va ≠ .leaf x) → hosted) ∧
        (∀ x, s.walk p va = .leaf x →
          (s.collapsing x = true → served (fun u => (u.part p).serving = (s.part p).serving ++ [r] ∧ u.thr c r.slot = h ∧ SameMemory s u)) ∧
          (s.collapsing x = false → x.rep = false → served (fun u => replayed u ∧ SameMemory s u)) ∧
          (s.collapsing x = false → x.rep = true → ∀ lv a e, s.entryOf p va = some (lv, a, e) → served (fun u =>
            (u.part p).serving = (s.part p).serving ++ [r] ∧ u.thr c r.slot = h ∧
            (∃ q, (u.part p).changes = (s.part p).changes ++ [q] ∧ q.kind = 0 ∧ q.base = x.base ∧ q.len = 2 ^ x.bits ∧ q.then' = 3 ∧
              (∀ o ∈ s.cores, o.2.field ≠ none → o.2.part = p → o.1 ∈ q.todo ∧ u.Sent (.invalidation p o.1))) ∧
            let v := u.hbmRead table (p * 2 ^ 40 + a) 8
            ∃ g, (∀ q < g, (s.part p).groupStacks q = 0) ∧ (g < 3 → (s.part p).groupStacks g ≠ 0) ∧ bits v 39 38 = g ∧
              bits v 37 16 = bits e 37 16 ∧ bits v 5 5 = 0 ∧ bits v 4 0 = bits e 4 0 ∧ bits v 15 6 = bits e 15 6 ∧
              bits v 63 40 = bits e 63 40)))))

/-- R391, R370, R392: a record is written at the trap ring's write index as its eight doublewords, when the ring has room,
and awaits the host. TACT settles the record it names: kill, replay, but of the sixteenth repeat the first time only by the
ring again with RPT, park, which leaves the record waiting (the model's choice, log 60), forward or rollback; a number that names
no record waiting has no effect. -/
def Claims.RecordsAndHost : Prop :=
  ∀ (s : State) (p n : Nat) (r : TrapRec) (l : List TrapRec),
    let x := s.part p
    (x.tpend = r :: l → x.tring.full = false → r.org ≠ 2 → s.hostMem.wf = true →
      let a := x.tring.base + 64 * (x.tring.wix % 2 ^ x.tring.size)
      ∃ u, exec (.trapRecordDelivery p) s = .next u ∧ (u.part p).tpend = l ∧ (u.part p).await = x.await ++ [r] ∧
        (u.part p).tring = { x.tring with wix := x.tring.wix + 1 } ∧ Raised s u (p + 1) 2 ∧
        (∀ i < 8, mread u.hostMem (a + 8 * i) 8 = (r.words.getD i 0).toNat) ∧
        (∀ b, b < a ∨ a + 64 ≤ b → u.hostByte b = s.hostByte b)) ∧
    (x.await = [r] → r.seq % 2 ^ 61 = n → r.org = 0 →
      ∀ f c, tfind s.fields r.field = some f → r.lcn < f.fw * f.fh → c = s.lcnPos f r.lcn →
        (s.thr c r.slot).inc = r.inc → (s.thr c r.slot).st = .parked →
        (f.stage = .running → ∃ u g, exec (.tactKill p n) s = .next u ∧ tfind u.fields r.field = some g ∧ g.stage = .killing ∧
          (u.part p).await = [] ∧ SameMemory s u) ∧
        (r.cause = .illegal → 16 ≤ (s.thr c r.slot).repCount → r.rpt = false → ∃ u, exec (.tactReplay p n) s = .next u ∧
          (u.part p).await = [] ∧ (u.part p).tpend = x.tpend ++ [{ r with rpt := true }] ∧ u.thr c r.slot = s.thr c r.slot ∧
          SameMemory s u) ∧
        (r.cause = .illegal → r.e = false → (s.thr c r.slot).repCount < 16 ∨ r.rpt = true → ∃ u, exec (.tactReplay p n) s = .next u ∧ (u.part p).await = [] ∧
          u.thr c r.slot = (s.thr c r.slot).replay ∧ SameMemory s u) ∧
        (∃ u, exec (.tactPark p n) s = .next u ∧ (u.part p).await = [r] ∧ u.thr c r.slot = s.thr c r.slot ∧ SameMemory s u) ∧
        (∀ k, f.action r.cause = (3, k) → k ≠ r.lcn → k < f.fw * f.fh →
          let o := s.locate (s.lcnPos f k)
          (s.core o).field ≠ none → (s.core o).ls.wf = true → ∃ u, exec (.tactForward p n) s = .next u ∧ (u.part p).await = [] ∧
            (∀ i < 8, mread (u.core o).ls (0x5FC0 + 8 * i) 8 = (r.words.getD i 0).toNat) ∧
            u.thr (s.lcnPos f k) 0 = (s.thr (s.lcnPos f k) 0).event 0) ∧
        (f.stage = .running → f.ckArea ≠ none → f.unrest = false → f.rolls < 3 → ∃ u g, exec (.tactRollback p n) s = .next u ∧
          tfind u.fields r.field = some g ∧ g.stage = .rolling ∧ (u.part p).await = [] ∧ SameMemory s u)) ∧
    (x.await = [] → ∀ i ∈ [Instr.tactKill p n, .tactReplay p n, .tactPark p n, .tactForward p n, .tactRollback p n],
      exec i s = .next s)

/-- R397 to R400: a kill message makes every core of the context empty its slots and discard its commands, buffers and
requests, and every home its queued operations; messages of the context are swept for 8,192 ticks. When every core has
swept and every write is acknowledged, the launch retires with status 3, or, in host-assisted mode, the host, which retires it
(R354), is told by a note of the partition under a number of its own (the model's choice, logs 50 and 92); or its rollback goes
on, but not of an interval that can no longer be restored (R412). -/
def Claims.Kills : Prop :=
  ∀ (s : State) (c x i : Nat) (f : Field), tfind s.fields i = some f →
    ((s.core c).field = some i → f.ctx = x → f.stage = .killing → s.benches = [] → (s.core c).migTo = none → ∃ u,
      exec (.killMessage c x) s = .next u ∧ (∀ t, (u.thr c t).st = .empty) ∧ (u.core c).exits = [] ∧ (u.core c).copyQ = [] ∧
      (u.core c).gatQ = [] ∧ (u.core c).ring = none ∧ (u.core c).seqq = [] ∧ (u.core c).reqs = [] ∧ (u.core c).replies = [] ∧
      (u.core c).deque = [] ∧ (u.core c).tape = none ∧ (u.core c).mtile = none ∧ (∀ e ∈ (u.core c).pbuf, e.d = true ∧ e.r = false) ∧
      (∀ q ∈ (u.core c).feq, q.ctx ≠ x) ∧ (x, s.cyc + 8192) ∈ (u.core c).sweeps ∧
      (s.cyc + 8192, Action.ev (.killSweepEnd c x)) ∈ u.inflight ∧ SameMemory s u) ∧
    ((s.core c).field = none → ∃ u, OnCore (.killMessage c x) s u c (fun k => { k with
      feq := k.feq.filter (fun q => q.ctx ≠ x), sweeps := k.sweeps ++ [(x, s.cyc + 8192)] })) ∧
    (∃ u, exec (.killSweepEnd c x) s = .next u ∧ { u with cores := s.cores, inflight := s.inflight } = s ∧
      (∀ j, j ≠ c → u.core j = s.core j) ∧ { u.core c with sweeps := (s.core c).sweeps } = s.core c ∧
      (∀ w, w ∈ (u.core c).sweeps ↔ w ∈ (s.core c).sweeps ∧ ¬ (w.1 = x ∧ w.2 ≤ s.cyc)) ∧
      (s.coreOf f.part (c, s.core c) = true → f.ctx = x → f.stage = .killing ∨ f.stage = .rolling → f.confirmed = false →
        u.Sent (.killConfirmation i))) ∧
    ((∀ e ∈ s.cores, e.2.sweeps = [] ∧ e.2.pbuf = []) → s.inflight = [] →
      (f.stage = .killing ∨ f.stage = .rolling ∧ f.unrest = true →
        (f.confirmed = false → s.assisted f.part 5 = true → ∃ u, exec (.killConfirmation i) s = .next u ∧
          { u with fields := s.fields, parts := s.parts, seqNo := s.seqNo } = s ∧ u.seqNo = s.seqNo + 1 ∧
          tfind u.fields i = some { f with stage := .killing, confirmed := true } ∧
          (u.part f.part).notes = (s.part f.part).notes ++ [.purged s.seqNo f.ctx]) ∧
        (f.confirmed = true → exec (.killConfirmation i) s = .next s) ∧
        (f.confirmed = false → s.assisted f.part 5 = false → ∃ u g, exec (.killConfirmation i) s = .next u ∧
          tfind u.fields i = some g ∧ g.stage = .retiring ∧ g.status = 3 ∧ u.Sent (.retirement i) ∧
          ∀ k, (s.core k).field = some i → (u.core k).field = none)) ∧
      (f.stage = .rolling → f.unrest = false → exec (.killConfirmation i) s = .next (s.post1 (.rollbackRestore i))))

/-- R398: a home that sweeps the messages of a context discards those that arrive: a load, a release store, a full-empty request,
a steal, a fetch, a port entry and an event have no effect there, and no reply follows. -/
def Claims.SweptDiscards : Prop :=
  ∀ (s : State) (c t pos : Nat),
    let k := s.core c
    (∃ e ∈ [pos, s.locate pos], ∃ w ∈ (s.core e).sweeps, w.1 = k.ctx ∧ s.cyc < w.2) →
    (∀ r l off, k.reqs = r :: l → r.slot = t →
      let gone := fun (i : Instr) => exec i s = .next (s.setCore c { k with reqs := l })
      (∀ n z sc, r.k = .lda (.ls pos off) n z sc → gone (.ldaAtHome c t)) ∧
      (∀ n v, r.k = .strel (.ls pos off) n v → gone (.strelAtHome c t)) ∧
      (∀ op v, r.k = .fe op (.ls pos off) v → gone (.feAtHome c t)) ∧
      (∀ i f lcn, k.field = some i → tfind s.fields i = some f → pos = s.lcnPos f lcn → r.k = .steal lcn → gone (.stealRequest c t))) ∧
    (∀ x off, k.fetch t = some x → x.dst = .ls pos off → exec (.sectorFetch c t) s = .next s) ∧
    (∀ v r, s.neighbour c t = some pos → tget [] k.portOut t = v :: r →
      exec (.portEntryArrival c t) s = .next (s.setCore c { k with portOut := tset k.portOut t r })) ∧
    (∀ m r i f, k.evOut = m :: r → m.slot = t → k.field = some i → tfind s.fields i = some f → pos = s.lcnPos f m.lcn →
      exec (.eventArrival c t) s = .next (s.setCore c { k with evOut := r }))

/-- R328, R370, R391 to R400: trap records settled, page faults serviced, and kills. -/
def Obligations.RecordsAndKills : Prop := RecordsServed ∧ PagesServed ∧ RecordsAndHost ∧ Kills ∧ SweptDiscards

/-- R275, R279, R365, R381: a change of translation that every core has acknowledged completes, that of a revoked key once
the controllers have finished what they had accepted: the translators of the package forget the range, and its command's
status shows the sequence number and 0. A revoked key is gone; an import entry, kept aside at 4096 + h until then, takes effect
(the model's choice, log 55). An error in a core's registers goes to the agent as a record of origin 3, which parks no thread
(the model's choice, log 56). -/
def Claims.ChangesComplete : Prop :=
  ∀ (s : State) (p c : Nat) (q : Change) (l : List Change), (s.part p).changes = q :: l → q.todo = [] →
    let done := fun (u : State) (off : Nat) => tget 0 (u.part p).regs off = wordN (s.seqNo % 2 ^ 55 * 2 ^ 8) ∧
      u.seqNo = s.seqNo + 1 ∧ (u.part p).changes = l ∧ (∀ x, x ∈ u.xlate ↔ x ∈ s.xlate ∧ q.hits p x = false) ∧
      (∀ x, x ∈ u.xpast ↔ x ∈ s.xpast ∧ q.hits p x = false) ∧ SameMemory s u
    (q.then' = 0 → ∃ u, exec (.translationChangeComplete p) s = .next u ∧ done u 0x0628 ∧ u.keys = s.keys) ∧
    (q.then' = 1 → s.accepted p q.arg = true → l = [] →
      exec (.translationChangeComplete p) s = .next (s.post (.translationChangeComplete p) (s.cyc + 1))) ∧
    (q.then' = 1 → s.accepted p q.arg = false → ∃ u, exec (.translationChangeComplete p) s = .next u ∧ done u 0x0708 ∧ tget .empty u.keys q.arg = .revoked ∧
      ∀ k, k ≠ q.arg → tget .empty u.keys k = tget .empty s.keys k) ∧
    (q.then' = 2 → ∀ e, tfind (s.part p).imports (4096 + q.arg) = some e → ∃ u, exec (.translationChangeComplete p) s = .next u ∧
      done u 0x0828 ∧ tfind (u.part p).imports q.arg = some e) ∧
    ((s.core c).field ≠ none → (s.core c).cell = none → ∃ u r, exec (.ueCoreState c) s = .next u ∧
      { u with dieTab := s.dieTab, seqNo := s.seqNo, inflight := s.inflight } = s ∧ u.seqNo = s.seqNo + 1 ∧
      (u.die (dieOf c)).recs = (s.die (dieOf c)).recs ++ [r] ∧ r.seq = s.seqNo ∧ r.org = 3 ∧ r.cause = .ue)

/-- R26, R27, R256, R268 to R275, R381: transfers of windows, the append buffer and the scoreboard, translations, lines and
their changes. -/
def Obligations.WindowsAndTranslations : Prop :=
  WindowSteps ∧ AppendAndRetirement ∧ PageWalks ∧ TranslationsAndLines ∧ TranslationChanges ∧ ChangesComplete

/-! ## The host's registers and commands -/

/-- A command of partition p completes with a code: its status register shows the sequence number assigned and the code,
and no other register of the function changes. -/
def Claims.Answers (s u : State) (p off code : Nat) : Prop :=
  tget 0 (u.part p).regs off = wordN (s.seqNo % 2 ^ 55 * 2 ^ 8 + code) ∧ u.seqNo = s.seqNo + 1 ∧
    ∀ o, o ≠ off → tget 0 (u.part p).regs o = tget 0 (s.part p).regs o

/-- A command is turned away with a code: it has no effect but its status. -/
def Claims.Refuses (i : Instr) (s : State) (p off code : Nat) : Prop :=
  ∃ u, exec i s = .next u ∧ Answers s u p off code ∧ { u with parts := s.parts, seqNo := s.seqNo } = s ∧
    (∀ j, j ≠ p → u.part j = s.part j) ∧ { u.part p with regs := (s.part p).regs } = s.part p

/-- R364 to R366, R369: a write to a register of a function: one that is misaligned, beyond the block or to a function with
no partition is ignored; the operand registers hold what was written; the interval, mode, address-window and page-table
registers take the bits they have (that the others are dropped is the model's choice, log 113). A cleared queue that had overflowed drops its pending entries, another goes on. -/
def Claims.RegisterWrites : Prop :=
  ∀ (s : State) (p off q : Nat) (v : Word),
    (off % 8 ≠ 0 ∨ 0x10000 ≤ off → exec (.registerWrite p off v) s = .next s) ∧
    (tfind s.parts p = none → exec (.registerWrite (p + 1) off v) s = .next s) ∧
    (exec (.registerWrite 0 0x0108 v) s = .next { s with parg := v } ∧
      exec (.registerWrite 0 0x3008 v) s = .next { s with fwarg := v } ∧
      exec (.registerWrite 0 0x2120 v) s = .next { s with tthr := v.toNat % 2 ^ 16 }) ∧
    (∀ x, tfind s.parts p = some x →
      let sets := fun (o : Nat) (y : Part) => ∃ u, exec (.registerWrite (p + 1) o v) s = .next u ∧ { u with parts := s.parts } = s ∧
        u.part p = y ∧ ∀ j, j ≠ p → u.part j = s.part j
      (∀ o ∈ [0x0610, 0x0618, 0x0800, 0x0808, 0x0900, 0x0908, 0x0A00, 0x0B08, 0x0B10, 0x2008, 0x2010, 0x0710, 0x0750],
        sets o { x with regs := tset x.regs o v }) ∧
      sets 0x0100 { x with modes := v.toNat % 2 ^ 7 } ∧ sets 0x0108 { x with ckint := v.toNat } ∧
      sets 0x0320 { x with telint := v.toNat, lastTel := s.cyc } ∧ sets 0x0608 { x with pool := v } ∧
      sets 0x0500 { x with apbase := wordN (v.toNat / 2 ^ 36 * 2 ^ 36) } ∧
      sets 0x0600 { x with ptroot := wordN (v.toNat / 2 ^ 12 % 2 ^ 28 * 2 ^ 12 + v.toNat % 2 ^ 6) }) ∧
    (let z := s.queue p q
     (z.hlt = true → z.err ≠ 1 → ∃ u, exec (.hltClear p q) s = .next u ∧ u.queue p q = { z with hlt := false, err := 0 } ∧
       { u with parts := s.parts, inflight := s.inflight } = s ∧ u.Sent (.doorbellWrite p q)) ∧
     (∀ pa key, z.hlt = true → z.err = 1 → z.rix.toNat % 8 = 0 →
       let s' := s.modQueue p q (fun y => { y with hlt := false, err := 0 })
       s'.schedPlace p z.rix.toNat 2 = .ok (.hbm pa key) → ∀ v, z.wix.toNat % 8 = 0 → s'.schedRead p z.wix.toNat 8 = .ok v → ∃ u,
       exec (.hltClear p q) s = .next u ∧ u.queue p q = { z with hlt := false, err := 0, rd := v, wr := v }))

/-- R365, R372, R373, R379 to R381, R432: INV, IMPORT and REVOKE begin a change of translation that every core of the
partition is to acknowledge, their status busy; LOAD unwraps a key pair into an empty slot of the partition's set; LOAD and REVOKE
extend its measurement; EXPORT sets or clears an entry. Each turns away malformed operands with the code listed. The model's
choices: LOAD and EXPORT complete at once (log 71); an import entry is kept at 4096 + h until its change completes (log 55). -/
def Claims.PartitionCommands : Prop :=
  ∀ (s : State) (p : Nat),
    let r := fun (o : Nat) => tget 0 (s.part p).regs o
    let begun := fun (u : State) (kind base len t arg : Nat) => ∃ c, (u.part p).changes = (s.part p).changes ++ [c] ∧
      c.kind = kind ∧ c.base = base ∧ c.len = len ∧ c.then' = t ∧ c.arg = arg ∧
      (∀ e ∈ s.cores, e.2.field ≠ none → e.2.part = p → e.1 ∈ c.todo ∧ u.Sent (.invalidation p e.1)) ∧
      (c.todo = [] → u.Sent (.translationChangeComplete p))
    (let (b, n) := ((r 0x0610).toNat, (r 0x0618).toNat)
     (b % 0x10000 ≠ 0 ∨ n % 0x10000 ≠ 0 ∨ n = 0 ∨ 2 ^ 48 < b + n → Refuses (.invRange p) s p 0x0628 1) ∧
     (b % 0x10000 = 0 → n % 0x10000 = 0 → n ≠ 0 → b + n ≤ 2 ^ 48 → ∃ u, exec (.invRange p) s = .next u ∧
       tget 0 (u.part p).regs 0x0628 = wordN (2 ^ 63) ∧ begun u 0 b n 0 0)) ∧
    (let k := wbits (r 0x0700) 13 8
     let own := bits (s.part p).keys k k = 1
     (¬own → Refuses (.loadKey p) s p 0x0708 1 ∧ Refuses (.revoke p) s p 0x0708 1) ∧
     (own → tget .empty s.keys k ≠ .empty → Refuses (.loadKey p) s p 0x0708 3) ∧
     (own → tget .empty s.keys k = .empty →
       (keyUnwrap (s.part p).wrap (s.keyBlob p) = none → Refuses (.loadKey p) s p 0x0708 2) ∧
       (∀ y, keyUnwrap (s.part p).wrap (s.keyBlob p) = some y → ∃ u, exec (.loadKey p) s = .next u ∧ Answers s u p 0x0708 0 ∧
         tget .empty u.keys k = .loaded y ∧ (∀ j, j ≠ k → tget .empty u.keys j = tget .empty s.keys j) ∧ SameMemory s u ∧
         (u.part p).pmeas = sha256 (bytesLE (s.part p).pmeas.toNat 32 ++ bytesLE k 1 ++ bytesLE (sha256 (s.keyBlob p)).toNat 32))) ∧
     (own → ∃ u, exec (.revoke p) s = .next u ∧ tget .empty u.keys k = .revoking (s.keyPair k) ∧
       (∀ j, j ≠ k → tget .empty u.keys j = tget .empty s.keys j) ∧
       (u.part p).pmeas = sha256 (bytesLE (s.part p).pmeas.toNat 32 ++ bytesLE k 1 ++ List.replicate 32 0xFF) ∧
       tget 0 (u.part p).regs 0x0708 = wordN (2 ^ 63) ∧ begun u 1 k 0 1 k)) ∧
    (let h := (r 0x0800).toNat
     let bad := wbits (r 0x0808) 63 40 ≠ 0 ∨ wbits (r 0x0808) 15 5 ≠ 0 ∨ r 0x0820 ≠ 0 ∨ 4095 < h
     (bad → Refuses (.importEntry p) s p 0x0828 1) ∧
     (¬bad → ∃ u, exec (.importEntry p) s = .next u ∧ tget 0 (u.part p).regs 0x0828 = wordN (2 ^ 63) ∧ begun u 2 h 0 2 h ∧
       tfind (u.part p).imports (4096 + h) = some ⟨r 0x0808, r 0x0810, r 0x0818⟩ ∧
       tfind (u.part p).imports h = tfind (s.part p).imports h)) ∧
    (let (n, b, l) := ((r 0x0900).toNat % 2 ^ 8, (r 0x0908).toNat, (r 0x0910).toNat)
     (l = 0 → ∃ u, exec (.exportRange p) s = .next u ∧ Answers s u p 0x0920 0 ∧ tfind (u.part p).exports n = none) ∧
     (l ≠ 0 → b % 0x10000 ≠ 0 ∨ 2 ^ 48 < b + l → Refuses (.exportRange p) s p 0x0920 1) ∧
     (l ≠ 0 → b % 0x10000 = 0 → b + l ≤ 2 ^ 48 → ∃ u, exec (.exportRange p) s = .next u ∧ Answers s u p 0x0920 0 ∧
       tfind (u.part p).exports n = some ⟨b, l, (r 0x0918).getLsbD 0⟩))

/-- R347, R351, R354, R368: MIGRATE of a running core to a named free position begins its migration, at the next boundary;
RECAST sends its role to the core; PLACE names an origin in host-assisted placement, and is 3 in hardware mode. A
malformed target, a context with no field and a core outside its field are 1, a core that cannot be served 2; that a core of a field that is not running is such a one,
and that a command completes at once, are the model's choices (logs 52 and 71). -/
def Claims.SchedulerCommands : Prop :=
  ∀ (s : State) (p i : Nat) (f : Field),
    let a0 := tget 0 (s.part p).regs 0x0B08
    let a1 := tget 0 (s.part p).regs 0x0B10
    let lcn := wbits a0 19 0
    let c := s.lcnPos f lcn
    let named := wbits a0 63 60 = 0 ∧ wbits a0 47 20 = 0 ∧ s.liveField p (wbits a0 59 48) = some (i, f) ∧ lcn < f.fw * f.fh
    let tile := wbits a1 62 26 = 0 ∧ wbits a1 15 10 = 0
    (¬tile → Refuses (.migrateCore p) s p 0x0B18 1) ∧ (7 < a1.toNat → Refuses (.recastCmd p) s p 0x0B18 1) ∧
    (wbits a0 63 60 ≠ 0 ∨ wbits a0 47 20 ≠ 0 ∨ s.liveField p (wbits a0 59 48) = none ∨
      s.liveField p (wbits a0 59 48) = some (i, f) ∧ f.fw * f.fh ≤ lcn →
      Refuses (.migrateCore p) s p 0x0B18 1 ∧ Refuses (.recastCmd p) s p 0x0B18 1) ∧
    (tile → named → a1.getLsbD 63 = true → (s.assisted p 0 = true → Refuses (.migrateCore p) s p 0x0B18 3) ∧
      (s.assisted p 0 = false → s.firstFit p 1 1 = none → Refuses (.migrateCore p) s p 0x0B18 2)) ∧
    (tile → named → a1.getLsbD 63 = false →
      let (x, y) := (wbits a1 9 0, wbits a1 25 16)
      let d := (s.part p).pos x y
      (¬(x < (s.part p).w ∧ y < (s.part p).h ∧ s.isFree d = true) → Refuses (.migrateCore p) s p 0x0B18 2) ∧
      (x < (s.part p).w → y < (s.part p).h → s.isFree d = true → f.stage = .running → (s.core c).placing = false →
        (s.core c).migTo = none → (s.core c).ended = false → (s.core c).cell = none → d ≠ c → ∃ u, exec (.migrateCore p) s = .next u ∧
        Answers s u p 0x0B18 0 ∧ (u.core c).migTo = some d ∧ (u.core d).field = some i ∧ (u.core d).placing = true ∧
        (u.core c).threads = (s.core c).threads ∧ (s.boundary, Action.ev (.migrationSwitch c)) ∈ u.inflight)) ∧
    (named → a1.toNat ≤ 7 →
      (f.stage ≠ .running ∨ (s.core c).ended = true ∨ tfind f.roles a1.toNat = none → Refuses (.recastCmd p) s p 0x0B18 2) ∧
      (f.stage = .running → (s.core c).ended = false → tfind f.roles a1.toNat ≠ none → ∃ u, exec (.recastCmd p) s = .next u ∧
        Answers s u p 0x0B18 0 ∧ u.Sent (.coreRecast c a1.toNat) ∧ u.cores = s.cores)) ∧
    (a0.toNat ≤ 63 → wbits a1 63 26 = 0 → wbits a1 15 10 = 0 →
      (s.assisted p 0 = false → Refuses (.placeQueue p) s p 0x0B18 3) ∧
      (s.assisted p 0 = true → ∃ u, exec (.placeQueue p) s = .next u ∧ Answers s u p 0x0B18 0 ∧
        tfind (u.part p).origins a0.toNat = some (wbits a1 9 0, wbits a1 25 16) ∧ u.Sent (.dispatch p))) ∧
    (63 < a0.toNat → Refuses (.placeQueue p) s p 0x0B18 1)

/-- R364 to R369, R372, R373, R379 to R381: the registers and commands of a partition's function. -/
def Obligations.HostCommands : Prop := RegisterWrites ∧ PartitionCommands ∧ SchedulerCommands

/-- A management command of function 0 completes with a code. -/
def Claims.PAnswers (s u : State) (code : Nat) : Prop := u.pstat = wordN (s.seqNo % 2 ^ 55 * 2 ^ 8 + code) ∧ u.seqNo = s.seqNo + 1

/-- R367, R375, R376, R380: CREATE makes the partition of its record, on a rectangle of dies that are clocked and whose
resources no other partition has; DESTROY of a partition with no context frees everything it had; CKSET, KILL and KRET act
on their partition, context and slot. Each refusal has its code, in the order listed, and no other effect. The model's
choices: each completes at once (log 71); while no leader runs, CREATE and DESTROY wait, busy (R422; log 59). -/
def Claims.PartitionsManaged : Prop :=
  (∀ s : State, s.leaderUp = false → ∀ e ∈ [(Instr.createPart, Ev.createPart), (.destroyPart, .destroyPart)],
    exec e.1 s = .next (({ s with pstat := wordN (2 ^ 63) } : State).post e.2 (s.cyc + 1))) ∧
  ∀ s : State, s.leaderUp = true →
    let w := fun (i : Nat) => tget 0 s.pstage i
    let p := wbits (w 0) 7 0
    let q := wbits s.parg 3 0
    let refuses := fun (i : Instr) (code : Nat) => exec i s =
      .next { s with pstat := wordN (s.seqNo % 2 ^ 55 * 2 ^ 8 + code), seqNo := s.seqNo + 1 }
    (s.stageBad = true → refuses .createPart 4) ∧
    (s.stageBad = false → tfind s.parts p ≠ none → refuses .createPart 3) ∧
    (s.stageBad = false → tfind s.parts p = none → dieRect (wbits (w 0) 31 16) = none → refuses .createPart 2) ∧
    (∀ r, s.stageBad = false → tfind s.parts p = none → dieRect (wbits (w 0) 31 16) = some r →
      let x := s.stagePart r
      (x.stackSet = 0 → refuses .createPart 2) ∧
      (x.stackSet ≠ 0 → s.parts.any (fun e => e.2.clash x) = true → refuses .createPart 1) ∧
      (x.stackSet ≠ 0 → s.parts.any (fun e => e.2.clash x) = false →
        ((∃ d < 9, bits x.dies d d = 1 ∧ (s.die d).clk = false) → refuses .createPart 5) ∧
        ((∀ d < 9, bits x.dies d d = 1 → (s.die d).clk = true) → ∃ u y, exec .createPart s = .next u ∧ PAnswers s u 0 ∧
          tfind u.parts p = some y ∧ (∀ j, j ≠ p → tfind u.parts j = tfind s.parts j) ∧ y.dies = wbits (w 0) 31 16 ∧
          y.stackSet = wbits (w 0) 47 32 ∧ y.keys = (w 1).toNat ∧ y.x0 = 336 * r.1 ∧ y.y0 = 336 * r.2.1 ∧ y.w = 336 * r.2.2.1 ∧
          y.h = 336 * r.2.2.2 ∧ y.ckbase = (w 3).toNat ∧ y.ckstride = (w 4).toNat ∧ u.cores = s.cores))) ∧
    (tfind s.parts p = none → refuses .ckset 3) ∧
    (∀ x, tfind s.parts p = some x → (w 3).toNat % 0x10000 = 0 → (w 4).toNat % 0x10000 = 0 → ∃ u, exec .ckset s = .next u ∧
      PAnswers s u 0 ∧ u.part p = { x with ckbase := (w 3).toNat, ckstride := (w 4).toNat }) ∧
    (∀ x, tfind s.parts p = some x → (w 3).toNat % 0x10000 ≠ 0 ∨ (w 4).toNat % 0x10000 ≠ 0 → refuses .ckset 4) ∧
    (tfind s.parts q = none → (∀ e ∈ s.parts, e.2.destroying = false) → refuses .destroyPart 3 ∧ refuses .killCtx 3) ∧
    (s.liveField q (wbits s.parg 27 16) = none → refuses .killCtx 3) ∧
    (∀ x, tfind s.parts q = some x → (∀ e ∈ s.parts, e.2.destroying = false) → s.partQuiet q = true → ∃ u,
      exec .destroyPart s = .next u ∧ PAnswers s u 0 ∧ tfind u.parts q = none ∧
      (∀ e ∈ u.cores, bits x.dies (dieOf e.1) (dieOf e.1) ≠ 1) ∧ (∀ e ∈ u.xlate, e.part ≠ q) ∧ (∀ f ∈ u.fields, f.2.part ≠ q) ∧
      (∀ k, bits x.keys k k = 1 → tget .empty u.keys k = .empty) ∧ u.hbm = s.hbm) ∧
    (∀ i f, tfind s.parts q ≠ none → s.liveField q (wbits s.parg 27 16) = some (i, f) → tfind s.fields i = some f →
      f.stage = .running → ∃ u g, exec .killCtx s = .next u ∧ u.pstat = wordN ((s.seqNo + 1) % 2 ^ 55 * 2 ^ 8) ∧
        tfind u.fields i = some g ∧ g.stage = .killing ∧ SameMemory s u) ∧
    (let k := wbits s.parg 13 8
     let mine := bits (s.part q).keys k k = 1 ∧ tget .empty s.keys k = .revoked
     (¬mine → refuses .kret 6) ∧
     (mine → ∃ u, exec .kret s = .next u ∧ PAnswers s u 0 ∧ tget .empty u.keys k = .empty ∧
       ∀ j, j ≠ k → tget .empty u.keys j = tget .empty s.keys j))

/-- R359, R423, R425, R433, R434, R417: a package reset keeps SVNMIN, the owner store and the active image, which then runs,
and starts the sequence numbers at 1 (that it keeps nothing else, neither a verified image nor the nonces made, is the model's
choice, logs 27 and 8); a cap, a ramp, a gate and a clock take effect on their die, but a die of a partition
keeps its clock; a row is gated when nothing uses it and its gate is set, and ungated in ascending order at the ramp; a
sensor below the threshold and a scrub that finds nothing do nothing. -/
def Claims.PowerAndDuties : Prop :=
  ∀ (s : State) (d r n v : Nat) (w : Word),
    (∃ u, exec .powerOnReset s = .next u ∧ u.svnMin = s.svnMin ∧ u.owners = s.owners ∧ u.moduli = s.moduli ∧ u.active = s.active ∧
      u.running = s.active.getD s.running ∧ u.seqNo = 1 ∧ u.cyc = 0 ∧ u.cores = [] ∧ u.parts = [] ∧ u.fields = [] ∧ u.keys = [] ∧
      u.nonces = [] ∧ u.verified = none) ∧
    (let onDie := fun (i : Instr) (y : Die) => ∃ u, exec i s = .next u ∧ { u with dieTab := s.dieTab, inflight := s.inflight } = s ∧
       u.die d = y ∧ ∀ e, e ≠ d → u.die e = s.die e
     let x := s.die d
     onDie (.capWrite d w) { x with cap := w.toNat % 2 ^ 36 } ∧
     onDie (.gateWrite d w) { x with ramp := max 1 (min 42 (wbits w 55 48)), gate := BitVec.ofNat 42 (wbits w 47 6) } ∧
     (w.getLsbD 0 = true ∨ s.dieOwner d = none → onDie (.clkWrite d w) { x with clk := w.getLsbD 0 }) ∧
     (w.getLsbD 0 = false → s.dieOwner d ≠ none → onDie (.clkWrite d w) { x with cref := true }) ∧
     (r < 42 → x.gate.getLsbD r = true → x.gated.getLsbD r = false → s.rowUsed d r = false →
       onDie (.rowGate d r) { x with gated := x.gated ||| BitVec.ofNat 42 (2 ^ r) }) ∧
     (x.gate.getLsbD r = false ∨ s.rowUsed d r = true → exec (.rowGate d r) s = .next s) ∧
     (r < 42 → x.gate.getLsbD r = false → x.gated.getLsbD r = true → (∀ q < r, x.gate.getLsbD q = true ∨ x.gated.getLsbD q = false) →
       (x.span + 1400 ≤ s.cyc → onDie (.rowUngate d r)
         { x with gated := x.gated &&& ~~~ BitVec.ofNat 42 (2 ^ r), span := s.cyc, ungated := 1 }) ∧
       (s.cyc < x.span + 1400 → x.ungated < x.ramp → onDie (.rowUngate d r)
         { x with gated := x.gated &&& ~~~ BitVec.ofNat 42 (2 ^ r), ungated := x.ungated + 1 }) ∧
       (s.cyc < x.span + 1400 → x.ramp ≤ x.ungated → exec (.rowUngate d r) s = .next s))) ∧
    (v < s.tthr → exec (.sensorRead d n v) s = .next s) ∧
    (s.tthr ≤ v → ∃ u, exec (.sensorRead d n v) s = .next u ∧ u.seqNo = s.seqNo + 1 ∧ u.cores = s.cores ∧ u.hbm = s.hbm ∧ u.dieTab = s.dieTab) ∧
    (s.hbmUe = [] → exec (.scrub 9) s = .next s) ∧
    (∀ a, s.hbmUe = [a] → ∃ u, exec (.scrub 9) s = .next u ∧ u.seqNo = s.seqNo + 1 ∧ u.hbmUe = [a] ∧ u.hbm = s.hbm) ∧
    (d < 9 → (∀ e ∈ s.cores, dieOf e.1 = d → e.2.lsUe = []) → exec (.scrub d) s = .next s)

/-- R420, R421: a renewal that arrives makes the lease last 28,000,000 ticks more, but one that names an earlier epoch is
refused, and its core becomes a follower; a follower's attempt after the lease and its delay makes it the leader of the next
epoch, and an earlier one, or one of a stopped core, does nothing. -/
def Claims.Leases : Prop :=
  ∀ (s : State) (i : Nat), i ≤ 9 →
    let delay := if i = 9 then 0 else (i + 1) * 140000
    (∀ j e r, s.renewals = (j, e) :: r →
      (e < s.leaseEpoch → exec .leaseRenewal s = .next { s with renewals := r, epochs := tdel s.epochs j }) ∧
      (s.leaseEpoch ≤ e → exec .leaseRenewal s = .next { s with renewals := r, leaseExpiry := s.cyc + 28000000 })) ∧
    (s.renewals = [] → exec .leaseRenewal s = .next s) ∧
    (s.fwStopped.contains i = false → i ≠ s.leaseHolder → s.leaseExpiry + delay ≤ s.cyc → ∃ u, exec (.leaseTakeover i) s = .next u ∧
      u.leaseHolder = i ∧ u.leaseEpoch = s.leaseEpoch + 1 ∧ u.leaseExpiry = s.cyc + 28000000 ∧ tget 0 u.epochs i = s.leaseEpoch + 1 ∧
      u.leaderUp = true ∧
      { u with leaseHolder := s.leaseHolder, leaseEpoch := s.leaseEpoch, leaseExpiry := s.leaseExpiry, epochs := s.epochs } = s) ∧
    (s.fwStopped.contains i = true ∨ s.cyc < s.leaseExpiry + delay → exec (.leaseTakeover i) s = .next s)

/-- R427 to R432: with a leader, VERIFY checks format, hash, maker, owner and SVN in that order and keeps an image that
passes; ACTIVATE takes the verified image; SVNSET raises SVNMIN within the active image's number; OWNADD, OWNXFER and NONCE
keep the owner store and the nonces, and a modulus taken by OWNADD stands behind its hash; ATTEST and ATTREQ write their reports
under fresh sequence numbers. The model's choices: without a leader each waits, busy (log 59); the algorithms, and the keys the
manual does not give (log 17). -/
def Claims.SecurityCommands : Prop :=
  ∀ (s : State) (p : Nat),
    let a := s.fwarg.toNat
    let byte := fun (n k : Nat) => mreadBytes s.hostMem (a + n) k
    let ends := fun (i : Instr) (u : State) (code : Nat) => exec i s =
      .next { u with fwstat := wordN (s.seqNo % 2 ^ 55 * 2 ^ 8 + code), seqNo := s.seqNo + 1 }
    (s.leaderUp = false → ∀ e ∈ [(Instr.verifyImage, Ev.verifyImage), (.activate, .activate), (.svnset, .svnset), (.ownadd, .ownadd),
      (.freshNonce, .freshNonce), (.ownxfer, .ownxfer), (.attest, .attest)], ∃ u, exec e.1 s = .next u ∧ u.fwstat = wordN (2 ^ 63) ∧
        u.Sent e.2 ∧ { u with fwstat := s.fwstat, inflight := s.inflight } = s) ∧
    (s.leaderUp = true →
      (let size := ofBytesLE (byte 8 8)
       let img := mreadBytes s.hostMem a (1024 + size)
       let hdr := img.take 0x80
       let ok1 := byte 0 4 = [0x4A, 0x52, 0x46, 0x57] ∧ size % 64 = 0 ∧ size ≤ 2 ^ 24
       let ok2 := bytesLE (sha256 (img.drop 1024)).toNat 32 = (img.drop 0x10).take 32
       let ok3 := pssVerify Config.makerKey hdr ((img.drop 0x80).take 384) = true
       let ok4 := s.owners.any (fun h => pssVerify (s.ownerModulus h) hdr ((img.drop 0x200).take 384)) = true
       let ok5 := s.svnMin.toNat ≤ imageSvn img
       (¬ok1 → ends .verifyImage s 1) ∧ (ok1 → ¬ok2 → ends .verifyImage s 2) ∧ (ok1 → ok2 → ¬ok3 → ends .verifyImage s 3) ∧
       (ok1 → ok2 → ok3 → ¬ok4 → ends .verifyImage s 4) ∧ (ok1 → ok2 → ok3 → ok4 → ¬ok5 → ends .verifyImage s 5) ∧
       (ok1 → ok2 → ok3 → ok4 → ok5 → ends .verifyImage { s with verified := some img } 0)) ∧
      (s.verified = none → ends .activate s 6) ∧ (∀ img, s.verified = some img → ends .activate { s with active := some img } 0) ∧
      (let v := ofBytesLE (byte 0 4)
       let ok := s.svnMin.toNat ≤ v ∧ v ≤ imageSvn (s.active.getD s.running)
       (ok → ends .svnset { s with svnMin := BitVec.ofNat 32 v } 0) ∧ (¬ok → ends .svnset s 5)) ∧
      (s.owners = [] → ends .ownadd { s with owners := [sha256 (byte 0 384)], moduli := s.moduli ++ [byte 0 384] } 0) ∧
      (byte 0 384 ∈ s.moduli → (∀ m ∈ s.moduli, sha256 m = sha256 (byte 0 384) → m = byte 0 384) →
        s.ownerModulus (sha256 (byte 0 384)) = byte 0 384) ∧

      (s.owners ≠ [] → s.ownerSigned (byte 0 384) (byte 384 384) = false → ends .ownadd s 4) ∧
      (s.ownerSigned (byte 0 384) (byte 384 384) = true → 4 ≤ s.owners.length → ends .ownadd s 7) ∧
      (s.ownerSigned (byte 0 384) (byte 384 384) = true → s.owners.length < 4 →
        ends .ownadd { s with owners := s.owners ++ [sha256 (byte 0 384)], moduli := s.moduli ++ [byte 0 384] } 0) ∧
      (∃ u n, exec .freshNonce s = .next u ∧ u.nonces = s.nonces ++ [n] ∧ u.fwstat = wordN (s.seqNo % 2 ^ 55 * 2 ^ 8) ∧
        (s.hostMem.wf = true → ∀ k < 32, u.hostByte (a + k) = BitVec.ofNat 8 (n.toNat / 256 ^ k)) ∧
        ∀ b, b < a ∨ a + 32 ≤ b → u.hostByte b = s.hostByte b) ∧
      (let n := BitVec.ofNat 256 (ofBytesLE (byte 0 32))
       let left := { s with nonces := s.nonces.filter (fun x => x ≠ n) }
       let good := s.nonces.contains n = true ∧ s.ownerSigned (byte 0 64) (byte 64 384) = true
       (s.parts ≠ [] → ends .ownxfer left 8) ∧ (s.parts = [] → ¬good → ends .ownxfer left 4) ∧
       (s.parts = [] → good → ends .ownxfer { left with keys := [], owners := [BitVec.ofNat 256 (ofBytesLE (byte 32 32))] } 0)) ∧
      (s.hostMem.wf = true →
        (let b := ofBytesLE (byte 32 8)
         ∃ u, exec .attest s = .next u ∧ u.fwstat = wordN ((s.seqNo + 1) % 2 ^ 55 * 2 ^ 8) ∧ u.seqNo = s.seqNo + 2 ∧
          mreadBytes u.hostMem b 4 = [0x4A, 0x52, 0x41, 0x54] ∧ mread u.hostMem (b + 6) 1 = 0xFF ∧
          mread u.hostMem (b + 8) 8 = s.seqNo % 2 ^ 64 ∧ mreadBytes u.hostMem (b + 16) 32 = byte 0 32 ∧
          mread u.hostMem (b + 84) 4 = s.svnMin.toNat ∧
          mreadBytes u.hostMem (b + 256) 384 = bytesLE (Config.identitySign (mreadBytes u.hostMem b 256)).toNat 384) ∧
        (let b := (tget 0 (s.part p).regs 0x0A20).toNat
         ∃ u, exec (.attreq p) s = .next u ∧ tget 0 (u.part p).regs 0x0A28 = wordN ((s.seqNo + 1) % 2 ^ 55 * 2 ^ 8) ∧
          mreadBytes u.hostMem b 4 = [0x4A, 0x52, 0x41, 0x54] ∧ mread u.hostMem (b + 6) 1 = p % 2 ^ 8 ∧
          mread u.hostMem (b + 8) 8 = s.seqNo % 2 ^ 64 ∧ mread u.hostMem (b + 16) 8 = (tget 0 (s.part p).regs 0x0A00).toNat)))

/-- R359, R367, R375, R376, R420 to R434: management of the package. -/
def Obligations.Management : Prop := PartitionsManaged ∧ PowerAndDuties ∧ Leases ∧ SecurityCommands

/-! ## From outside: the ordering point, links, the debugger -/

/-- R22, R42, R286: the ganger's EXIT completes when every other slot is empty: its slot is empty, the exit records are gone
and every write-set entry drains; with none to drain the phase ends there and then. Before that, nothing happens. -/
def Claims.GangerLeaves : Prop :=
  ∀ (s : State) (c : Nat),
    let k := s.core c
    ((k.thr 0).wait = .exit → (∀ e ∈ k.threads, e.1 = 0 ∨ e.2.st = .empty) → ∃ u, CoresOnly (.gangerExitComplete c) s u [c] ∧
      ((u.core c).thr 0).st = .empty ∧ Blank ((u.core c).thr 0) ∧ ((u.core c).thr 0).g = Vector.replicate 8 0 ∧ (∀ t, t ≠ 0 → (u.core c).thr t = k.thr t) ∧ (u.core c).exits = [] ∧
      (u.core c).ls = k.ls ∧ (∀ e ∈ (u.core c).pbuf, e.mask ≠ 0 → e.d = true) ∧
      (k.field ≠ none → k.placing = false → k.ended = false →
        (u.core c).phase = if k.writeSet (fun _ => true) = [] then k.phase + 1 else k.phase)) ∧
    ((k.thr 0).wait ≠ .exit ∨ (∃ e ∈ k.threads, e.1 ≠ 0 ∧ e.2.st ≠ .empty) → exec (.gangerExitComplete c) s = .next s)

/-- R22, R140, R169: a thread's start and end. -/
def Obligations.ThreadsStartAndExit : Prop := ThreadStart ∧ ExitLeavesRecord ∧ GangerLeaves

/-- One report has been raised (R359, R384): the next sequence number is used, and the report waits, with count one, or counts
in the waiting one of its location and class; nothing else of the package changes. -/
def Claims.Reports (s u : State) : Prop :=
  u.seqNo = s.seqNo + 1 ∧
    { u with seqNo := s.seqNo, reports := s.reports, inflight := s.inflight, inParts := s.inParts, inReads := s.inReads,
             completions := s.completions, nextId := s.nextId } = s ∧
    ∃ r : Report, r.seq = s.seqNo ∧ r.count = 1 ∧
      let same := fun (q : Report) => r.cls ≠ 14 ∧ q.cls = r.cls ∧ q.part = r.part ∧ q.loc = r.loc
      ((∀ q ∈ s.reports, ¬same q) → u.reports = s.reports ++ [r]) ∧
      ((∃ q ∈ s.reports, same q) → u.reports.length = s.reports.length ∧ ∀ (i : Nat) (q : Report), s.reports[i]? = some q →
        (same q → u.reports[i]? = some { q with count := q.count + 1 }) ∧ (¬same q → u.reports[i]? = some q))

/-- R370, R382, R384 (when reports leave is the model's, log 78): when a tick ends, a waiting report of no partition is written
on function 0's report ring, at the place of its write index, with the reports lost before it, and the ring's vector is raised;
on a full ring, or one not set, it is dropped and counted as lost. -/
def Claims.ReportsLeave : Prop :=
  ∀ (s : State) (r : Report), s.reports = [r] → r.part = none → s.hostMem.wf = true →
    let g := s.pring
    let a := g.base + 64 * (g.wix % 2 ^ g.size)
    (g.full = true → s.deliverReports = { s with reports := [], pring := { g with lost := g.lost + 1 } }) ∧
    (g.full = false → s.deliverReports.pring = { g with wix := g.wix + 1, lost := 0 } ∧ s.deliverReports.reports = [] ∧
      Raised s s.deliverReports 0 1 ∧ s.deliverReports.parts = s.parts ∧ s.deliverReports.cores = s.cores ∧
      (let m := s.deliverReports.hostMem
       mread m a 8 = r.seq % 2 ^ 64 ∧ mread m (a + 8) 1 = r.cls % 2 ^ 8 ∧ mread m (a + 9) 1 = 255 ∧ mread m (a + 10) 2 = r.flags % 2 ^ 16 ∧
       mread m (a + 12) 4 = r.count % 2 ^ 32 ∧ mread m (a + 16) 8 = r.loc % 2 ^ 64 ∧ mread m (a + 24) 8 = r.syn % 2 ^ 64 ∧
       mread m (a + 32) 4 = g.lost % 2 ^ 32 ∧ mread m (a + 36) 2 = r.ctx % 2 ^ 16 ∧
       ∀ b, b < a ∨ a + 64 ≤ b → s.deliverReports.hostByte b = s.hostByte b))

/-- A write of bytes at an address has become parts at the ordering point: together they are its bytes, each lies between two
boundaries, their numbers are consecutive in ascending address order, and each is to be sent. -/
def Claims.Splits (s u : State) (src p kind size a : Nat) (bytes : List Byte) : Prop :=
  { u with inParts := s.inParts, seqNo := s.seqNo, inflight := s.inflight } = s ∧
    ∃ l : List InPart, u.inParts = s.inParts ++ l ∧ l.flatMap (·.bytes) = bytes ∧ u.seqNo = s.seqNo + l.length ∧
      ∀ i q, l[i]? = some q → q.n = s.seqNo + i ∧ q.src = src ∧ q.part = p ∧ q.kind = kind ∧ q.sent = false ∧
        q.addr = a + ((l.take i).flatMap (·.bytes)).length ∧ q.bytes ≠ [] ∧ (i ≠ 0 → q.addr % size = 0) ∧
        q.addr / size = (q.addr + q.bytes.length - 1) / size ∧ u.Sent (.partSend q.n)

/-- A request of the host, of n bytes, lies outside the apertures of its function; of the function of an absent partition only
the ID register is there, to be read (R356, R358). -/
def Claims.Outside (s : State) (fn bar off n : Nat) (read : Bool) : Prop :=
  let gone := fn ≠ 0 ∧ tfind s.parts (fn - 1) = none
  (bar = 0 ∧ (9 < fn ∨ 0x10000 < off + n ∨ (gone ∧ ¬(read = true ∧ off = 0)))) ∨
    (bar = 2 ∧ (fn = 0 ∨ gone ∨ 2 ^ 35 < off + n)) ∨ (bar = 4 ∧ (fn = 0 ∨ gone ∨ 2 ^ 36 < off + n)) ∨ (bar ≠ 0 ∧ bar ≠ 2 ∧ bar ≠ 4)

/-- R356 to R358, R360, R372: a write of the host becomes parts, split at 32 KiB of BAR2 and at 256 bytes of BAR4, or is the
register write of BAR0; an Unsupported Request, or a payload beyond 512 bytes, goes nowhere and is recorded by Advanced Error
Reporting (its kinds are the model's, log 77). A write of a peer reaches the export it names within its length and
permission; anything else is refused with a report. -/
def Claims.InboundWrites : Prop :=
  ∀ (s : State) (port fn bar off : Nat) (bytes : List (BitVec 8)),
    let i := Instr.inboundWrite port fn bar off bytes
    let p := fn - 1
    (512 < bytes.length → exec i s = .next { s with aer := s.aer ++ [(port, fn, 3)] }) ∧
    (bytes.length ≤ 512 → Outside s fn bar off bytes.length false → exec i s = .next { s with aer := s.aer ++ [(port, fn, 1)] }) ∧
    (bytes.length ≤ 512 → ¬Outside s fn bar off bytes.length false →
      (bar = 0 → bytes.length = 8 → exec i s = exec (.registerWrite fn off (wordN (ofBytesLE bytes))) s) ∧
      (bar = 0 → bytes.length ≠ 8 → exec i s = .next s) ∧
      (bar = 2 → bytes ≠ [] → ∃ u, exec i s = .next u ∧ Splits s u (hostSrc port fn) p 2 0x8000 off bytes) ∧
      (bar = 4 → bytes ≠ [] → ∃ u, exec i s = .next u ∧
        Splits s u (hostSrc port fn) p 4 256 ((s.part p).apbase.toNat + off) bytes)) ∧
    (∀ pt pkg rp x len, bytes ≠ [] →
      let j := Instr.peerInbound pt pkg rp x off len bytes
      (tfind (s.part pt).exports x = none → ∃ u, exec j s = .next u ∧ Reports s u ∧ u.inParts = s.inParts) ∧
      (∀ e, tfind (s.part pt).exports x = some e →
        (e.len < off + bytes.length ∨ e.w = false → ∃ u, exec j s = .next u ∧ Reports s u ∧ u.inParts = s.inParts) ∧
        (off + bytes.length ≤ e.len → e.w = true → ∃ u, exec j s = .next u ∧
          Splits s u (peerSrc pkg rp x) pt 3 256 (e.base + off) bytes)))

/-- R265, R279, R361, R363: a part waits for every earlier part of its source that is unsent or awaits acknowledgement on another
route, for a core that is being placed, and for a collapse of its page to complete; then it is performed at its home, for the bytes its home has, and acknowledged,
every other byte reading as before; at a free core it is dropped, and one outside the mesh is refused with a report, and both
are acknowledged. The acknowledgement lets the parts and reads of its source that waited go on. -/
def Claims.InboundParts : Prop :=
  ∀ (s : State) (n : Nat) (q : InPart), s.inParts.find? (fun m => m.n = n) = some q →
    let k := q.bytes.length
    let v := ofBytesLE q.bytes
    let sent := fun (u : State) => u.inParts = s.inParts.map (fun m => if m.n = n then { q with sent := true, route := s.routeOf q } else m) ∧
      u.Sent (.partAcknowledgement n)
    let earlier := ∃ m ∈ s.inParts, sameSrc m.src q.src = true ∧ m.n < q.n ∧ (m.sent = false ∨ m.route ≠ s.routeOf q)
    (q.sent = true ∨ earlier → exec (.partSend n) s = .next s) ∧
    (q.sent = false → ¬earlier →
      (∀ c, q.kind = 2 → (s.part q.part).named q.addr = some c →
        let home := s.locate c
        let off := q.addr % 0x8000
        let put := fun (u : State) (l : Memory) (w : List Nat) =>
          (∀ j, { u.core j with replies := (s.core j).replies } = if j = home then { s.core home with ls := l, lsUe := w } else s.core j) ∧
            (s.watches = [] → ∀ j, (u.core j).replies = (s.core j).replies)
        ((s.core home).placing = true → exec (.partSend n) s = .next (s.post (.partSend n) (s.cyc + 1))) ∧
        ((s.core home).placing = false → (s.core home).field = none → off + k ≤ 0x6000 → ∃ u, exec (.partSend n) s = .next u ∧ sent u ∧
          { u with inflight := s.inflight, inParts := s.inParts } = s) ∧
        ((s.core home).field ≠ none → (s.core home).placing = false → (s.core home).ls.wf = true →
          (off + k ≤ 0x6000 → ∃ u l w, exec (.partSend n) s = .next u ∧ sent u ∧
            { u with cores := s.cores, inflight := s.inflight, inParts := s.inParts, watches := s.watches } = s ∧ put u l w ∧
            Put (s.core home).ls l off v (2 ^ k - 1) k) ∧
          (off < 0x6000 → 0x6000 < off + k → ∃ u l w, exec (.partSend n) s = .next u ∧ sent u ∧ u.seqNo = s.seqNo + 1 ∧ put u l w ∧
            Put (s.core home).ls l off v (2 ^ (0x6000 - off) - 1) (0x6000 - off)) ∧
          (0x6000 ≤ off → k ≠ 0 → ∃ u, exec (.partSend n) s = .next u ∧ sent u ∧ Reports s u))) ∧
      (q.kind = 2 → (s.part q.part).named q.addr = none → ∃ u, exec (.partSend n) s = .next u ∧ sent u ∧ Reports s u) ∧
      (q.kind ≠ 2 → s.collapsingAt q.part q.addr = true → exec (.partSend n) s = .next (s.post (.partSend n) (s.cyc + 1))) ∧
      (∀ pa key, q.kind ≠ 2 → s.collapsingAt q.part q.addr = false → s.inboundPlace q.part q.addr 2 = .ok [(pa, key)] →
        s.hbm.wf = true → ∃ u,
        exec (.partSend n) s = .next u ∧ sent u ∧ u.hostMem = s.hostMem ∧
        (∀ j, { u.core j with replies := (s.core j).replies } = s.core j) ∧
        (∀ j < k, u.hbmGet (s.keyPair key) (pa + j) = q.bytes.getD j 0) ∧
        (∀ a, a < pa ∨ pa + k ≤ a → u.hbmGet (s.keyPair key) a = s.hbmGet (s.keyPair key) a) ∧
        ∀ a, (∀ j < k, a / 32 ≠ (pa + j) / 32) → u.hbmByte a = s.hbmByte a) ∧
      (∀ e, q.kind ≠ 2 → s.collapsingAt q.part q.addr = false → s.inboundPlace q.part q.addr 2 = .error e → ∃ u, exec (.partSend n) s = .next u ∧ sent u ∧
        u.cores = s.cores ∧ u.hbm = s.hbm ∧ s.seqNo < u.seqNo)) ∧
    (∃ u, exec (.partAcknowledgement n) s = .next u ∧ { u with inParts := s.inParts, inflight := s.inflight } = s ∧
      (∀ m, m ∈ u.inParts ↔ m ∈ s.inParts ∧ m.n ≠ n) ∧
      (∀ m ∈ u.inParts, sameSrc m.src q.src = true → m.sent = false → u.Sent (.partSend m.n)) ∧
      ∀ r ∈ s.inReads, sameSrc r.src q.src = true → u.Sent (.inboundReadPerform r.id))

/-- R356 to R358, R362, R363, R372: a read takes its place behind the parts its source has sent; a read outside its apertures
is an Unsupported Request, recorded by Advanced Error Reporting, as is alone one of more than 4,096 bytes (log 77). It is
performed at home when they are acknowledged: its bytes, or poisoned data with a report for each uncorrectable word, or a
Completer Abort with a report. -/
def Claims.InboundReads : Prop :=
  ∀ (s : State) (port fn bar off len : Nat),
    let i := Instr.inboundRead port fn bar off len
    let p := fn - 1
    let joins := fun (i : Instr) (src p kind a : Nat) => ∃ u, exec i s = .next u ∧
      { u with inReads := s.inReads, nextId := s.nextId, inflight := s.inflight } = s ∧ u.nextId = s.nextId + 1 ∧
      u.inReads = s.inReads ++ [⟨s.nextId, src, p, kind, a, len, s.seqNo⟩] ∧ u.Sent (.inboundReadPerform s.nextId)
    (4096 < len → exec i s = .next { s with aer := s.aer ++ [(port, fn, 3)] }) ∧
    (len ≤ 4096 → ¬Outside s fn bar off len true →
      (bar = 0 → joins i (hostSrc port fn) p 0 off) ∧ (bar = 2 → joins i (hostSrc port fn) p 2 off) ∧
      (bar = 4 → joins i (hostSrc port fn) p 4 ((s.part p).apbase.toNat + off))) ∧
    (len ≤ 4096 → Outside s fn bar off len true →
      ∃ u, exec i s = .next u ∧ u.completions = s.completions ++ [⟨s.nextId, 3, []⟩] ∧ u.nextId = s.nextId + 1 ∧
        u.aer = s.aer ++ [(port, fn, 1)] ∧
        { u with completions := s.completions, nextId := s.nextId, inReads := s.inReads, aer := s.aer } = s) ∧
    (∀ pt pkg rp x e, tfind (s.part pt).exports x = some e →
      (off + len ≤ e.len → joins (.peerInbound pt pkg rp x off len []) (peerSrc pkg rp x) pt 3 (e.base + off)) ∧
      (e.len < off + len → ∃ u, exec (.peerInbound pt pkg rp x off len []) s = .next u ∧ Reports s u ∧
        u.completions = s.completions ++ [⟨s.nextId, 2, []⟩])) ∧
    (∀ n r, s.inReads.find? (fun m => m.id = n) = some r →
      let done := fun (u : State) (status : Nat) (l : List Byte) => exec (.inboundReadPerform n) s = .next u ∧
        u.completions = s.completions ++ [⟨n, status, l⟩] ∧ (∀ m, m ∈ u.inReads ↔ m ∈ s.inReads ∧ m.id ≠ n) ∧
        u.cores = s.cores ∧ u.hbm = s.hbm
      ((∃ q ∈ s.inParts, sameSrc q.src r.src = true ∧ q.n < r.before) → exec (.inboundReadPerform n) s = .next s) ∧
      ((∀ q ∈ s.inParts, sameSrc q.src r.src = true → r.before ≤ q.n) →
        (r.kind = 0 → r.len = 8 → r.addr % 8 = 0 → ∃ u, done u 0 (bytesLE (s.readBar0 (r.src % 16) r.addr).toNat 8)) ∧
        (∀ c, r.kind = 2 → (s.part r.part).named r.addr = some c →
          let home := s.core (s.locate c)
          let a := r.addr % 0x8000
          (a + r.len ≤ 0x6000 → home.placing = false →
            (home.field = none → ∃ u, done u 0 (bytesLE 0 r.len)) ∧
            (home.field ≠ none → home.lsBad a r.len = false → ∃ u, done u 0 (bytesLE (mread home.ls a r.len) r.len)) ∧
            (home.field ≠ none → home.lsBad a r.len = true → ∃ u l, done u 1 l ∧ l.length = r.len ∧
              u.seqNo = s.seqNo + (home.badWords a r.len).length)) ∧
          (0x6000 < a + r.len → ∃ u, done u 2 [] ∧ u.seqNo = s.seqNo + 1)) ∧
        (r.kind = 2 → (s.part r.part).named r.addr = none → ∃ u, done u 2 [] ∧ u.seqNo = s.seqNo + 1) ∧
        (r.kind ≠ 0 → r.kind ≠ 2 →
          (∀ l, s.readVirtual r.part r.addr r.len = .ok (l, []) → ∃ u, done u 0 l) ∧
          (∀ l w, s.readVirtual r.part r.addr r.len = .ok (l, w) → w ≠ [] → ∃ u d, done u 1 d ∧ d.length = r.len ∧
            u.seqNo = s.seqNo + w.length) ∧
          (∀ e, s.readVirtual r.part r.addr r.len = .error e → ∃ u, done u 2 []))))

/-- R356 to R363, R370, R372, R384: inbound writes and reads, and the reports they raise. -/
def Obligations.OrderingPoint : Prop := InboundWrites ∧ InboundParts ∧ InboundReads ∧ ReportsLeave

/-- R310, R371, R384, R413, R414, R416, R357, R383, R422: a failed haul port leaves its partition; a telemetry interval reports
each counter of each die; a retired channel is counted and reported, the last of an edge takes it down; an edge that goes down
in both directions thaws the benches that cross it, one whose bridge fails as a whole losing the entries on their way over it,
and a partition it cuts loses the contexts that span the cut; while no leader runs, the kills wait (the model's reading, log 59).
Retries and discarded packets only report; transit traffic leaves no trace; a port trains to a rate and width of the manual; a
link error is recorded by Advanced Error Reporting, as kind 0 (PRESUMED, log 77). -/
def Claims.LinkEvents : Prop :=
  ∀ (s : State) (i p e d a b n : Nat),
    (∀ o, s.portOwner i = some o → ∃ u, exec (.haulPortFailure i) s = .next u ∧ (u.part o).ports = (s.part o).ports - 2 ^ i ∧
      bits u.portsDown i i = 1 ∧ u.seqNo = s.seqNo + 1 ∧ u.cores = s.cores ∧ u.hbm = s.hbm) ∧
    ((s.part p).telint = 0 → exec (.telemetryInterval p) s = .next s) ∧
    ((s.part p).telint ≠ 0 → ∃ u, exec (.telemetryInterval p) s = .next u ∧ (u.part p).lastTel = s.cyc ∧
      u.seqNo = s.seqNo + 5 * ((upto 9).filter (fun d => bits (s.part p).dies d d = 1)).length ∧ u.cores = s.cores ∧ u.hbm = s.hbm) ∧
    (d < 2 →
      let x := s.edge (2 * e + d)
      (84 ≤ x.retired → exec (.channelRetirement e d) s = .next s) ∧
      (x.retired < 84 → ∃ u, exec (.channelRetirement e d) s = .next u ∧ (u.edge (2 * e + d)).retired = x.retired + 1 ∧
        u.seqNo = s.seqNo + 1 ∧ u.cores = s.cores ∧ u.hbm = s.hbm ∧
        (let held := s.holder (2 * e + d) (Config.freeChoice s.free % (84 - x.retired))
         (x.retired < 83 → u.edge (2 * e + d) = { x with
           retired := x.retired + 1, reserved := if held = none then x.reserved else x.reserved - 1 }) ∧
         ∀ b y, held = some b → tfind s.benches b = some y → ∃ z, tfind u.benches b = some z ∧ z.reason ≠ 0 ∧
           z.chans = y.chans.map (fun n => if n.1 = 2 * e + d then (n.1, n.2 - 1) else n)) ∧
        (x.retired = 83 → (u.edge (2 * e)).down = true ∧ (u.edge (2 * e + 1)).down = true ∧ u.Sent (.edgeDown e)))) ∧
    (let across := fun (c b : Nat) => edgeOf (dieOf c) (dieOf b) = some e
     ∃ u, exec (.edgeDown e) s = .next u ∧ (u.edge (2 * e)).down = true ∧ (u.edge (2 * e + 1)).down = true ∧
      (s.edgeDead e = true ∨ 84 ≤ (s.edge (2 * e)).retired ∨ 84 ≤ (s.edge (2 * e + 1)).retired → u.cores = s.cores) ∧
      (s.edgeDead e = false → (s.edge (2 * e)).retired < 84 → (s.edge (2 * e + 1)).retired < 84 → ∀ c,
        { u.core c with westIn := (s.core c).westIn, drainW := (s.core c).drainW, northIn := (s.core c).northIn,
                        drainN := (s.core c).drainN } = s.core c ∧
        (posX c ≠ 0 → across c (c - 1) → ∀ x ∈ (u.core c).westIn, x.at' ≤ s.cyc) ∧
        (1008 ≤ c → across c (c - 1008) → ∀ x ∈ (u.core c).northIn, x.at' ≤ s.cyc) ∧
        (¬(posX c ≠ 0 ∧ across c (c - 1)) → (u.core c).westIn = (s.core c).westIn ∧ (u.core c).drainW = (s.core c).drainW) ∧
        (¬(1008 ≤ c ∧ across c (c - 1008)) → (u.core c).northIn = (s.core c).northIn ∧ (u.core c).drainN = (s.core c).drainN)) ∧
      (s.leaderUp = false → u.fields = s.fields ∧ (s.cyc + 1, Action.ev (.edgeDown e)) ∈ u.inflight) ∧
      (∀ j x, tfind s.benches j = some x → (∃ c ∈ x.chans, c.1 = 2 * e ∨ c.1 = 2 * e + 1) → ∃ y, tfind u.benches j = some y ∧ y.reason ≠ 0) ∧
      (∀ o, s.leaderUp = true → s.edgeOwner e = some o →
        let side := u.reach (s.part o).dies 9 [(edgeDies e).1]
        side.contains (edgeDies e).2 = false → ∀ j f, tfind s.fields j = some f → f.part = o → f.stage = .running →
          (∃ c ∈ s.fieldCores f, side.contains (dieOf c) = true) → (∃ c ∈ s.fieldCores f, side.contains (dieOf c) = false) →
          ∃ g, tfind u.fields j = some g ∧ g.stage = .killing)) ∧
    (∃ u, exec (.linkRetry a b n) s = .next u ∧ Reports s u) ∧
    exec (.transitFlit a b) s = .next s ∧
    (∃ u, exec (.meshPacketDiscard a b n) s = .next u ∧ Reports s u) ∧
    (i < 2 → (a = 128 ∨ a = 64 ∨ a = 32 ∨ a = 16) → (b = 16 ∨ b = 8 ∨ b = 4) → ∃ u, exec (.pcieLinkTraining i a b) s = .next u ∧
      tget (0, 0) u.links i = (a, b) ∧ { u with links := s.links } = s) ∧
    (∀ r, s.script = .linkError i n :: r → step s = .next { s with script := r, aer := s.aer ++ [(i, n, 0)] })

/-! ## The debugger (R435 to R440) -/

/-- The event a core raises (R440). -/
def Claims.eventOf (s : State) (c slot kind iaddr : Nat) : List Byte :=
  bytesLE s.seqNo 8 ++ bytesLE (s.core c).lcn 4 ++ bytesLE slot 1 ++ bytesLE kind 1 ++ bytesLE (s.core c).ctx 2 ++ bytesLE iaddr 8 ++
    bytesLE 0 8

/-- R435 to R437: a command names a core of a live context of the partition, by its logical core number: no such context or
core is status 1, a migrating one 3, as is the thaw of a core in no bench, and nothing else happens; one that needs one halted
thread is 1 or 2. That for STEP, RDREG and WRREG a mask of none or several slots is 1, and an item there is not in RDCELL or
BARRD, is the model's choice (log 58). -/
def Claims.DebugRefusals : Prop :=
  ∀ (s : State) (p : Nat),
    let a := tget 0 (s.part p).regs 0x2008
    let all := [Instr.haltSlots p, .haltc p, .resumeSlots p, .stepSlot p, .rdreg p, .wrreg p, .rdcell p, .brkset p, .brkclr p,
      .debugThaw p, .barrd p, .rdspr p]
    let tells := fun (i : Instr) (code : Nat) => exec i s =
      .next (s.modPart p (fun x => { x with regs := tset x.regs 0x2020 (wordN code) }))
    (s.liveField p (wbits a 59 48) = none → ∀ i ∈ all, tells i 1) ∧
    (∀ j f, s.liveField p (wbits a 59 48) = some (j, f) →
      (f.fw * f.fh ≤ wbits a 19 0 → ∀ i ∈ all, tells i 1) ∧
      (wbits a 19 0 < f.fw * f.fh →
        let c := s.lcnPos f (wbits a 19 0)
        ((s.core c).migTo ≠ none → ∀ i ∈ all, tells i 3) ∧
        ((s.core c).migTo = none → ∀ i ∈ [Instr.stepSlot p, .rdreg p, .wrreg p],
          ((∀ t < 16, wbits a 35 20 ≠ 2 ^ t) → tells i 1) ∧
          (∀ t < 16, wbits a 35 20 = 2 ^ t → ((s.thr c t).st = .empty → tells i 1) ∧
            ((s.thr c t).st ≠ .empty → (s.thr c t).halted = false → tells i 2))))) ∧
    (∀ c, s.dcore p = .ok c → (39 < (tget 0 (s.part p).regs 0x2010).toNat → tells (.rdcell p) 1) ∧
      ((s.core c).cell = none → tells (.debugThaw p) 3) ∧ (3 < wbits a 43 36 → tells (.barrd p) 1))

/-- R436 to R439: HALT marks the slots of its mask, which halt at their next issue opportunity, or at once where they cannot
issue (the model's choice, log 33), with an event when all that are not empty have, whose address is 0 (the model's choice, log 57); HALTC also lets the copy queue and the ring pause at a sector boundary; RESUME returns them
to their states, and a halt still pending there is withdrawn (log 86); STEP lets a halted thread issue one word. The
read commands show registers, the write command changes one, and BRKSET and BRKCLR change a breakpoint. -/
def Claims.DebugCommands : Prop :=
  ∀ (s : State) (p c : Nat), s.dcore p = .ok c →
    let a := tget 0 (s.part p).regs 0x2008
    let v := tget 0 (s.part p).regs 0x2010
    let m := wbits a 35 20
    let item := wbits a 43 36
    let k := s.core c
    let done := fun (u : State) => tget 0 (u.part p).regs 0x2020 = 0
    let shows := fun (i : Instr) (v : Word) => ∃ u, exec i s = .next u ∧ done u ∧ tget 0 (u.part p).regs 0x2018 = v ∧
      { u with parts := s.parts } = s
    let halts := fun (u : State) (m : Nat) => done u ∧ SameMemory s u ∧ (∀ j, j ≠ c → u.core j = s.core j) ∧
      (∀ t, u.thr c t = if bits m t t = 1 ∧ (k.thr t).st ≠ .empty ∧ (k.thr t).halted = false then
        (if (k.thr t).st = .ready ∧ k.frozen = false then { k.thr t with haltReq := true } else { k.thr t with halted := true })
        else k.thr t) ∧
      (k.haltMask = [] →
        ((∀ e ∈ k.threads, bits m e.1 e.1 = 1 → e.2.st ≠ .empty → e.2.halted = true) → u.seqNo = s.seqNo + 1 ∧
          (u.part k.part).debugEv = (s.part k.part).debugEv ++ [eventOf s c 0xFF 3 0] ∧ (u.core c).haltMask = []) ∧
        (k.frozen = false → (∃ t, bits m t t = 1 ∧ (k.thr t).st = .ready ∧ (k.thr t).halted = false) → u.seqNo = s.seqNo ∧
          (u.core c).haltMask = [k.liveMask m]))
    (∃ u, exec (.haltSlots p) s = .next u ∧ halts u m ∧ (u.core c).haltc = k.haltc) ∧
    (k.copying = none → k.filling = none → ∃ u, exec (.haltc p) s = .next u ∧ halts u 0xFFFF ∧ (u.core c).haltc = true) ∧
    (let s' := (s.modCore c (fun k => { k with haltc := true })).toSector c
     ∃ u, exec (.haltc p) s = .next u ∧ done u ∧ (u.core c).haltc = true ∧ (u.core c).copyQ = (s'.core c).copyQ ∧
      (u.core c).ring = (s'.core c).ring) ∧
    (∃ u, exec (.resumeSlots p) s = .next u ∧ done u ∧ SameMemory s u ∧ (∀ j, j ≠ c → u.core j = s.core j) ∧
      (u.core c).haltc = false ∧ (∀ x, x ∈ (u.core c).haltMask ↔ x ∈ k.haltMask ∧ x &&& m = 0) ∧ ∀ t, u.thr c t = if bits m t t = 1 ∧ (k.thr t).st ≠ .empty then
        { k.thr t with halted := false, haltReq := false, stepReq := false, stepped := false } else k.thr t) ∧
    (∀ t, t < 16 → m = 2 ^ t → (k.thr t).st ≠ .empty → (k.thr t).halted = true →
      (∃ u, exec (.stepSlot p) s = .next u ∧ done u ∧ { u with cores := s.cores, parts := s.parts } = s ∧
        u.core c = k.modThr t (fun h => { h with halted := false, stepReq := true, stepped := false })) ∧
      (∀ r : Reg, item = r.toNat → shows (.rdreg p) ((k.thr t).reg r) ∧ ∃ u, exec (.wrreg p) s = .next u ∧ done u ∧
        { u with cores := s.cores, parts := s.parts } = s ∧ u.core c = k.modThr t (fun h => h.setReg r v)) ∧
      (item = 16 → shows (.rdreg p) ((k.thr t).pc.setWidth 64) ∧ ∃ u, exec (.wrreg p) s = .next u ∧ done u ∧
        { u with cores := s.cores, parts := s.parts } = s ∧
        (u.thr c t).pc.toNat = v.toNat % 2 ^ 48 / 4 * 4 ∧ { u.thr c t with pc := (k.thr t).pc, skipBp := (k.thr t).skipBp } = k.thr t) ∧
      (item = 17 → shows (.rdreg p) (wordN (5 + (k.thr t).code * 256))) ∧
      (∀ n w, v = wordN n → n < 2 ^ 14 → threadCopy n = true → sprRead k (k.thr t) t s.cyc n = some w → shows (.rdspr p) w)) ∧
    (∀ n w, v = wordN n → n < 2 ^ 14 → threadCopy n = false → sprRead k (k.thr 0) 0 s.cyc n = some w → shows (.rdspr p) w) ∧
    (∀ n : BitVec 6, v = n.setWidth 64 → n.toNat < 40 → shows (.rdcell p) (k.mfa n)) ∧
    (∃ u, exec (.brkset p) s = .next u ∧ done u ∧ { u with cores := s.cores, parts := s.parts } = s ∧
      (∀ j, j ≠ c → u.core j = s.core j) ∧
      u.core c = if a.getLsbD 44 then { k with bp1 := some (v.toNat, m) } else { k with bp0 := some (v.toNat, m) }) ∧
    (∃ u, exec (.brkclr p) s = .next u ∧ done u ∧ { u with cores := s.cores, parts := s.parts } = s ∧
      (∀ j, j ≠ c → u.core j = s.core j) ∧ u.core c = if a.getLsbD 44 then { k with bp1 := none } else { k with bp0 := none }) ∧
    (∀ x b, k.cell = some x → tfind s.benches x.bench = some b → b.reason = 0 → ∃ u, exec (.debugThaw p) s = .next u ∧ done u ∧
      tfind u.benches x.bench = some { b with reason := 6 } ∧ u.cores = s.cores ∧ u.Sent (.thawReturn x.bench)) ∧
    (∀ i f, item ≤ 3 → k.field = some i → tfind s.fields i = some f → s.episodes = [] →
      shows (.barrd p) (wordN (tget 0 f.episodes (k.lcn * 4 + item) * 2 ^ 32)))

/-- R439, R440, R370: a slot at a breakpoint becomes halted instead of issuing, and an event of kind 1 waits; a waiting event
is written at the debug ring's write index when the ring has room, and waits while it has none. -/
def Claims.DebugEvents : Prop :=
  ∀ (s : State) (p c t : Nat),
    let k := s.core c
    let g := (s.part p).dring
    (∃ u, exec (.breakpointHit c t) s = .next u ∧ u.thr c t = { k.thr t with
        halted := true, haltReq := false, skipBp := true, stepReq := false, stepped := false } ∧
      (u.part k.part).debugEv = (s.part k.part).debugEv ++ [eventOf s c t 1 (k.thr t).pc.toNat] ∧ u.seqNo = s.seqNo + 1 ∧
      (∀ j, j ≠ t → (u.core c).thr j = k.thr j) ∧ (∀ j, j ≠ c → u.core j = s.core j) ∧ u.Sent (.debugEventDelivery k.part)) ∧
    (∀ b r, (s.part p).debugEv = b :: r →
      (g.full = true → exec (.debugEventDelivery p) s = .next s) ∧
      (g.full = false → s.hostMem.wf = true →
        let a := g.base + b.length * (g.wix % 2 ^ g.size)
        ∃ u, exec (.debugEventDelivery p) s = .next u ∧ mreadBytes u.hostMem a b.length = b ∧
          (∀ x, x < a ∨ a + b.length ≤ x → u.hostByte x = s.hostByte x) ∧ (u.part p).dring = { g with wix := g.wix + 1 } ∧
          Raised s u (p + 1) 3 ∧ (u.part p).debugEv = r ∧ u.cores = s.cores)) ∧
    ((s.part p).debugEv = [] → exec (.debugEventDelivery p) s = .next s)

/-- R357, R371, R383, R384, R413 to R416, R435 to R440: links, and the debugger. -/
def Obligations.LinksAndDebugger : Prop := LinkEvents ∧ DebugRefusals ∧ DebugCommands ∧ DebugEvents

/-! ## The machine as a whole -/

/-- R13, R35, R79, R87, R88, R131: at the turn of a core whose slot may issue, the word at its address, past the words annulled,
is decoded and its instruction executed for that slot, the issue recorded; a word that is no instruction is the illegal word;
a slot with an uncorrectable register traps once its word has been fetched, before it is decoded, be it even an illegal word
(the model's reading, log 56). -/
def Claims.WheelIssues : Prop :=
  ∀ (s : State) (c : Nat) (d : Dest) (l : Line), s.script = [] → s.wheelCore = some c →
    let t := s.cyc % 16
    let k := s.core c
    let h0 := k.thr t
    let h := h0.skip h0.annul
    let w := l.word h.pc
    k.migStop = false → k.frozen = false → k.field ≠ none → k.placing = false →
    h0.st = .ready → h0.halted = false → h0.haltReq = false → h0.stepped = false →
    k.breaks t h.pc = false ∨ h0.skipBp = true → s.place c (codeWord h.pc) 4 1 = .far d → s.cachedLine c h.pc = some l →
    (k.regUe.contains (t + 16 * h0.inc) = true → ∃ u r, step s = .next u ∧ (u.thr c t).st = .parked ∧ (u.thr c t).pc = h.pc ∧
      (u.die (dieOf c)).recs = (s.die (dieOf c)).recs ++ [r] ∧ r.cause = .ue ∧ r.slot = t ∧ r.iword = w ∧ r.iaddr = h.iaddr.toNat) ∧
    (k.regUe.contains (t + 16 * h0.inc) = false → ∃ u, u.cur = (c, t) ∧ u.turn = c + 1 ∧ { u with cores := s.cores, cur := s.cur, turn := s.turn } = s ∧
      (∀ j, j ≠ c → u.core j = s.core j) ∧
      (let k' := k.modThr t (fun _ => { h with
        iw := w, lastIssue := some s.cyc, stamp := k.nextStamp, skipBp := false, stepped := h0.stepReq, stepReq := false,
        tape := k.tape.map (·.id) })
       u.core c = { k' with nextStamp := k.nextStamp + 1 }) ∧
      (∀ i, decodeWord w = .ok i → WellFormed i = true → step s = exec i u) ∧
      ((∀ i, decodeWord w = .ok i → WellFormed i = false) → step s = exec (.illegalWord w) u))

/-- When no core has its turn, the first action that may land is performed: a step of the machine, or again the instruction
its thread waits in (R142); with none, the tick ends. What comes from outside is performed when it is next (the order is the
model's, log 1). -/
def Claims.ActionsLand : Prop :=
  ∀ (s : State),
    (∀ i r, s.script = .input i :: r → outside i = true → step s = exec i { s with script := r }) ∧
    (s.script = [] → s.wheelCore = none →
      (∀ e n r, s.inflight = (n, .ev e) :: r → n ≤ s.cyc → step s = runEv e { s with inflight := r }) ∧
      (∀ c t i n r, s.inflight = (n, .resume c t) :: r → n ≤ s.cyc → (s.core c).frozen = false → (s.thr c t).halted = false →
        (s.core c).migStop = false → (s.thr c t).wait = .retry i → step s = exec i { s with inflight := r, cur := (c, t) }) ∧
      ((∀ x ∈ s.inflight, s.cyc < x.1) → ∃ u, step s = .next u ∧ u.cyc = s.cyc + 1 ∧ u.turn = 0 ∧ SameMemory s u))

/-- R13, R79, R87, R131, R142: a step runs the instruction decoded at the address of the slot whose turn it is, or the action
that lands next. -/
def Obligations.StepRunsDecoded : Prop := WheelIssues ∧ ActionsLand

/-- Every step of the package reaches a next state: no state faults and none is refused (the model's choice, log 65). -/
def Obligations.StepNeverStops : Prop := ∀ s : State, s.Runs

/-- Every step keeps every memory in canonical form: addresses strictly rising, no entry that reads as an unlisted one. -/
def Obligations.StepKeepsCanonical : Prop := ∀ s t : State, s.Canonical → step s = .next t → t.Canonical

/-- R359, R429, R433: right after power-on reset the sequence numbers begin at 1, SVNMIN is 0, every die has cap 0, ramp 1, all
rows gated and its clock off, no partition exists, and every memory is in canonical form. -/
def Obligations.ResetState : Prop :=
  State.reset.Canonical ∧ State.reset.seqNo = 1 ∧ State.reset.svnMin = 0 ∧ State.reset.parts = [] ∧ State.reset.fields = [] ∧
    State.reset.cores = [] ∧ ∀ d, (State.reset.die d).cap = 0 ∧ (State.reset.die d).ramp = 1 ∧ (State.reset.die d).gate = BitVec.allOnes 42 ∧
      (State.reset.die d).gated = BitVec.allOnes 42 ∧ (State.reset.die d).clk = false ∧ (State.reset.die d).held = 0

/-- R428, R429: no step lowers SVNMIN, and no instruction but SVNSET, or a host's write of its code to the command register of
function 0, changes it. -/
def Obligations.SvnMinOnlyRises : Prop :=
  (∀ s t : State, step s = .next t → s.svnMin.toNat ≤ t.svnMin.toNat) ∧
  ∀ (i : Instr) (s t : State), exec i s = .next t → t.svnMin ≠ s.svnMin → s.svnMin.toNat < t.svnMin.toNat ∧
    (i = .svnset ∨ (∃ v : BitVec 64, i = .registerWrite 0 0x3000 v ∧ wbits v 7 0 = 3) ∨
      ∃ p l, i = .inboundWrite p 0 0 0x3000 l ∧ l.length = 8 ∧ l.head? = some 3)

/-- R74 to R86: words written out bit by bit from their encodings are the instructions they stand for, and words of a
reserved major opcode or with a field that must be zero set are none. -/
def Obligations.DecodeWords : Prop :=
  decodeWord 0b000001_0001_1000_0011_00000000_000000#32 = .ok (.add 1 8 3) ∧
  decodeWord 0b000010_0010_0001_111111111111111111#32 = .ok (.addi 2 1 0x3FFFF) ∧
  decodeWord 0b001100_0001_0000_000000000000000101#32 = .ok (.li 1 5) ∧
  decodeWord 0b010101_0000_0000_0000_00000100_000000#32 = .ok .nop ∧
  decodeWord 0b010001_00000000000000000000000001#32 = .ok (.br 1) ∧
  decodeWord 0b100101_0000_0000_0000_00001000_000011#32 = .ok (.brk 3) ∧
  decodeWord 0b101011_0100_0101_0110_00000000_000000#32 = .ok (.vadd 4 5 6) ∧
  decodeWord 0b000000_0000_0000_0000_00000000_000000#32 = .error .reservedMajor ∧
  decodeWord 0b000001_0001_1000_0011_00000000_000001#32 = .error .fieldNotZero

/-- The encoder and the decoder agree: the word of every row of the opcode table that has one decodes to it, every operand at
every value, and every word the decoder accepts is the word of what it gives. -/
def Obligations.RoundTrip : Prop :=
  (∀ i : Instr, i.isWord = true → decodeWord (encode i) = .ok i) ∧
  ∀ (w : BitVec 32) (i : Instr), decodeWord w = .ok i → i.isWord = true ∧ encode i = w
end

