-- ==== Sys2Proof/Laws/Memory.lean ====
section
/-! SUPPORT. Laws of sparse tables and byte memories: a read after a write, every other place alone, and the canonical
form of Memory kept by every memory operation. -/

namespace Sys2Proof.Machine

/-! ## Tables -/

/-- A read at the key written gives the value written. -/
@[simp] theorem tget_tset_self {α : Type} (d : α) (t : Tab α) (n : Nat) (x : α) : tget d (tset t n x) n = x := by
  induction t with
  | nil => simp [tset, tget]
  | cons e t ih =>
    obtain ⟨k, v⟩ := e
    simp only [tset]
    split
    · simp [tget]
    · split
      · simp [tget]
      · rename_i h; simp [tget, h, ih]

/-- A write leaves every other key alone. -/
theorem tget_tset_ne {α : Type} (d : α) (t : Tab α) {n m : Nat} (x : α) (h : m ≠ n) : tget d (tset t n x) m = tget d t m := by
  induction t with
  | nil => simp [tset, tget, h]
  | cons e t ih =>
    obtain ⟨k, v⟩ := e
    simp only [tset]
    split
    · simp [tget, h]
    · split
      · rename_i h'; subst h'; simp [tget, h]
      · simp only [tget, ih]

/-- What a table reads after a write. -/
theorem tget_tset {α : Type} (d : α) (t : Tab α) (n m : Nat) (x : α) :
    tget d (tset t n x) m = if m = n then x else tget d t m := by
  split
  · rename_i h; subst h; simp
  · rename_i h; exact tget_tset_ne d t x h

/-- A key written is found with the value written. -/
@[simp] theorem tfind_tset_self {α : Type} (t : Tab α) (n : Nat) (x : α) : tfind (tset t n x) n = some x := by
  induction t with
  | nil => simp [tset, tfind]
  | cons e t ih =>
    obtain ⟨k, v⟩ := e
    simp only [tset]
    split
    · simp [tfind]
    · split
      · simp [tfind]
      · rename_i h; simp [tfind, h, ih]

/-- A write leaves what is found at every other key alone. -/
theorem tfind_tset_ne {α : Type} (t : Tab α) {n m : Nat} (x : α) (h : m ≠ n) : tfind (tset t n x) m = tfind t m := by
  induction t with
  | nil => simp [tset, tfind, h]
  | cons e t ih =>
    obtain ⟨k, v⟩ := e
    simp only [tset]
    split
    · simp [tfind, h]
    · split
      · rename_i h'; subst h'; simp [tfind, h]
      · simp only [tfind, ih]

/-- A key removed is not found. -/
@[simp] theorem tfind_tdel_self {α : Type} (t : Tab α) (n : Nat) : tfind (tdel t n) n = none := by
  induction t with
  | nil => rfl
  | cons e t ih =>
    obtain ⟨k, v⟩ := e
    simp only [tdel]
    split
    · exact ih
    · rename_i h; simp [tfind, h, ih]

/-! ## Bytes of a memory -/

/-- A byte read where it was written is the byte written. -/
theorem mget_mset_self : ∀ (m : Memory) (a : Nat) (b : Byte), m.wf = true → mget (mset m a b) a = b
  | [], a, b, _ => by
    simp only [mset]
    split
    · rename_i h; simp [mget, h]
    · simp [mget]
  | (k, v) :: t, a, b, h => by
    have hlow : ∀ (t : Memory) (k : Nat) (v : Byte), Memory.wf ((k, v) :: t) = true → a ≤ k → mget t a = blankByte := by
      intro t
      induction t with
      | nil => intros; rfl
      | cons e t ih =>
        obtain ⟨k', v'⟩ := e
        intro k v h hk
        simp only [Memory.wf, Bool.and_eq_true, decide_eq_true_eq] at h
        have : a ≠ k' := by omega
        simp only [mget, this, if_false]
        exact ih k' v' h.2 (by omega)
    simp only [mset]
    split
    · split
      · rename_i h1 h2
        have : a ≠ k := by omega
        simp only [mget, this, if_false]
        rw [hlow t k v h (by omega), h2]
      · simp [mget]
    · split
      · rename_i h1
        subst h1
        split
        · rename_i h2; rw [hlow t a v h (Nat.le_refl a), h2]
        · simp [mget]
      · rename_i h1
        simp only [mget, h1, if_false]
        refine mget_mset_self t a b ?_
        cases t with
        | nil => rfl
        | cons e t =>
          obtain ⟨k', v'⟩ := e
          simp only [Memory.wf, Bool.and_eq_true] at h
          exact h.2

/-- A byte written leaves every other byte alone. -/
theorem mget_mset_ne (m : Memory) {a c : Nat} (b : Byte) (h : c ≠ a) : mget (mset m a b) c = mget m c := by
  induction m with
  | nil =>
    simp only [mset]
    split <;> simp [mget, h]
  | cons e t ih =>
    obtain ⟨k, v⟩ := e
    simp only [mset]
    split
    · split <;> simp [mget, h]
    · split
      · rename_i h'
        subst h'
        split <;> simp [mget, h]
      · simp only [mget, ih]

/-! ## The canonical form -/

/-- The tail of a canonical memory is canonical. -/
theorem wf_tail {k : Nat} {v : Byte} {t : Memory} (h : Memory.wf ((k, v) :: t) = true) : Memory.wf t = true := by
  cases t with
  | nil => rfl
  | cons e t => obtain ⟨k', v'⟩ := e; simp only [Memory.wf, Bool.and_eq_true] at h; exact h.2

/-- Canonical after one cell in front: a listed byte, below the first address of the rest. -/
theorem wf_cons {k : Nat} {v : Byte} {t : Memory} (hv : v ≠ blankByte) (ht : Memory.wf t = true)
    (hk : ∀ e ∈ t.head?, k < e.1) : Memory.wf ((k, v) :: t) = true := by
  cases t with
  | nil => simpa [Memory.wf] using hv
  | cons e t =>
    obtain ⟨k', v'⟩ := e
    simp only [Memory.wf, Bool.and_eq_true, decide_eq_true_eq]
    refine ⟨⟨by simpa using hv, hk (k', v') (by simp)⟩, ht⟩

/-- The first cell of a canonical memory is a listed byte. -/
theorem wf_head {k : Nat} {v : Byte} {t : Memory} (h : Memory.wf ((k, v) :: t) = true) : v ≠ blankByte := by
  cases t with
  | nil => simpa [Memory.wf] using h
  | cons e t => obtain ⟨k', v'⟩ := e; simp only [Memory.wf, Bool.and_eq_true] at h; simpa using h.1.1

/-- The rest of a canonical memory lies above its first address. -/
theorem wf_rest {k : Nat} {v : Byte} {t : Memory} (h : Memory.wf ((k, v) :: t) = true) : ∀ e ∈ t.head?, k < e.1 := by
  cases t with
  | nil => simp
  | cons e t => obtain ⟨k', v'⟩ := e; simp only [Memory.wf, Bool.and_eq_true, decide_eq_true_eq] at h; simpa using h.1.2

/-- Writing one byte keeps the canonical form, and the first address does not fall below both. -/
theorem mset_wf_head : ∀ (m : Memory) (a : Nat) (b : Byte), m.wf = true →
    (mset m a b).wf = true ∧ ∀ n, n < a → (∀ e ∈ m.head?, n < e.1) → ∀ e ∈ (mset m a b).head?, n < e.1
  | [], a, b, _ => by
    simp only [mset]
    split
    · simp [Memory.wf]
    · rename_i h
      exact ⟨wf_cons h rfl (by simp), by simp⟩
  | (k, v) :: t, a, b, h => by
    have hi := mset_wf_head t a b (wf_tail h)
    simp only [mset]
    split
    · rename_i h1
      split
      · exact ⟨h, fun n _ hn => hn⟩
      · rename_i h2
        exact ⟨wf_cons h2 h (by simpa using h1), fun n hn _ e he => by simp at he; subst he; exact hn⟩
    · rename_i h1
      split
      · rename_i h2
        subst h2
        split
        · refine ⟨wf_tail h, fun n hn _ e he => ?_⟩
          exact Nat.lt_trans hn (wf_rest h e he)
        · rename_i h3
          exact ⟨wf_cons h3 (wf_tail h) (wf_rest h), fun n hn _ e he => by simp at he; subst he; exact hn⟩
      · rename_i h2
        exact ⟨wf_cons (wf_head h) hi.1 (hi.2 k (by omega) (wf_rest h)), fun n _ hn e he => hn e (by simpa using he)⟩

/-- Writing one byte keeps the canonical form. -/
theorem mset_wf {m : Memory} (a : Nat) (b : Byte) (h : m.wf = true) : (mset m a b).wf = true := (mset_wf_head m a b h).1

/-- Writing a number keeps the canonical form. -/
theorem mwrite_wf : ∀ (n : Nat) {m : Memory} (a v : Nat), m.wf = true → (mwrite m a v n).wf = true
  | 0, _, _, _, h => h
  | n + 1, _, a, v, h => mwrite_wf n (a + 1) (v / 256) (mset_wf a _ h)

/-- Writing a list of bytes keeps the canonical form. -/
theorem mwriteBytes_wf : ∀ (l : List Byte) {m : Memory} (a : Nat), m.wf = true → (mwriteBytes m a l).wf = true
  | [], _, _, h => h
  | b :: l, _, a, h => mwriteBytes_wf l (a + 1) (mset_wf a b h)

/-- Writing the bytes a mask selects keeps the canonical form. -/
theorem mwriteMask_wf : ∀ (n : Nat) {m : Memory} (a v mask : Nat), m.wf = true → (mwriteMask m a v mask n).wf = true
  | 0, _, _, _, _, h => h
  | n + 1, _, a, v, mask, h => by
    simp only [mwriteMask]
    refine mwriteMask_wf n (a + 1) (v / 256) (mask / 2) ?_
    split
    · exact mset_wf a _ h
    · exact h

/-- A masked write leaves every byte outside its range alone. -/
theorem mget_mwriteMask_out : ∀ (n : Nat) (m : Memory) (a v mask c : Nat), (c < a ∨ a + n ≤ c) →
    mget (mwriteMask m a v mask n) c = mget m c
  | 0, _, _, _, _, _, _ => rfl
  | n + 1, m, a, v, mask, c, h => by
    simp only [mwriteMask]
    rw [mget_mwriteMask_out n _ (a + 1) (v / 256) (mask / 2) c (by omega)]
    split
    · exact mget_mset_ne m _ (by omega)
    · rfl

end Sys2Proof.Machine
end

