-- ==== Sys2Proof/Laws/State.lean ====
section
/-! SUPPORT. One lemma per update and per field it reaches: cores, threads, dies, partitions and messages; registers;
what retiring leaves. Every later proof rewrites with these and unfolds no record update. -/

namespace Sys2Proof.Machine

/-! ## Cores -/

@[simp] theorem core_setCore_self (s : State) (c : Nat) (k : Core) : (s.setCore c k).core c = k := by
  simp [State.core, State.setCore]
theorem core_setCore_ne (s : State) {c d : Nat} (k : Core) (h : d ≠ c) : (s.setCore c k).core d = s.core d :=
  tget_tset_ne _ _ _ h
theorem core_setCore (s : State) (c d : Nat) (k : Core) : (s.setCore c k).core d = if d = c then k else s.core d :=
  tget_tset ..
@[simp] theorem core_modCore_self (s : State) (c : Nat) (f : Core → Core) : (s.modCore c f).core c = f (s.core c) :=
  core_setCore_self ..
theorem core_modCore_ne (s : State) {c d : Nat} (f : Core → Core) (h : d ≠ c) : (s.modCore c f).core d = s.core d :=
  core_setCore_ne s _ h
theorem core_modCore (s : State) (c d : Nat) (f : Core → Core) :
    (s.modCore c f).core d = if d = c then f (s.core c) else s.core d := core_setCore ..
@[simp] theorem setCore_cur (s : State) (c : Nat) (k : Core) : (s.setCore c k).cur = s.cur := rfl
@[simp] theorem setCore_cyc (s : State) (c : Nat) (k : Core) : (s.setCore c k).cyc = s.cyc := rfl
@[simp] theorem setCore_hbm (s : State) (c : Nat) (k : Core) : (s.setCore c k).hbm = s.hbm := rfl
@[simp] theorem setCore_hostMem (s : State) (c : Nat) (k : Core) : (s.setCore c k).hostMem = s.hostMem := rfl
@[simp] theorem setCore_inflight (s : State) (c : Nat) (k : Core) : (s.setCore c k).inflight = s.inflight := rfl
@[simp] theorem setCore_fields (s : State) (c : Nat) (k : Core) : (s.setCore c k).fields = s.fields := rfl
@[simp] theorem setCore_parts (s : State) (c : Nat) (k : Core) : (s.setCore c k).parts = s.parts := rfl
@[simp] theorem setCore_dieTab (s : State) (c : Nat) (k : Core) : (s.setCore c k).dieTab = s.dieTab := rfl
@[simp] theorem setCore_watches (s : State) (c : Nat) (k : Core) : (s.setCore c k).watches = s.watches := rfl
@[simp] theorem setCore_xlate (s : State) (c : Nat) (k : Core) : (s.setCore c k).xlate = s.xlate := rfl
@[simp] theorem setCore_seqNo (s : State) (c : Nat) (k : Core) : (s.setCore c k).seqNo = s.seqNo := rfl
@[simp] theorem setCore_keys (s : State) (c : Nat) (k : Core) : (s.setCore c k).keys = s.keys := rfl
@[simp] theorem setCore_benches (s : State) (c : Nat) (k : Core) : (s.setCore c k).benches = s.benches := rfl
@[simp] theorem setCore_claims (s : State) (c : Nat) (k : Core) : (s.setCore c k).claims = s.claims := rfl
@[simp] theorem setCore_serial (s : State) (c : Nat) (k : Core) : (s.setCore c k).serial = s.serial := rfl
@[simp] theorem setCore_gwins (s : State) (c : Nat) (k : Core) : (s.setCore c k).gwins = s.gwins := rfl
@[simp] theorem setCore_msixMask (s : State) (c : Nat) (k : Core) : (s.setCore c k).msixMask = s.msixMask := rfl
@[simp] theorem setCore_msixPend (s : State) (c : Nat) (k : Core) : (s.setCore c k).msixPend = s.msixPend := rfl
@[simp] theorem setCore_aer (s : State) (c : Nat) (k : Core) : (s.setCore c k).aer = s.aer := rfl
@[simp] theorem setCore_reports (s : State) (c : Nat) (k : Core) : (s.setCore c k).reports = s.reports := rfl
@[simp] theorem setCore_renewals (s : State) (c : Nat) (k : Core) : (s.setCore c k).renewals = s.renewals := rfl
@[simp] theorem setCore_xpast (s : State) (c : Nat) (k : Core) : (s.setCore c k).xpast = s.xpast := rfl
@[simp] theorem setCore_stackUse (s : State) (c : Nat) (k : Core) : (s.setCore c k).stackUse = s.stackUse := rfl
@[simp] theorem setCore_owners (s : State) (c : Nat) (k : Core) : (s.setCore c k).owners = s.owners := rfl
@[simp] theorem setCore_moduli (s : State) (c : Nat) (k : Core) : (s.setCore c k).moduli = s.moduli := rfl
@[simp] theorem setCore_epochs (s : State) (c : Nat) (k : Core) : (s.setCore c k).epochs = s.epochs := rfl
@[simp] theorem modCore_cur (s : State) (c : Nat) (f : Core → Core) : (s.modCore c f).cur = s.cur := rfl
@[simp] theorem modCore_cyc (s : State) (c : Nat) (f : Core → Core) : (s.modCore c f).cyc = s.cyc := rfl
@[simp] theorem modCore_hbm (s : State) (c : Nat) (f : Core → Core) : (s.modCore c f).hbm = s.hbm := rfl
@[simp] theorem modCore_hostMem (s : State) (c : Nat) (f : Core → Core) : (s.modCore c f).hostMem = s.hostMem := rfl
@[simp] theorem modCore_inflight (s : State) (c : Nat) (f : Core → Core) : (s.modCore c f).inflight = s.inflight := rfl
@[simp] theorem modCore_fields (s : State) (c : Nat) (f : Core → Core) : (s.modCore c f).fields = s.fields := rfl
@[simp] theorem modCore_parts (s : State) (c : Nat) (f : Core → Core) : (s.modCore c f).parts = s.parts := rfl
@[simp] theorem modCore_dieTab (s : State) (c : Nat) (f : Core → Core) : (s.modCore c f).dieTab = s.dieTab := rfl
@[simp] theorem modCore_watches (s : State) (c : Nat) (f : Core → Core) : (s.modCore c f).watches = s.watches := rfl
@[simp] theorem modCore_xlate (s : State) (c : Nat) (f : Core → Core) : (s.modCore c f).xlate = s.xlate := rfl
@[simp] theorem modCore_seqNo (s : State) (c : Nat) (f : Core → Core) : (s.modCore c f).seqNo = s.seqNo := rfl
@[simp] theorem modCore_keys (s : State) (c : Nat) (f : Core → Core) : (s.modCore c f).keys = s.keys := rfl
@[simp] theorem modCore_benches (s : State) (c : Nat) (f : Core → Core) : (s.modCore c f).benches = s.benches := rfl
@[simp] theorem modCore_claims (s : State) (c : Nat) (f : Core → Core) : (s.modCore c f).claims = s.claims := rfl
@[simp] theorem modCore_serial (s : State) (c : Nat) (f : Core → Core) : (s.modCore c f).serial = s.serial := rfl
@[simp] theorem modCore_gwins (s : State) (c : Nat) (f : Core → Core) : (s.modCore c f).gwins = s.gwins := rfl
@[simp] theorem modCore_msixMask (s : State) (c : Nat) (f : Core → Core) : (s.modCore c f).msixMask = s.msixMask := rfl
@[simp] theorem modCore_msixPend (s : State) (c : Nat) (f : Core → Core) : (s.modCore c f).msixPend = s.msixPend := rfl
@[simp] theorem modCore_aer (s : State) (c : Nat) (f : Core → Core) : (s.modCore c f).aer = s.aer := rfl
@[simp] theorem modCore_reports (s : State) (c : Nat) (f : Core → Core) : (s.modCore c f).reports = s.reports := rfl
@[simp] theorem modCore_renewals (s : State) (c : Nat) (f : Core → Core) : (s.modCore c f).renewals = s.renewals := rfl
@[simp] theorem modCore_xpast (s : State) (c : Nat) (f : Core → Core) : (s.modCore c f).xpast = s.xpast := rfl
@[simp] theorem modCore_stackUse (s : State) (c : Nat) (f : Core → Core) : (s.modCore c f).stackUse = s.stackUse := rfl
@[simp] theorem modCore_owners (s : State) (c : Nat) (f : Core → Core) : (s.modCore c f).owners = s.owners := rfl
@[simp] theorem modCore_moduli (s : State) (c : Nat) (f : Core → Core) : (s.modCore c f).moduli = s.moduli := rfl
@[simp] theorem modCore_epochs (s : State) (c : Nat) (f : Core → Core) : (s.modCore c f).epochs = s.epochs := rfl

/-! ## Threads of a core -/

@[simp] theorem thr_setThr_self (k : Core) (t : Nat) (h : Thread) : (k.setThr t h).thr t = h := by
  simp [Core.thr, Core.setThr]
theorem thr_setThr_ne (k : Core) {t u : Nat} (h : Thread) (n : u ≠ t) : (k.setThr t h).thr u = k.thr u :=
  tget_tset_ne _ _ _ n
theorem thr_setThr (k : Core) (t u : Nat) (h : Thread) : (k.setThr t h).thr u = if u = t then h else k.thr u := tget_tset ..
@[simp] theorem thr_modThr_self (k : Core) (t : Nat) (f : Thread → Thread) : (k.modThr t f).thr t = f (k.thr t) :=
  thr_setThr_self ..
theorem thr_modThr_ne (k : Core) {t u : Nat} (f : Thread → Thread) (n : u ≠ t) : (k.modThr t f).thr u = k.thr u :=
  thr_setThr_ne k _ n
@[simp] theorem modThr_ls (k : Core) (t : Nat) (f : Thread → Thread) : (k.modThr t f).ls = k.ls := rfl
@[simp] theorem modThr_pbuf (k : Core) (t : Nat) (f : Thread → Thread) : (k.modThr t f).pbuf = k.pbuf := rfl
@[simp] theorem modThr_field (k : Core) (t : Nat) (f : Thread → Thread) : (k.modThr t f).field = k.field := rfl

/-! ## Slots of the machine -/

@[simp] theorem state_thr_modThr_self (s : State) (c t : Nat) (f : Thread → Thread) :
    (s.modThr c t f).thr c t = f (s.thr c t) := by simp [State.thr, State.modThr]
theorem state_thr_modThr_ne (s : State) {c t d u : Nat} (f : Thread → Thread) (h : (d, u) ≠ (c, t)) :
    (s.modThr c t f).thr d u = s.thr d u := by
  simp only [State.thr, State.modThr, core_modCore]
  split
  · rename_i e
    subst e
    exact thr_modThr_ne _ _ (fun e => h (by rw [e]))
  · rfl
@[simp] theorem modThr_cur (s : State) (c t : Nat) (f : Thread → Thread) : (s.modThr c t f).cur = s.cur := rfl
@[simp] theorem modThr_cyc (s : State) (c t : Nat) (f : Thread → Thread) : (s.modThr c t f).cyc = s.cyc := rfl
@[simp] theorem modThr_inflight (s : State) (c t : Nat) (f : Thread → Thread) : (s.modThr c t f).inflight = s.inflight := rfl
@[simp] theorem modTh_cur (s : State) (f : Thread → Thread) : (s.modTh f).cur = s.cur := rfl
@[simp] theorem modMe_cur (s : State) (f : Core → Core) : (s.modMe f).cur = s.cur := rfl
@[simp] theorem th_modTh (s : State) (f : Thread → Thread) : (s.modTh f).th = f s.th := by
  simp [State.th, State.modTh]
@[simp] theorem me_modMe (s : State) (f : Core → Core) : (s.modMe f).me = f s.me := by simp [State.me, State.modMe]
theorem me_modTh (s : State) (f : Thread → Thread) : (s.modTh f).me = s.me.modThr s.cur.2 f := by
  simp [State.me, State.modTh, State.modThr]
theorem th_eq (s : State) : s.th = s.me.thr s.cur.2 := rfl

/-- Two changes of the issuing thread are one. -/
theorem modTh_modTh (s : State) (f g : Thread → Thread) : (s.modTh f).modTh g = s.modTh (fun h => g (f h)) := by
  have set_set : ∀ {α : Type} (t : Tab α) (n : Nat) (x y : α), tset (tset t n x) n y = tset t n y := by
    intro α t n x y
    induction t with
    | nil => simp [tset]
    | cons e t ih =>
      obtain ⟨k, v⟩ := e
      simp only [tset]
      split
      · simp [tset]
      · rename_i h1
        split
        · simp [tset]
        · rename_i h2; simp [tset, h1, h2, ih]
  simp [State.modTh, State.modThr, State.modCore, State.setCore, Core.modThr, Core.setThr, State.core, Core.thr, set_set]

/-! ## General registers (R23) -/

/-- g0 reads zero. -/
@[simp] theorem reg_zero (h : Thread) : h.reg 0 = 0 := rfl

/-- A vector read after a write. -/
theorem vector_get_set {α : Type} {n : Nat} (v : Vector α n) (i j : Fin n) (x : α) :
    (v.set i.val x i.isLt).get j = if j = i then x else v.get j := by
  show (v.set i.val x i.isLt)[j.val] = if j = i then x else v[j.val]
  rw [Vector.getElem_set]
  by_cases h : j = i
  · simp [h]
  · rw [if_neg h, if_neg (fun e => h (Fin.ext e.symm))]

/-- Within its bank a register is known by its index. -/
theorem idx8_inj {a b : Reg} (h : a.toNat < 8 ↔ b.toNat < 8) : idx8 a = idx8 b ↔ a = b := by
  simp only [idx8, Fin.mk.injEq, ← BitVec.toNat_inj]
  have := a.isLt
  have := b.isLt
  omega

/-- A register read after a write: the value written, unless it is g0. -/
theorem reg_setReg (h : Thread) (d r : Reg) (v : Word) : (h.setReg d v).reg r = if r = d ∧ r ≠ 0 then v else h.reg r := by
  unfold Thread.setReg
  by_cases hd : d = 0
  · rw [if_pos hd, if_neg (by rintro ⟨e, n⟩; exact n (e.trans hd))]
  · rw [if_neg hd]
    by_cases hr : r = 0
    · subst hr
      have hn : ¬((0 : Reg) = d ∧ (0 : Reg) ≠ 0) := fun e => e.2 rfl
      rw [if_neg hn]
      split <;> rfl
    · simp only [hr, ne_eq, not_false_eq_true, and_true]
      unfold Thread.reg
      rw [if_neg hr, if_neg hr]
      by_cases h1 : d.toNat < 8 <;> by_cases h2 : r.toNat < 8
      · rw [if_pos h1, if_pos h2, if_pos h2]
        simp only [vector_get_set, idx8_inj (iff_of_true h2 h1)]
      · rw [if_pos h1, if_neg h2, if_neg h2, if_neg (fun e : r = d => h2 (e ▸ h1))]
      · rw [if_neg h1, if_pos h2, if_pos h2, if_neg (fun e : r = d => h1 (e ▸ h2))]
      · rw [if_neg h1, if_neg h2, if_neg h2]
        simp only [vector_get_set, idx8_inj (iff_of_false h2 h1)]

end Sys2Proof.Machine
end

