-- ==== Sys2Proof/Laws/Messages.lean ====
section
/-! SUPPORT. Operations that only put messages in flight, and what that leaves alone. -/

namespace Sys2Proof.Machine

/-- t is s with messages added in flight. -/
def Sends (s t : State) : Prop := ∃ l, t = { s with inflight := s.inflight ++ l }

theorem Sends.refl (s : State) : Sends s s := ⟨[], by simp⟩

theorem Sends.trans {s t u : State} (h : Sends s t) (k : Sends t u) : Sends s u := by
  obtain ⟨l, rfl⟩ := h; obtain ⟨m, rfl⟩ := k
  exact ⟨l ++ m, by simp⟩

theorem Sends.foldl {α : Type} {f : State → α → State} (h : ∀ s a, Sends s (f s a)) :
    ∀ (l : List α) (s : State), Sends s (l.foldl f s)
  | [], s => .refl s
  | a :: l, s => (h s a).trans (Sends.foldl h l _)

theorem Sends.keeps {s t : State} (h : Sends s t) : { t with inflight := s.inflight } = s := by obtain ⟨l, rfl⟩ := h; rfl

theorem Sends.core {s t : State} (h : Sends s t) (c : Nat) : t.core c = s.core c := by obtain ⟨l, rfl⟩ := h; rfl

theorem Sends.mem {s t : State} (h : Sends s t) {x : Nat × Action} (m : x ∈ s.inflight) : x ∈ t.inflight := by
  obtain ⟨l, rfl⟩ := h; exact List.mem_append_left _ m

theorem push_sends (s : State) (a : Action) (n : Nat) : Sends s (s.push a n) := ⟨_, rfl⟩
theorem post_sends (s : State) (e : Ev) (n : Nat) : Sends s (s.post e n) := ⟨_, rfl⟩

@[simp] theorem core_post (s : State) (e : Ev) (n c : Nat) : (s.post e n).core c = s.core c := rfl

theorem post1_sends (s : State) (e : Ev) : Sends s (s.post1 e) := by
  unfold State.post1; split
  · exact .refl s
  · exact post_sends ..

theorem wake_sends (s : State) (c : Nat) : Sends s (s.wake c) := Sends.foldl (fun s _ => push_sends s ..) _ _

theorem postDrain_sends (s : State) (c : Nat) (e : Option Nat) : Sends s (s.postDrain c e) := by
  cases e
  · exact .refl s
  · exact post_sends ..

theorem kickSeq_sends (s : State) (c : Nat) : Sends s (s.kickSeq c) := by
  unfold State.kickSeq; split
  · exact .refl s
  · exact post1_sends ..

theorem checkEnd_sends (s : State) (c : Nat) : Sends s (s.checkEnd c) := by
  unfold State.checkEnd; split
  · exact post1_sends ..
  · exact .refl s

theorem checkBarriers_sends (s : State) (c : Nat) : Sends s (s.checkBarriers c) :=
  Sends.foldl (fun s _ => by split <;> first | exact post1_sends .. | exact .refl s) _ _

theorem checkCkptField_sends (s : State) (i : Nat) : Sends s (s.checkCkptField i) := by
  unfold State.checkCkptField; split
  · exact .refl s
  · dsimp only; split
    · exact post1_sends ..
    · exact .refl s

theorem checkCkpt_sends (s : State) (c : Nat) : Sends s (s.checkCkpt c) := by
  unfold State.checkCkpt; split
  · exact .refl s
  · exact checkCkptField_sends ..

theorem slotFreed_sends (s : State) (c : Nat) : Sends s (s.slotFreed c) := by
  unfold State.slotFreed
  refine Sends.trans ?_ ((wake_sends _ c).trans ((checkBarriers_sends _ c).trans (checkCkpt_sends _ c)))
  split
  · exact post1_sends ..
  · exact .refl s

theorem checkCell_sends (s : State) (c : Nat) : Sends s (s.checkCell c) := by
  unfold State.checkCell; split
  · exact .refl s
  · split
    · exact post_sends ..
    · exact .refl s

theorem runQueue_sends (s : State) (c q : Nat) : Sends s (s.runQueue c q) := by
  unfold State.runQueue; dsimp only
  repeat' split
  all_goals first | exact .refl s | exact post_sends ..

theorem runQueues_sends (s : State) (c : Nat) : Sends s (s.runQueues c) := (runQueue_sends s c 0).trans (runQueue_sends _ c 1)

/-! ## Replies to what waits for a counter (R168) -/

theorem Tells.refl (s : State) : Tells s s := ⟨rfl, fun _ => rfl⟩

theorem Tells.trans {s t u : State} (h : Tells s t) (k : Tells t u) : Tells s u where
  rest := by
    have := congrArg (fun x : State => { x with cores := s.cores, inflight := s.inflight, watches := s.watches }) k.rest
    exact this.trans h.rest
  core := fun c => by
    have := congrArg (fun x : Core => { x with replies := (s.core c).replies }) (k.core c)
    exact this.trans (h.core c)

theorem Sends.tells {s t : State} (h : Sends s t) : Tells s t := by obtain ⟨l, rfl⟩ := h; exact ⟨rfl, fun _ => rfl⟩

theorem Tells.foldl {α : Type} {f : State → α → State} (h : ∀ s a, Tells s (f s a)) :
    ∀ (l : List α) (s : State), Tells s (l.foldl f s)
  | [], s => .refl s
  | a :: l, s => (h s a).trans (Tells.foldl h l _)

theorem reply_tells (s : State) (c t inc : Nat) (b : RBody) : Tells s (s.reply c t inc b) where
  rest := rfl
  core := fun d => by
    simp only [State.reply, core_post, core_modCore]
    split
    · rename_i h; subst h; rfl
    · rfl

theorem unwatch_tells (s : State) (c t : Nat) : Tells s (s.unwatch c t) := ⟨rfl, fun _ => rfl⟩

theorem examine_tells (s : State) (w : Watch) : Tells s (s.examine w) := by
  unfold State.examine
  split
  · dsimp only
    split
    · exact (unwatch_tells ..).trans (reply_tells ..)
    · split
      · exact (unwatch_tells ..).trans (reply_tells ..)
      · exact .refl s
  · exact .refl s

/-- A write that a counter's home has performed changes nothing more than what waits there. -/
theorem notify_tells (s : State) (d : Dest) (n : Nat) : Tells s (s.notify d n) := Tells.foldl examine_tells _ _

theorem reply_keeps_replies (s : State) (c t inc : Nat) (b : RBody) {d : Nat} {r : Reply} (m : r ∈ (s.core d).replies) :
    r ∈ ((s.reply c t inc b).core d).replies := by
  simp only [State.reply, core_post, core_modCore]
  split
  · rename_i h; subst h; exact List.mem_append_left _ m
  · exact m

theorem examine_keeps_replies (s : State) (w : Watch) {d : Nat} {r : Reply} (m : r ∈ (s.core d).replies) :
    r ∈ ((s.examine w).core d).replies := by
  unfold State.examine
  split
  · dsimp only
    split
    · exact reply_keeps_replies _ _ _ _ _ m
    · split
      · exact reply_keeps_replies _ _ _ _ _ m
      · exact m
  · exact m

/-- What a write to a counter's home adds: replies to threads whose counters have reached their targets, and no more (R168). -/
theorem notify_told (s : State) (d : Dest) (n : Nat) : Told s (s.notify d n) where
  toTells := notify_tells s d n
  replies := fun c r m => by
    unfold State.notify
    generalize s.watches.filter _ = l
    induction l generalizing s with
    | nil => exact m
    | cons w l ih => exact ih _ (examine_keeps_replies s w m)
  quiet := fun h => by simp [State.notify, h]

/-- A thread waiting for a resource is sent to perform its instruction again. -/
theorem wake_mem (s : State) {c t : Nat} (h : t ∈ (s.core c).retriers) : (0, Action.resume c t) ∈ (s.wake c).inflight := by
  have aux : ∀ (l : List Nat) (s : State), t ∈ l → (0, Action.resume c t) ∈ (l.foldl (fun a t => a.push (.resume c t)) s).inflight := by
    intro l
    induction l with
    | nil => intro s h; cases h
    | cons u l ih =>
      intro s h
      rcases List.mem_cons.mp h with rfl | h
      · refine (Sends.foldl (fun s _ => push_sends s _ _) l _).mem ?_
        simp [State.push]
      · exact ih _ h
  exact aux _ s h

/-! ## Reports (16 R384) -/

/-- Raising a report uses a number and changes the waiting reports alone. -/
theorem report_keeps (s : State) (p : Option Nat) (cls flags loc syn ctx : Nat) :
    { s.report p cls flags loc syn ctx with seqNo := s.seqNo, reports := s.reports } = s := rfl

@[simp] theorem report_seqNo (s : State) (p : Option Nat) (cls flags loc syn ctx : Nat) :
    (s.report p cls flags loc syn ctx).seqNo = s.seqNo + 1 := rfl
@[simp] theorem report_cores (s : State) (p : Option Nat) (cls flags loc syn ctx : Nat) :
    (s.report p cls flags loc syn ctx).cores = s.cores := rfl
@[simp] theorem report_parts (s : State) (p : Option Nat) (cls flags loc syn ctx : Nat) :
    (s.report p cls flags loc syn ctx).parts = s.parts := rfl
@[simp] theorem report_hbm (s : State) (p : Option Nat) (cls flags loc syn ctx : Nat) :
    (s.report p cls flags loc syn ctx).hbm = s.hbm := rfl
@[simp] theorem report_hostMem (s : State) (p : Option Nat) (cls flags loc syn ctx : Nat) :
    (s.report p cls flags loc syn ctx).hostMem = s.hostMem := rfl
@[simp] theorem report_inflight (s : State) (p : Option Nat) (cls flags loc syn ctx : Nat) :
    (s.report p cls flags loc syn ctx).inflight = s.inflight := rfl

end Sys2Proof.Machine
end

