-- ==== Sys2Proof/Laws/PerInstr.lean ====
section
/-! SUPPORT. What holds of every instruction as syntax, one lemma per constructor: the number its encoding gives fits 32
bits. -/

namespace Sys2Proof.Laws.Fits

set_option Elab.async false

/-- The encoding of an instruction is a 32-bit number. -/
def Statement (i : Instr) : Prop := encodeNat i < 2 ^ 32

/-- A row without a word encodes to 0. -/
theorem of_zero {i : Instr} (h : encodeNat i = 0) : Statement i := by
  unfold Statement; omega

/-- A row whose word is one number. -/
theorem of_eq {i : Instr} (n : Nat) (h : encodeNat i = n) (k : n < 2 ^ 32) : Statement i := by
  unfold Statement; omega

theorem add (d : BitVec 4) (a : BitVec 4) (b : BitVec 4) : Statement (.add d a b) := by
  simp only [Statement, encodeNat]; omega
theorem addw (d : BitVec 4) (a : BitVec 4) (b : BitVec 4) : Statement (.addw d a b) := by
  simp only [Statement, encodeNat]; omega
theorem sub (d : BitVec 4) (a : BitVec 4) (b : BitVec 4) : Statement (.sub d a b) := by
  simp only [Statement, encodeNat]; omega
theorem subw (d : BitVec 4) (a : BitVec 4) (b : BitVec 4) : Statement (.subw d a b) := by
  simp only [Statement, encodeNat]; omega
theorem mul (d : BitVec 4) (a : BitVec 4) (b : BitVec 4) : Statement (.mul d a b) := by
  simp only [Statement, encodeNat]; omega
theorem mulw (d : BitVec 4) (a : BitVec 4) (b : BitVec 4) : Statement (.mulw d a b) := by
  simp only [Statement, encodeNat]; omega
theorem mulh (d : BitVec 4) (a : BitVec 4) (b : BitVec 4) : Statement (.mulh d a b) := by
  simp only [Statement, encodeNat]; omega
theorem mulhu (d : BitVec 4) (a : BitVec 4) (b : BitVec 4) : Statement (.mulhu d a b) := by
  simp only [Statement, encodeNat]; omega
theorem div (d : BitVec 4) (a : BitVec 4) (b : BitVec 4) : Statement (.div d a b) := by
  simp only [Statement, encodeNat]; omega
theorem divu (d : BitVec 4) (a : BitVec 4) (b : BitVec 4) : Statement (.divu d a b) := by
  simp only [Statement, encodeNat]; omega
theorem rem (d : BitVec 4) (a : BitVec 4) (b : BitVec 4) : Statement (.rem d a b) := by
  simp only [Statement, encodeNat]; omega
theorem remu (d : BitVec 4) (a : BitVec 4) (b : BitVec 4) : Statement (.remu d a b) := by
  simp only [Statement, encodeNat]; omega
theorem andr (d : BitVec 4) (a : BitVec 4) (b : BitVec 4) : Statement (.andr d a b) := by
  simp only [Statement, encodeNat]; omega
theorem orr (d : BitVec 4) (a : BitVec 4) (b : BitVec 4) : Statement (.orr d a b) := by
  simp only [Statement, encodeNat]; omega
theorem xorr (d : BitVec 4) (a : BitVec 4) (b : BitVec 4) : Statement (.xorr d a b) := by
  simp only [Statement, encodeNat]; omega
theorem andn (d : BitVec 4) (a : BitVec 4) (b : BitVec 4) : Statement (.andn d a b) := by
  simp only [Statement, encodeNat]; omega
theorem orn (d : BitVec 4) (a : BitVec 4) (b : BitVec 4) : Statement (.orn d a b) := by
  simp only [Statement, encodeNat]; omega
theorem shl (d : BitVec 4) (a : BitVec 4) (b : BitVec 4) : Statement (.shl d a b) := by
  simp only [Statement, encodeNat]; omega
theorem shr (d : BitVec 4) (a : BitVec 4) (b : BitVec 4) : Statement (.shr d a b) := by
  simp only [Statement, encodeNat]; omega
theorem sar (d : BitVec 4) (a : BitVec 4) (b : BitVec 4) : Statement (.sar d a b) := by
  simp only [Statement, encodeNat]; omega
theorem rol (d : BitVec 4) (a : BitVec 4) (b : BitVec 4) : Statement (.rol d a b) := by
  simp only [Statement, encodeNat]; omega
theorem shlw (d : BitVec 4) (a : BitVec 4) (b : BitVec 4) : Statement (.shlw d a b) := by
  simp only [Statement, encodeNat]; omega
theorem shrw (d : BitVec 4) (a : BitVec 4) (b : BitVec 4) : Statement (.shrw d a b) := by
  simp only [Statement, encodeNat]; omega
theorem sarw (d : BitVec 4) (a : BitVec 4) (b : BitVec 4) : Statement (.sarw d a b) := by
  simp only [Statement, encodeNat]; omega
theorem minS (d : BitVec 4) (a : BitVec 4) (b : BitVec 4) : Statement (.minS d a b) := by
  simp only [Statement, encodeNat]; omega
theorem maxS (d : BitVec 4) (a : BitVec 4) (b : BitVec 4) : Statement (.maxS d a b) := by
  simp only [Statement, encodeNat]; omega
theorem minu (d : BitVec 4) (a : BitVec 4) (b : BitVec 4) : Statement (.minu d a b) := by
  simp only [Statement, encodeNat]; omega
theorem maxu (d : BitVec 4) (a : BitVec 4) (b : BitVec 4) : Statement (.maxu d a b) := by
  simp only [Statement, encodeNat]; omega
theorem abs (d : BitVec 4) (a : BitVec 4) : Statement (.abs d a) := by
  simp only [Statement, encodeNat]; omega
theorem clz (d : BitVec 4) (a : BitVec 4) : Statement (.clz d a) := by
  simp only [Statement, encodeNat]; omega
theorem ctz (d : BitVec 4) (a : BitVec 4) : Statement (.ctz d a) := by
  simp only [Statement, encodeNat]; omega
theorem popc (d : BitVec 4) (a : BitVec 4) : Statement (.popc d a) := by
  simp only [Statement, encodeNat]; omega
theorem brev (d : BitVec 4) (a : BitVec 4) : Statement (.brev d a) := by
  simp only [Statement, encodeNat]; omega
theorem bswap (d : BitVec 4) (a : BitVec 4) : Statement (.bswap d a) := by
  simp only [Statement, encodeNat]; omega
theorem sext (d : BitVec 4) (a : BitVec 4) (w : BitVec 6) : Statement (.sext d a w) := by
  simp only [Statement, encodeNat]; omega
theorem zext (d : BitVec 4) (a : BitVec 4) (w : BitVec 6) : Statement (.zext d a w) := by
  simp only [Statement, encodeNat]; omega
theorem extr (d : BitVec 4) (a : BitVec 4) (b : BitVec 4) : Statement (.extr d a b) := by
  simp only [Statement, encodeNat]; omega
theorem insr (d : BitVec 4) (a : BitVec 4) (b : BitVec 4) : Statement (.insr d a b) := by
  simp only [Statement, encodeNat]; omega
theorem slt (d : BitVec 4) (a : BitVec 4) (b : BitVec 4) : Statement (.slt d a b) := by
  simp only [Statement, encodeNat]; omega
theorem sltu (d : BitVec 4) (a : BitVec 4) (b : BitVec 4) : Statement (.sltu d a b) := by
  simp only [Statement, encodeNat]; omega
theorem seq (d : BitVec 4) (a : BitVec 4) (b : BitVec 4) : Statement (.seq d a b) := by
  simp only [Statement, encodeNat]; omega
theorem sne (d : BitVec 4) (a : BitVec 4) (b : BitVec 4) : Statement (.sne d a b) := by
  simp only [Statement, encodeNat]; omega
theorem lea (d : BitVec 4) (a : BitVec 4) (b : BitVec 4) (s : BitVec 2) : Statement (.lea d a b s) := by
  simp only [Statement, encodeNat]; omega
theorem addi (d : BitVec 4) (a : BitVec 4) (i : BitVec 18) : Statement (.addi d a i) := by
  simp only [Statement, encodeNat]; omega
theorem addwi (d : BitVec 4) (a : BitVec 4) (i : BitVec 18) : Statement (.addwi d a i) := by
  simp only [Statement, encodeNat]; omega
theorem andi (d : BitVec 4) (a : BitVec 4) (i : BitVec 18) : Statement (.andi d a i) := by
  simp only [Statement, encodeNat]; omega
theorem ori (d : BitVec 4) (a : BitVec 4) (i : BitVec 18) : Statement (.ori d a i) := by
  simp only [Statement, encodeNat]; omega
theorem xori (d : BitVec 4) (a : BitVec 4) (i : BitVec 18) : Statement (.xori d a i) := by
  simp only [Statement, encodeNat]; omega
theorem shli (d : BitVec 4) (a : BitVec 4) (s : BitVec 6) : Statement (.shli d a s) := by
  simp only [Statement, encodeNat]; omega
theorem shri (d : BitVec 4) (a : BitVec 4) (s : BitVec 6) : Statement (.shri d a s) := by
  simp only [Statement, encodeNat]; omega
theorem sari (d : BitVec 4) (a : BitVec 4) (s : BitVec 6) : Statement (.sari d a s) := by
  simp only [Statement, encodeNat]; omega
theorem slti (d : BitVec 4) (a : BitVec 4) (i : BitVec 18) : Statement (.slti d a i) := by
  simp only [Statement, encodeNat]; omega
theorem sltui (d : BitVec 4) (a : BitVec 4) (i : BitVec 18) : Statement (.sltui d a i) := by
  simp only [Statement, encodeNat]; omega
theorem li (d : BitVec 4) (i : BitVec 18) : Statement (.li d i) := by
  simp only [Statement, encodeNat]; omega
theorem lih (d : BitVec 4) (a : BitVec 4) (i : BitVec 18) : Statement (.lih d a i) := by
  simp only [Statement, encodeNat]; omega
theorem leai (d : BitVec 4) (i : BitVec 18) : Statement (.leai d i) := by
  simp only [Statement, encodeNat]; omega
theorem skeqReg (a : BitVec 4) (b : BitVec 4) (n : BitVec 2) : Statement (.skeqReg a b n) := by
  simp only [Statement, encodeNat]; omega
theorem skeqImm (a : BitVec 4) (i : BitVec 15) (n : BitVec 2) : Statement (.skeqImm a i n) := by
  simp only [Statement, encodeNat]; omega
theorem skneReg (a : BitVec 4) (b : BitVec 4) (n : BitVec 2) : Statement (.skneReg a b n) := by
  simp only [Statement, encodeNat]; omega
theorem skneImm (a : BitVec 4) (i : BitVec 15) (n : BitVec 2) : Statement (.skneImm a i n) := by
  simp only [Statement, encodeNat]; omega
theorem skltReg (a : BitVec 4) (b : BitVec 4) (n : BitVec 2) : Statement (.skltReg a b n) := by
  simp only [Statement, encodeNat]; omega
theorem skltImm (a : BitVec 4) (i : BitVec 15) (n : BitVec 2) : Statement (.skltImm a i n) := by
  simp only [Statement, encodeNat]; omega
theorem skgeReg (a : BitVec 4) (b : BitVec 4) (n : BitVec 2) : Statement (.skgeReg a b n) := by
  simp only [Statement, encodeNat]; omega
theorem skgeImm (a : BitVec 4) (i : BitVec 15) (n : BitVec 2) : Statement (.skgeImm a i n) := by
  simp only [Statement, encodeNat]; omega
theorem skltuReg (a : BitVec 4) (b : BitVec 4) (n : BitVec 2) : Statement (.skltuReg a b n) := by
  simp only [Statement, encodeNat]; omega
theorem skltuImm (a : BitVec 4) (i : BitVec 15) (n : BitVec 2) : Statement (.skltuImm a i n) := by
  simp only [Statement, encodeNat]; omega
theorem skgeuReg (a : BitVec 4) (b : BitVec 4) (n : BitVec 2) : Statement (.skgeuReg a b n) := by
  simp only [Statement, encodeNat]; omega
theorem skgeuImm (a : BitVec 4) (i : BitVec 15) (n : BitVec 2) : Statement (.skgeuImm a i n) := by
  simp only [Statement, encodeNat]; omega
theorem skbsReg (a : BitVec 4) (b : BitVec 4) (n : BitVec 2) : Statement (.skbsReg a b n) := by
  simp only [Statement, encodeNat]; omega
theorem skbsImm (a : BitVec 4) (k : BitVec 6) (n : BitVec 2) : Statement (.skbsImm a k n) := by
  simp only [Statement, encodeNat]; omega
theorem skbcReg (a : BitVec 4) (b : BitVec 4) (n : BitVec 2) : Statement (.skbcReg a b n) := by
  simp only [Statement, encodeNat]; omega
theorem skbcImm (a : BitVec 4) (k : BitVec 6) (n : BitVec 2) : Statement (.skbcImm a k n) := by
  simp only [Statement, encodeNat]; omega
theorem skfeq (a : BitVec 4) (b : BitVec 4) (n : BitVec 2) : Statement (.skfeq a b n) := by
  simp only [Statement, encodeNat]; omega
theorem skflt (a : BitVec 4) (b : BitVec 4) (n : BitVec 2) : Statement (.skflt a b n) := by
  simp only [Statement, encodeNat]; omega
theorem skfle (a : BitVec 4) (b : BitVec 4) (n : BitVec 2) : Statement (.skfle a b n) := by
  simp only [Statement, encodeNat]; omega
theorem skfun (a : BitVec 4) (b : BitVec 4) (n : BitVec 2) : Statement (.skfun a b n) := by
  simp only [Statement, encodeNat]; omega
theorem fadd (d : BitVec 4) (a : BitVec 4) (b : BitVec 4) : Statement (.fadd d a b) := by
  simp only [Statement, encodeNat]; omega
theorem fsub (d : BitVec 4) (a : BitVec 4) (b : BitVec 4) : Statement (.fsub d a b) := by
  simp only [Statement, encodeNat]; omega
theorem fmul (d : BitVec 4) (a : BitVec 4) (b : BitVec 4) : Statement (.fmul d a b) := by
  simp only [Statement, encodeNat]; omega
theorem fma (d : BitVec 4) (a : BitVec 4) (b : BitVec 4) (c : BitVec 4) : Statement (.fma d a b c) := by
  simp only [Statement, encodeNat]; omega
theorem fms (d : BitVec 4) (a : BitVec 4) (b : BitVec 4) (c : BitVec 4) : Statement (.fms d a b c) := by
  simp only [Statement, encodeNat]; omega
theorem fnma (d : BitVec 4) (a : BitVec 4) (b : BitVec 4) (c : BitVec 4) : Statement (.fnma d a b c) := by
  simp only [Statement, encodeNat]; omega
theorem fdiv (d : BitVec 4) (a : BitVec 4) (b : BitVec 4) : Statement (.fdiv d a b) := by
  simp only [Statement, encodeNat]; omega
theorem fsqrt (d : BitVec 4) (a : BitVec 4) : Statement (.fsqrt d a) := by
  simp only [Statement, encodeNat]; omega
theorem fmin (d : BitVec 4) (a : BitVec 4) (b : BitVec 4) : Statement (.fmin d a b) := by
  simp only [Statement, encodeNat]; omega
theorem fmax (d : BitVec 4) (a : BitVec 4) (b : BitVec 4) : Statement (.fmax d a b) := by
  simp only [Statement, encodeNat]; omega
theorem fabs (d : BitVec 4) (a : BitVec 4) : Statement (.fabs d a) := by
  simp only [Statement, encodeNat]; omega
theorem fneg (d : BitVec 4) (a : BitVec 4) : Statement (.fneg d a) := by
  simp only [Statement, encodeNat]; omega
theorem fsgn (d : BitVec 4) (a : BitVec 4) (b : BitVec 4) : Statement (.fsgn d a b) := by
  simp only [Statement, encodeNat]; omega
theorem fclass (d : BitVec 4) (a : BitVec 4) : Statement (.fclass d a) := by
  simp only [Statement, encodeNat]; omega
theorem fcvtfi (d : BitVec 4) (a : BitVec 4) (f : BitVec 6) : Statement (.fcvtfi d a f) := by
  simp only [Statement, encodeNat]; omega
theorem fcvtif (d : BitVec 4) (a : BitVec 4) (f : BitVec 6) : Statement (.fcvtif d a f) := by
  simp only [Statement, encodeNat]; omega
theorem fcvth (d : BitVec 4) (a : BitVec 4) (x : BitVec 1) (f : BitVec 5) : Statement (.fcvth d a x f) := by
  simp only [Statement, encodeNat]; omega
theorem br (o : BitVec 26) : Statement (.br o) := by
  simp only [Statement, encodeNat]; omega
theorem call (o : BitVec 26) : Statement (.call o) := by
  simp only [Statement, encodeNat]; omega
theorem bz (a : BitVec 4) (o : BitVec 18) : Statement (.bz a o) := by
  simp only [Statement, encodeNat]; omega
theorem bnz (a : BitVec 4) (o : BitVec 18) : Statement (.bnz a o) := by
  simp only [Statement, encodeNat]; omega
theorem loopSet (s : BitVec 1) (a : BitVec 4) (o : BitVec 17) : Statement (.loopSet s a o) := by
  simp only [Statement, encodeNat]; omega
theorem brr (a : BitVec 4) : Statement (.brr a) := by
  simp only [Statement, encodeNat]; omega
theorem callr (a : BitVec 4) : Statement (.callr a) := by
  simp only [Statement, encodeNat]; omega
theorem ret (a : BitVec 4) : Statement (.ret a) := by
  simp only [Statement, encodeNat]; omega
theorem exitThread : Statement (.exitThread) := of_eq 1409286336 rfl (by decide)
theorem nop : Statement (.nop) := of_eq 1409286400 rfl (by decide)
theorem loopr (s : BitVec 1) (a : BitVec 4) (b : BitVec 4) : Statement (.loopr s a b) := by
  simp only [Statement, encodeNat]; omega
theorem ldb (d : BitVec 4) (a : BitVec 4) (i : BitVec 18) : Statement (.ldb d a i) := by
  simp only [Statement, encodeNat]; omega
theorem ldbu (d : BitVec 4) (a : BitVec 4) (i : BitVec 18) : Statement (.ldbu d a i) := by
  simp only [Statement, encodeNat]; omega
theorem ldh (d : BitVec 4) (a : BitVec 4) (i : BitVec 18) : Statement (.ldh d a i) := by
  simp only [Statement, encodeNat]; omega
theorem ldhu (d : BitVec 4) (a : BitVec 4) (i : BitVec 18) : Statement (.ldhu d a i) := by
  simp only [Statement, encodeNat]; omega
theorem ldw (d : BitVec 4) (a : BitVec 4) (i : BitVec 18) : Statement (.ldw d a i) := by
  simp only [Statement, encodeNat]; omega
theorem ldwu (d : BitVec 4) (a : BitVec 4) (i : BitVec 18) : Statement (.ldwu d a i) := by
  simp only [Statement, encodeNat]; omega
theorem ldd (d : BitVec 4) (a : BitVec 4) (i : BitVec 18) : Statement (.ldd d a i) := by
  simp only [Statement, encodeNat]; omega
theorem stb (s : BitVec 4) (a : BitVec 4) (i : BitVec 18) : Statement (.stb s a i) := by
  simp only [Statement, encodeNat]; omega
theorem sth (s : BitVec 4) (a : BitVec 4) (i : BitVec 18) : Statement (.sth s a i) := by
  simp only [Statement, encodeNat]; omega
theorem stw (s : BitVec 4) (a : BitVec 4) (i : BitVec 18) : Statement (.stw s a i) := by
  simp only [Statement, encodeNat]; omega
theorem std (s : BitVec 4) (a : BitVec 4) (i : BitVec 18) : Statement (.std s a i) := by
  simp only [Statement, encodeNat]; omega
theorem ldx (d : BitVec 4) (a : BitVec 4) (b : BitVec 4) (x : BitVec 1) (u : BitVec 1) (w : BitVec 2) : Statement (.ldx d a b x u w) := by
  simp only [Statement, encodeNat]; omega
theorem stx (d : BitVec 4) (a : BitVec 4) (b : BitVec 4) (x : BitVec 1) (w : BitVec 2) : Statement (.stx d a b x w) := by
  simp only [Statement, encodeNat]; omega
theorem lda (d : BitVec 4) (a : BitVec 4) (s : BitVec 3) (u : BitVec 1) (w : BitVec 2) : Statement (.lda d a s u w) := by
  simp only [Statement, encodeNat]; omega
theorem strel (d : BitVec 4) (a : BitVec 4) (s : BitVec 3) (w : BitVec 2) : Statement (.strel d a s w) := by
  simp only [Statement, encodeNat]; omega
theorem aadd (d : BitVec 4) (a : BitVec 4) (b : BitVec 4) (z : BitVec 1) : Statement (.aadd d a b z) := by
  simp only [Statement, encodeNat]; omega
theorem aand (d : BitVec 4) (a : BitVec 4) (b : BitVec 4) (z : BitVec 1) : Statement (.aand d a b z) := by
  simp only [Statement, encodeNat]; omega
theorem aor (d : BitVec 4) (a : BitVec 4) (b : BitVec 4) (z : BitVec 1) : Statement (.aor d a b z) := by
  simp only [Statement, encodeNat]; omega
theorem axor (d : BitVec 4) (a : BitVec 4) (b : BitVec 4) (z : BitVec 1) : Statement (.axor d a b z) := by
  simp only [Statement, encodeNat]; omega
theorem amin (d : BitVec 4) (a : BitVec 4) (b : BitVec 4) (z : BitVec 1) : Statement (.amin d a b z) := by
  simp only [Statement, encodeNat]; omega
theorem amax (d : BitVec 4) (a : BitVec 4) (b : BitVec 4) (z : BitVec 1) : Statement (.amax d a b z) := by
  simp only [Statement, encodeNat]; omega
theorem aminu (d : BitVec 4) (a : BitVec 4) (b : BitVec 4) (z : BitVec 1) : Statement (.aminu d a b z) := by
  simp only [Statement, encodeNat]; omega
theorem amaxu (d : BitVec 4) (a : BitVec 4) (b : BitVec 4) (z : BitVec 1) : Statement (.amaxu d a b z) := by
  simp only [Statement, encodeNat]; omega
theorem aswp (d : BitVec 4) (a : BitVec 4) (b : BitVec 4) (z : BitVec 1) : Statement (.aswp d a b z) := by
  simp only [Statement, encodeNat]; omega
theorem acas (d : BitVec 4) (a : BitVec 4) (b : BitVec 4) (z : BitVec 1) : Statement (.acas d a b z) := by
  simp only [Statement, encodeNat]; omega
theorem afadd (d : BitVec 4) (a : BitVec 4) (b : BitVec 4) : Statement (.afadd d a b) := by
  simp only [Statement, encodeNat]; omega
theorem afmin (d : BitVec 4) (a : BitVec 4) (b : BitVec 4) : Statement (.afmin d a b) := by
  simp only [Statement, encodeNat]; omega
theorem afmax (d : BitVec 4) (a : BitVec 4) (b : BitVec 4) : Statement (.afmax d a b) := by
  simp only [Statement, encodeNat]; omega
theorem ldfe (d : BitVec 4) (a : BitVec 4) (b : BitVec 4) : Statement (.ldfe d a b) := by
  simp only [Statement, encodeNat]; omega
theorem ldff (d : BitVec 4) (a : BitVec 4) (b : BitVec 4) : Statement (.ldff d a b) := by
  simp only [Statement, encodeNat]; omega
theorem stef (d : BitVec 4) (a : BitVec 4) (b : BitVec 4) : Statement (.stef d a b) := by
  simp only [Statement, encodeNat]; omega
theorem stff (d : BitVec 4) (a : BitVec 4) : Statement (.stff d a) := by
  simp only [Statement, encodeNat]; omega
theorem feprobe (d : BitVec 4) (a : BitVec 4) : Statement (.feprobe d a) := by
  simp only [Statement, encodeNat]; omega
theorem feset (a : BitVec 4) (f : BitVec 1) : Statement (.feset a f) := by
  simp only [Statement, encodeNat]; omega
theorem psend (a : BitVec 4) (k : BitVec 2) : Statement (.psend a k) := by
  simp only [Statement, encodeNat]; omega
theorem precv (d : BitVec 4) (k : BitVec 2) : Statement (.precv d k) := by
  simp only [Statement, encodeNat]; omega
theorem ppeek (d : BitVec 4) (k : BitVec 2) : Statement (.ppeek d k) := by
  simp only [Statement, encodeNat]; omega
theorem psendq (a : BitVec 4) (b : BitVec 4) (k : BitVec 2) : Statement (.psendq a b k) := by
  simp only [Statement, encodeNat]; omega
theorem precvq (d : BitVec 4) (b : BitVec 4) (k : BitVec 2) : Statement (.precvq d b k) := by
  simp only [Statement, encodeNat]; omega
theorem pend : Statement (.pend) := of_eq 2483027968 rfl (by decide)
theorem fence (s : BitVec 3) (n : BitVec 2) : Statement (.fence s n) := by
  simp only [Statement, encodeNat]; omega
theorem bar (s : BitVec 3) (n : BitVec 2) : Statement (.bar s n) := by
  simp only [Statement, encodeNat]; omega
theorem wait (d : BitVec 4) : Statement (.wait d) := by
  simp only [Statement, encodeNat]; omega
theorem evt (a : BitVec 4) (b : BitVec 4) (e : BitVec 3) : Statement (.evt a b e) := by
  simp only [Statement, encodeNat]; omega
theorem waitge (d : BitVec 4) (a : BitVec 4) (b : BitVec 4) : Statement (.waitge d a b) := by
  simp only [Statement, encodeNat]; omega
theorem sleep (d : BitVec 4) (a : BitVec 4) : Statement (.sleep d a) := by
  simp only [Statement, encodeNat]; omega
theorem ckpt (d : BitVec 4) : Statement (.ckpt d) := by
  simp only [Statement, encodeNat]; omega
theorem brk (c : BitVec 6) : Statement (.brk c) := by
  simp only [Statement, encodeNat]; omega
theorem trapCode (c : BitVec 6) : Statement (.trapCode c) := by
  simp only [Statement, encodeNat]; omega
theorem tstart (d : BitVec 4) (a : BitVec 4) (b : BitVec 4) : Statement (.tstart d a b) := by
  simp only [Statement, encodeNat]; omega
theorem treap (d : BitVec 4) (a : BitVec 4) (b : BitVec 4) : Statement (.treap d a b) := by
  simp only [Statement, encodeNat]; omega
theorem tkill (d : BitVec 4) (a : BitVec 4) : Statement (.tkill d a) := by
  simp only [Statement, encodeNat]; omega
theorem mfa (d : BitVec 4) (c : BitVec 6) : Statement (.mfa d c) := by
  simp only [Statement, encodeNat]; omega
theorem mta (a : BitVec 4) (c : BitVec 6) : Statement (.mta a c) := by
  simp only [Statement, encodeNat]; omega
theorem mfs (d : BitVec 4) (n : BitVec 8) : Statement (.mfs d n) := by
  simp only [Statement, encodeNat]; omega
theorem mts (a : BitVec 4) (n : BitVec 8) : Statement (.mts a n) := by
  simp only [Statement, encodeNat]; omega
theorem hint (p : BitVec 26) : Statement (.hint p) := by
  simp only [Statement, encodeNat]; omega
theorem hmodRound (m : BitVec 3) : Statement (.hmodRound m) := by
  simp only [Statement, encodeNat]; omega
theorem hmodSr : Statement (.hmodSr) := of_eq 2835349504 rfl (by decide)
theorem hmodScope (s : BitVec 3) : Statement (.hmodScope s) := by
  simp only [Statement, encodeNat]; omega
theorem hmodLanes (f : BitVec 5) : Statement (.hmodLanes f) := by
  simp only [Statement, encodeNat]; omega
theorem vadd (d : BitVec 4) (a : BitVec 4) (b : BitVec 4) : Statement (.vadd d a b) := by
  simp only [Statement, encodeNat]; omega
theorem vsub (d : BitVec 4) (a : BitVec 4) (b : BitVec 4) : Statement (.vsub d a b) := by
  simp only [Statement, encodeNat]; omega
theorem vadds (d : BitVec 4) (a : BitVec 4) (b : BitVec 4) : Statement (.vadds d a b) := by
  simp only [Statement, encodeNat]; omega
theorem vsubs (d : BitVec 4) (a : BitVec 4) (b : BitVec 4) : Statement (.vsubs d a b) := by
  simp only [Statement, encodeNat]; omega
theorem vmul (d : BitVec 4) (a : BitVec 4) (b : BitVec 4) : Statement (.vmul d a b) := by
  simp only [Statement, encodeNat]; omega
theorem vmulh (d : BitVec 4) (a : BitVec 4) (b : BitVec 4) : Statement (.vmulh d a b) := by
  simp only [Statement, encodeNat]; omega
theorem vmac (d : BitVec 4) (a : BitVec 4) (b : BitVec 4) : Statement (.vmac d a b) := by
  simp only [Statement, encodeNat]; omega
theorem vdot (d : BitVec 4) (a : BitVec 4) (b : BitVec 4) : Statement (.vdot d a b) := by
  simp only [Statement, encodeNat]; omega
theorem vsum (d : BitVec 4) (a : BitVec 4) (b : BitVec 4) : Statement (.vsum d a b) := by
  simp only [Statement, encodeNat]; omega
theorem vmaxr (d : BitVec 4) (a : BitVec 4) : Statement (.vmaxr d a) := by
  simp only [Statement, encodeNat]; omega
theorem vmin (d : BitVec 4) (a : BitVec 4) (b : BitVec 4) : Statement (.vmin d a b) := by
  simp only [Statement, encodeNat]; omega
theorem vmax (d : BitVec 4) (a : BitVec 4) (b : BitVec 4) : Statement (.vmax d a b) := by
  simp only [Statement, encodeNat]; omega
theorem vabs (d : BitVec 4) (a : BitVec 4) : Statement (.vabs d a) := by
  simp only [Statement, encodeNat]; omega
theorem vneg (d : BitVec 4) (a : BitVec 4) : Statement (.vneg d a) := by
  simp only [Statement, encodeNat]; omega
theorem vavg (d : BitVec 4) (a : BitVec 4) (b : BitVec 4) : Statement (.vavg d a b) := by
  simp only [Statement, encodeNat]; omega
theorem vshl (d : BitVec 4) (a : BitVec 4) (b : BitVec 4) : Statement (.vshl d a b) := by
  simp only [Statement, encodeNat]; omega
theorem vshr (d : BitVec 4) (a : BitVec 4) (b : BitVec 4) : Statement (.vshr d a b) := by
  simp only [Statement, encodeNat]; omega
theorem vsar (d : BitVec 4) (a : BitVec 4) (b : BitVec 4) : Statement (.vsar d a b) := by
  simp only [Statement, encodeNat]; omega
theorem vcmp (d : BitVec 4) (a : BitVec 4) (b : BitVec 4) (c : BitVec 3) : Statement (.vcmp d a b c) := by
  simp only [Statement, encodeNat]; omega
theorem vsel (d : BitVec 4) (a : BitVec 4) (b : BitVec 4) : Statement (.vsel d a b) := by
  simp only [Statement, encodeNat]; omega
theorem vsplat (d : BitVec 4) (a : BitVec 4) : Statement (.vsplat d a) := by
  simp only [Statement, encodeNat]; omega
theorem vshuf (d : BitVec 4) (a : BitVec 4) (b : BitVec 4) : Statement (.vshuf d a b) := by
  simp only [Statement, encodeNat]; omega
theorem vpack (d : BitVec 4) (a : BitVec 4) (b : BitVec 4) : Statement (.vpack d a b) := by
  simp only [Statement, encodeNat]; omega
theorem vunpkl (d : BitVec 4) (a : BitVec 4) : Statement (.vunpkl d a) := by
  simp only [Statement, encodeNat]; omega
theorem vunpkh (d : BitVec 4) (a : BitVec 4) : Statement (.vunpkh d a) := by
  simp only [Statement, encodeNat]; omega
theorem vcvt (d : BitVec 4) (a : BitVec 4) (b : BitVec 4) (f : BitVec 6) : Statement (.vcvt d a b f) := by
  simp only [Statement, encodeNat]; omega
theorem vnzs (d : BitVec 4) (a : BitVec 4) : Statement (.vnzs d a) := by
  simp only [Statement, encodeNat]; omega
theorem vcompr (d : BitVec 4) (a : BitVec 4) (b : BitVec 4) : Statement (.vcompr d a b) := by
  simp only [Statement, encodeNat]; omega
theorem vrelu (d : BitVec 4) (a : BitVec 4) : Statement (.vrelu d a) := by
  simp only [Statement, encodeNat]; omega
theorem vclamp (d : BitVec 4) (a : BitVec 4) (b : BitVec 4) : Statement (.vclamp d a b) := by
  simp only [Statement, encodeNat]; omega
theorem vexp2 (d : BitVec 4) (a : BitVec 4) : Statement (.vexp2 d a) := by
  simp only [Statement, encodeNat]; omega
theorem vlog2 (d : BitVec 4) (a : BitVec 4) : Statement (.vlog2 d a) := by
  simp only [Statement, encodeNat]; omega
theorem vrcp (d : BitVec 4) (a : BitVec 4) : Statement (.vrcp d a) := by
  simp only [Statement, encodeNat]; omega
theorem vrsq (d : BitVec 4) (a : BitVec 4) : Statement (.vrsq d a) := by
  simp only [Statement, encodeNat]; omega
theorem tld (a : BitVec 4) (t : BitVec 4) : Statement (.tld a t) := by
  simp only [Statement, encodeNat]; omega
theorem tst (a : BitVec 4) (t : BitVec 4) : Statement (.tst a t) := by
  simp only [Statement, encodeNat]; omega
theorem tsetf (a : BitVec 4) (b : BitVec 4) (t : BitVec 4) : Statement (.tsetf a b t) := by
  simp only [Statement, encodeNat]; omega
theorem geo (a : BitVec 4) : Statement (.geo a) := by
  simp only [Statement, encodeNat]; omega
theorem mzero : Statement (.mzero) := of_eq 2952791040 rfl (by decide)
theorem mtile (u : BitVec 4) (a : BitVec 4) (b : BitVec 4) (t : BitVec 4) (q : BitVec 2) : Statement (.mtile u a b t q) := by
  simp only [Statement, encodeNat]; omega
theorem mst (a : BitVec 4) (b : BitVec 4) (t : BitVec 4) : Statement (.mst a b t) := by
  simp only [Statement, encodeNat]; omega
theorem mlatch (a : BitVec 4) (j : BitVec 2) : Statement (.mlatch a j) := by
  simp only [Statement, encodeNat]; omega
theorem gang (d : BitVec 4) (a : BitVec 4) (b : BitVec 4) : Statement (.gang d a b) := by
  simp only [Statement, encodeNat]; omega
theorem feed (a : BitVec 4) (b : BitVec 4) (q : BitVec 2) : Statement (.feed a b q) := by
  simp only [Statement, encodeNat]; omega
theorem feeds (c : BitVec 4) (a : BitVec 4) (b : BitVec 4) (t : BitVec 4) (q : BitVec 2) : Statement (.feeds c a b t q) := by
  simp only [Statement, encodeNat]; omega
theorem drainWord (d : BitVec 4) (b : BitVec 4) (q : BitVec 2) : Statement (.drainWord d b q) := by
  simp only [Statement, encodeNat]; omega
theorem thawBench (d : BitVec 4) (a : BitVec 4) : Statement (.thawBench d a) := by
  simp only [Statement, encodeNat]; omega
theorem gstat (d : BitVec 4) (a : BitVec 4) : Statement (.gstat d a) := by
  simp only [Statement, encodeNat]; omega
theorem copyElems (d : BitVec 4) (a : BitVec 4) (b : BitVec 4) (t : BitVec 4) (q : BitVec 2) : Statement (.copyElems d a b t q) := by
  simp only [Statement, encodeNat]; omega
theorem copy2 (d : BitVec 4) (a : BitVec 4) (b : BitVec 4) (t : BitVec 4) (q : BitVec 2) : Statement (.copy2 d a b t q) := by
  simp only [Statement, encodeNat]; omega
theorem copyring (d : BitVec 4) (a : BitVec 4) (b : BitVec 4) (t : BitVec 4) : Statement (.copyring d a b t) := by
  simp only [Statement, encodeNat]; omega
theorem ringadv (d : BitVec 4) : Statement (.ringadv d) := by
  simp only [Statement, encodeNat]; omega
theorem gather (c : BitVec 4) (a : BitVec 4) (b : BitVec 4) (t : BitVec 4) (q : BitVec 2) : Statement (.gather c a b t q) := by
  simp only [Statement, encodeNat]; omega
theorem scatter (c : BitVec 4) (a : BitVec 4) (b : BitVec 4) (t : BitVec 4) (q : BitVec 2) : Statement (.scatter c a b t q) := by
  simp only [Statement, encodeNat]; omega
theorem scatadd (c : BitVec 4) (a : BitVec 4) (b : BitVec 4) (t : BitVec 4) (q : BitVec 2) : Statement (.scatadd c a b t q) := by
  simp only [Statement, encodeNat]; omega
theorem qjoin (a : BitVec 4) (b : BitVec 4) : Statement (.qjoin a b) := by
  simp only [Statement, encodeNat]; omega
theorem cstat (d : BitVec 4) (a : BitVec 4) : Statement (.cstat d a) := by
  simp only [Statement, encodeNat]; omega
theorem pgstart (a : BitVec 4) (b : BitVec 4) (t : BitVec 4) (g : BitVec 1) : Statement (.pgstart a b t g) := by
  simp only [Statement, encodeNat]; omega
theorem pgnext (d : BitVec 4) (a : BitVec 4) (g : BitVec 1) : Statement (.pgnext d a g) := by
  simp only [Statement, encodeNat]; omega
theorem pgsave (a : BitVec 4) (g : BitVec 1) : Statement (.pgsave a g) := by
  simp only [Statement, encodeNat]; omega
theorem pgload (a : BitVec 4) (g : BitVec 1) : Statement (.pgload a g) := by
  simp only [Statement, encodeNat]; omega
theorem pginv (d : BitVec 4) (a : BitVec 4) (t : BitVec 4) : Statement (.pginv d a t) := by
  simp only [Statement, encodeNat]; omega
theorem dqpush (d : BitVec 4) (a : BitVec 4) (b : BitVec 4) : Statement (.dqpush d a b) := by
  simp only [Statement, encodeNat]; omega
theorem dqpop (d : BitVec 4) : Statement (.dqpop d) := by
  simp only [Statement, encodeNat]; omega
theorem dqsplit (d : BitVec 4) : Statement (.dqsplit d) := by
  simp only [Statement, encodeNat]; omega
theorem dqsteal (d : BitVec 4) (a : BitVec 4) : Statement (.dqsteal d a) := by
  simp only [Statement, encodeNat]; omega
theorem dqcount (d : BitVec 4) : Statement (.dqcount d) := by
  simp only [Statement, encodeNat]; omega
theorem trec (c : BitVec 4) (a : BitVec 4) (b : BitVec 4) : Statement (.trec c a b) := by
  simp only [Statement, encodeNat]; omega
theorem tend (d : BitVec 4) : Statement (.tend d) := by
  simp only [Statement, encodeNat]; omega
theorem tguard (a : BitVec 4) (b : BitVec 4) : Statement (.tguard a b) := by
  simp only [Statement, encodeNat]; omega
theorem tplay (d : BitVec 4) (a : BitVec 4) (b : BitVec 4) : Statement (.tplay d a b) := by
  simp only [Statement, encodeNat]; omega
theorem powerOnReset : Statement (.powerOnReset) := of_zero rfl
theorem spill (c : Nat) (t : Nat) : Statement (.spill c t) := of_zero rfl
theorem fill (c : Nat) (t : Nat) : Statement (.fill c t) := of_zero rfl
theorem scoreboardRetirement (c : Nat) : Statement (.scoreboardRetirement c) := of_zero rfl
theorem tapeAppend (c : Nat) : Statement (.tapeAppend c) := of_zero rfl
theorem remoteReply (c : Nat) (t : Nat) : Statement (.remoteReply c t) := of_zero rfl
theorem sectorFetch (c : Nat) (f : Nat) : Statement (.sectorFetch c f) := of_zero rfl
theorem readSetInstall (c : Nat) (f : Nat) : Statement (.readSetInstall c f) := of_zero rfl
theorem sectorDrain (c : Nat) (e : Nat) : Statement (.sectorDrain c e) := of_zero rfl
theorem drainAcknowledgement (c : Nat) (e : Nat) : Statement (.drainAcknowledgement c e) := of_zero rfl
theorem ldaAtHome (c : Nat) (t : Nat) : Statement (.ldaAtHome c t) := of_zero rfl
theorem strelAtHome (c : Nat) (t : Nat) : Statement (.strelAtHome c t) := of_zero rfl
theorem atomicAtHome (c : Nat) (t : Nat) : Statement (.atomicAtHome c t) := of_zero rfl
theorem feAtHome (c : Nat) (t : Nat) : Statement (.feAtHome c t) := of_zero rfl
theorem feWithdrawal (c : Nat) (n : Nat) : Statement (.feWithdrawal c n) := of_zero rfl
theorem feLimitExpiry (c : Nat) (t : Nat) : Statement (.feLimitExpiry c t) := of_zero rfl
theorem waitgeAtHome (c : Nat) (t : Nat) : Statement (.waitgeAtHome c t) := of_zero rfl
theorem counterLimitExpiry (c : Nat) (t : Nat) : Statement (.counterLimitExpiry c t) := of_zero rfl
theorem sleepTimeout (c : Nat) (t : Nat) : Statement (.sleepTimeout c t) := of_zero rfl
theorem eventArrival (c : Nat) (t : Nat) : Statement (.eventArrival c t) := of_zero rfl
theorem portEntryArrival (c : Nat) (d : Nat) : Statement (.portEntryArrival c d) := of_zero rfl
theorem orderTokenGrant (c : Nat) (t : Nat) : Statement (.orderTokenGrant c t) := of_zero rfl
theorem barrierEpisodeComplete (b : Nat) : Statement (.barrierEpisodeComplete b) := of_zero rfl
theorem ckptCollective (f : Nat) : Statement (.ckptCollective f) := of_zero rfl
theorem gangerExitComplete (c : Nat) : Statement (.gangerExitComplete c) := of_zero rfl
theorem icacheLineFill (c : Nat) (t : Nat) : Statement (.icacheLineFill c t) := of_zero rfl
theorem translationWalk (c : Nat) (t : Nat) : Statement (.translationWalk c t) := of_zero rfl
theorem invalidation (p : Nat) (c : Nat) : Statement (.invalidation p c) := of_zero rfl
theorem translationChangeComplete (p : Nat) : Statement (.translationChangeComplete p) := of_zero rfl
theorem sequencerAccept (c : Nat) : Statement (.sequencerAccept c) := of_zero rfl
theorem kStep (c : Nat) : Statement (.kStep c) := of_zero rfl
theorem engineCommandComplete (c : Nat) (q : Nat) : Statement (.engineCommandComplete c q) := of_zero rfl
theorem engineFault (c : Nat) (q : Nat) : Statement (.engineFault c q) := of_zero rfl
theorem qjoinFenceComplete (c : Nat) : Statement (.qjoinFenceComplete c) := of_zero rfl
theorem ringChunkStart (c : Nat) : Statement (.ringChunkStart c) := of_zero rfl
theorem ringChunkComplete (c : Nat) : Statement (.ringChunkComplete c) := of_zero rfl
theorem feedsWordDelivery (c : Nat) : Statement (.feedsWordDelivery c) := of_zero rfl
theorem gatherLead (c : Nat) : Statement (.gatherLead c) := of_zero rfl
theorem gatherWindowClose (c : Nat) : Statement (.gatherWindowClose c) := of_zero rfl
theorem stealRequest (c : Nat) (t : Nat) : Statement (.stealRequest c t) := of_zero rfl
theorem rampCreditRefill (d : Nat) : Statement (.rampCreditRefill d) := of_zero rfl
theorem leaveGrant (d : Nat) : Statement (.leaveGrant d) := of_zero rfl
theorem leaveReturn (d : Nat) : Statement (.leaveReturn d) := of_zero rfl
theorem claim (c : Nat) (t : Nat) : Statement (.claim c t) := of_zero rfl
theorem freeze (b : Nat) : Statement (.freeze b) := of_zero rfl
theorem latchPulse (c : Nat) : Statement (.latchPulse c) := of_zero rfl
theorem wsDataPulse (c : Nat) : Statement (.wsDataPulse c) := of_zero rfl
theorem rsDataPulse (c : Nat) : Statement (.rsDataPulse c) := of_zero rfl
theorem scalePulse (c : Nat) : Statement (.scalePulse c) := of_zero rfl
theorem zeroPointPulse (c : Nat) : Statement (.zeroPointPulse c) := of_zero rfl
theorem endPulse (c : Nat) : Statement (.endPulse c) := of_zero rfl
theorem thawReturn (b : Nat) : Statement (.thawReturn b) := of_zero rfl
theorem doorbellWrite (p : Nat) (q : Nat) : Statement (.doorbellWrite p q) := of_zero rfl
theorem dispatch (p : Nat) : Statement (.dispatch p) := of_zero rfl
theorem gangerStart (f : Nat) : Statement (.gangerStart f) := of_zero rfl
theorem replayFallback (f : Nat) : Statement (.replayFallback f) := of_zero rfl
theorem corePartEnd (c : Nat) : Statement (.corePartEnd c) := of_zero rfl
theorem retirement (f : Nat) : Statement (.retirement f) := of_zero rfl
theorem dryTimerExpiry (c : Nat) : Statement (.dryTimerExpiry c) := of_zero rfl
theorem coreRecast (c : Nat) (r : Nat) : Statement (.coreRecast c r) := of_zero rfl
theorem migrationSwitch (c : Nat) : Statement (.migrationSwitch c) := of_zero rfl
theorem migrationResume (c : Nat) : Statement (.migrationResume c) := of_zero rfl
theorem inboundWrite (port : Nat) (fn : Nat) (bar : Nat) (off : Nat) (bytes : List (BitVec 8)) : Statement (.inboundWrite port fn bar off bytes) := of_zero rfl
theorem partSend (n : Nat) : Statement (.partSend n) := of_zero rfl
theorem partAcknowledgement (n : Nat) : Statement (.partAcknowledgement n) := of_zero rfl
theorem inboundRead (port : Nat) (fn : Nat) (bar : Nat) (off : Nat) (len : Nat) : Statement (.inboundRead port fn bar off len) := of_zero rfl
theorem inboundReadPerform (n : Nat) : Statement (.inboundReadPerform n) := of_zero rfl
theorem peerInbound (p : Nat) (pkg : Nat) (rpart : Nat) (x : Nat) (off : Nat) (len : Nat) (bytes : List (BitVec 8)) : Statement (.peerInbound p pkg rpart x off len bytes) := of_zero rfl
theorem peerReplyTimeout (c : Nat) : Statement (.peerReplyTimeout c) := of_zero rfl
theorem haulPortFailure (i : Nat) : Statement (.haulPortFailure i) := of_zero rfl
theorem telemetryInterval (p : Nat) : Statement (.telemetryInterval p) := of_zero rfl
theorem checkpointInterval (p : Nat) : Statement (.checkpointInterval p) := of_zero rfl
theorem trapService (d : Nat) (n : Nat) : Statement (.trapService d n) := of_zero rfl
theorem killMessage (c : Nat) (x : Nat) : Statement (.killMessage c x) := of_zero rfl
theorem killSweepEnd (c : Nat) (x : Nat) : Statement (.killSweepEnd c x) := of_zero rfl
theorem killConfirmation (f : Nat) : Statement (.killConfirmation f) := of_zero rfl
theorem rollbackRestore (f : Nat) : Statement (.rollbackRestore f) := of_zero rfl
theorem channelRetirement (e : Nat) (d : Nat) : Statement (.channelRetirement e d) := of_zero rfl
theorem edgeDown (e : Nat) : Statement (.edgeDown e) := of_zero rfl
theorem ueCoreState (c : Nat) : Statement (.ueCoreState c) := of_zero rfl
theorem scrub (u : Nat) : Statement (.scrub u) := of_zero rfl
theorem sensorRead (d : Nat) (n : Nat) (v : Nat) : Statement (.sensorRead d n v) := of_zero rfl
theorem leaseRenewal : Statement (.leaseRenewal) := of_zero rfl
theorem leaseTakeover (i : Nat) : Statement (.leaseTakeover i) := of_zero rfl
theorem rowGate (d : Nat) (r : Nat) : Statement (.rowGate d r) := of_zero rfl
theorem rowUngate (d : Nat) (r : Nat) : Statement (.rowUngate d r) := of_zero rfl
theorem breakpointHit (c : Nat) (t : Nat) : Statement (.breakpointHit c t) := of_zero rfl
theorem debugEventDelivery (p : Nat) : Statement (.debugEventDelivery p) := of_zero rfl
theorem registerWrite (fn : Nat) (off : Nat) (v : BitVec 64) : Statement (.registerWrite fn off v) := of_zero rfl
theorem hltClear (p : Nat) (q : Nat) : Statement (.hltClear p q) := of_zero rfl
theorem invRange (p : Nat) : Statement (.invRange p) := of_zero rfl
theorem loadKey (p : Nat) : Statement (.loadKey p) := of_zero rfl
theorem revoke (p : Nat) : Statement (.revoke p) := of_zero rfl
theorem importEntry (p : Nat) : Statement (.importEntry p) := of_zero rfl
theorem exportRange (p : Nat) : Statement (.exportRange p) := of_zero rfl
theorem attreq (p : Nat) : Statement (.attreq p) := of_zero rfl
theorem tactKill (p : Nat) (n : Nat) : Statement (.tactKill p n) := of_zero rfl
theorem tactReplay (p : Nat) (n : Nat) : Statement (.tactReplay p n) := of_zero rfl
theorem tactPark (p : Nat) (n : Nat) : Statement (.tactPark p n) := of_zero rfl
theorem tactForward (p : Nat) (n : Nat) : Statement (.tactForward p n) := of_zero rfl
theorem tactRollback (p : Nat) (n : Nat) : Statement (.tactRollback p n) := of_zero rfl
theorem migrateCore (p : Nat) : Statement (.migrateCore p) := of_zero rfl
theorem recastCmd (p : Nat) : Statement (.recastCmd p) := of_zero rfl
theorem placeQueue (p : Nat) : Statement (.placeQueue p) := of_zero rfl
theorem createPart : Statement (.createPart) := of_zero rfl
theorem destroyPart : Statement (.destroyPart) := of_zero rfl
theorem ckset : Statement (.ckset) := of_zero rfl
theorem killCtx : Statement (.killCtx) := of_zero rfl
theorem kret : Statement (.kret) := of_zero rfl
theorem verifyImage : Statement (.verifyImage) := of_zero rfl
theorem activate : Statement (.activate) := of_zero rfl
theorem svnset : Statement (.svnset) := of_zero rfl
theorem ownadd : Statement (.ownadd) := of_zero rfl
theorem freshNonce : Statement (.freshNonce) := of_zero rfl
theorem ownxfer : Statement (.ownxfer) := of_zero rfl
theorem attest : Statement (.attest) := of_zero rfl
theorem capWrite (d : Nat) (v : BitVec 64) : Statement (.capWrite d v) := of_zero rfl
theorem gateWrite (d : Nat) (v : BitVec 64) : Statement (.gateWrite d v) := of_zero rfl
theorem clkWrite (d : Nat) (v : BitVec 64) : Statement (.clkWrite d v) := of_zero rfl
theorem haltSlots (p : Nat) : Statement (.haltSlots p) := of_zero rfl
theorem haltc (p : Nat) : Statement (.haltc p) := of_zero rfl
theorem resumeSlots (p : Nat) : Statement (.resumeSlots p) := of_zero rfl
theorem stepSlot (p : Nat) : Statement (.stepSlot p) := of_zero rfl
theorem rdreg (p : Nat) : Statement (.rdreg p) := of_zero rfl
theorem wrreg (p : Nat) : Statement (.wrreg p) := of_zero rfl
theorem rdspr (p : Nat) : Statement (.rdspr p) := of_zero rfl
theorem rdcell (p : Nat) : Statement (.rdcell p) := of_zero rfl
theorem brkset (p : Nat) : Statement (.brkset p) := of_zero rfl
theorem brkclr (p : Nat) : Statement (.brkclr p) := of_zero rfl
theorem debugThaw (p : Nat) : Statement (.debugThaw p) := of_zero rfl
theorem barrd (p : Nat) : Statement (.barrd p) := of_zero rfl
theorem illegalWord (w : BitVec 32) : Statement (.illegalWord w) := by
  simp only [Statement, encodeNat]; omega
theorem effectivePriorityRise (p : Nat) (q : Nat) : Statement (.effectivePriorityRise p q) := of_zero rfl
theorem trapRecordDelivery (p : Nat) : Statement (.trapRecordDelivery p) := of_zero rfl
theorem linkRetry (k : Nat) (loc : Nat) (n : Nat) : Statement (.linkRetry k loc n) := of_zero rfl
theorem transitFlit (pkg : Nat) (flit : Nat) : Statement (.transitFlit pkg flit) := of_zero rfl
theorem meshPacketDiscard (c : Nat) (op : Nat) (mask : Nat) : Statement (.meshPacketDiscard c op mask) := of_zero rfl
theorem pcieLinkTraining (port : Nat) (rate : Nat) (width : Nat) : Statement (.pcieLinkTraining port rate width) := of_zero rfl
theorem atomicEngineLineWriteback (cl : Nat) (line : Nat) : Statement (.atomicEngineLineWriteback cl line) := of_zero rfl

end Sys2Proof.Laws.Fits
end

