-- ==== Sys2Proof/Laws/Run.lean ====
section
/-! SUPPORT. A step in flight has the meaning of the row of the opcode table it names. -/

namespace Sys2Proof.Machine

/-- The row of the opcode table that a step in flight names. -/
def Ev.IsRow (e : Ev) (i : Instr) : Prop := ∀ s, runEv e s = exec i s

theorem run_powerOnReset : Ev.IsRow (.powerOnReset) (.powerOnReset) := fun _ => rfl
theorem run_spill {c t : Nat} : Ev.IsRow (.spill c t) (.spill c t) := fun _ => rfl
theorem run_fill {c t : Nat} : Ev.IsRow (.fill c t) (.fill c t) := fun _ => rfl
theorem run_scoreboardRetirement {c : Nat} : Ev.IsRow (.scoreboardRetirement c) (.scoreboardRetirement c) := fun _ => rfl
theorem run_tapeAppend {c : Nat} : Ev.IsRow (.tapeAppend c) (.tapeAppend c) := fun _ => rfl
theorem run_remoteReply {c t : Nat} : Ev.IsRow (.remoteReply c t) (.remoteReply c t) := fun _ => rfl
theorem run_sectorFetch {c f : Nat} : Ev.IsRow (.sectorFetch c f) (.sectorFetch c f) := fun _ => rfl
theorem run_readSetInstall {c f : Nat} : Ev.IsRow (.readSetInstall c f) (.readSetInstall c f) := fun _ => rfl
theorem run_sectorDrain {c e : Nat} : Ev.IsRow (.sectorDrain c e) (.sectorDrain c e) := fun _ => rfl
theorem run_drainAcknowledgement {c e : Nat} : Ev.IsRow (.drainAcknowledgement c e) (.drainAcknowledgement c e) := fun _ => rfl
theorem run_ldaAtHome {c t : Nat} : Ev.IsRow (.ldaAtHome c t) (.ldaAtHome c t) := fun _ => rfl
theorem run_strelAtHome {c t : Nat} : Ev.IsRow (.strelAtHome c t) (.strelAtHome c t) := fun _ => rfl
theorem run_atomicAtHome {c t : Nat} : Ev.IsRow (.atomicAtHome c t) (.atomicAtHome c t) := fun _ => rfl
theorem run_feAtHome {c t : Nat} : Ev.IsRow (.feAtHome c t) (.feAtHome c t) := fun _ => rfl
theorem run_feWithdrawal {c n : Nat} : Ev.IsRow (.feWithdrawal c n) (.feWithdrawal c n) := fun _ => rfl
theorem run_feLimitExpiry {c t : Nat} : Ev.IsRow (.feLimitExpiry c t) (.feLimitExpiry c t) := fun _ => rfl
theorem run_waitgeAtHome {c t : Nat} : Ev.IsRow (.waitgeAtHome c t) (.waitgeAtHome c t) := fun _ => rfl
theorem run_counterLimitExpiry {c t : Nat} : Ev.IsRow (.counterLimitExpiry c t) (.counterLimitExpiry c t) := fun _ => rfl
theorem run_sleepTimeout {c t : Nat} : Ev.IsRow (.sleepTimeout c t) (.sleepTimeout c t) := fun _ => rfl
theorem run_eventArrival {c t : Nat} : Ev.IsRow (.eventArrival c t) (.eventArrival c t) := fun _ => rfl
theorem run_portEntryArrival {c d : Nat} : Ev.IsRow (.portEntryArrival c d) (.portEntryArrival c d) := fun _ => rfl
theorem run_orderTokenGrant {c t : Nat} : Ev.IsRow (.orderTokenGrant c t) (.orderTokenGrant c t) := fun _ => rfl
theorem run_barrierEpisodeComplete {b : Nat} : Ev.IsRow (.barrierEpisodeComplete b) (.barrierEpisodeComplete b) := fun _ => rfl
theorem run_ckptCollective {f : Nat} : Ev.IsRow (.ckptCollective f) (.ckptCollective f) := fun _ => rfl
theorem run_gangerExitComplete {c : Nat} : Ev.IsRow (.gangerExitComplete c) (.gangerExitComplete c) := fun _ => rfl
theorem run_icacheLineFill {c t : Nat} : Ev.IsRow (.icacheLineFill c t) (.icacheLineFill c t) := fun _ => rfl
theorem run_translationWalk {c t : Nat} : Ev.IsRow (.translationWalk c t) (.translationWalk c t) := fun _ => rfl
theorem run_invalidation {p c : Nat} : Ev.IsRow (.invalidation p c) (.invalidation p c) := fun _ => rfl
theorem run_translationChangeComplete {p : Nat} : Ev.IsRow (.translationChangeComplete p) (.translationChangeComplete p) := fun _ => rfl
theorem run_sequencerAccept {c : Nat} : Ev.IsRow (.sequencerAccept c) (.sequencerAccept c) := fun _ => rfl
theorem run_kStep {c : Nat} : Ev.IsRow (.kStep c) (.kStep c) := fun _ => rfl
theorem run_engineCommandComplete {c q : Nat} : Ev.IsRow (.engineCommandComplete c q) (.engineCommandComplete c q) := fun _ => rfl
theorem run_engineFault {c q : Nat} : Ev.IsRow (.engineFault c q) (.engineFault c q) := fun _ => rfl
theorem run_qjoinFenceComplete {c : Nat} : Ev.IsRow (.qjoinFenceComplete c) (.qjoinFenceComplete c) := fun _ => rfl
theorem run_ringChunkStart {c : Nat} : Ev.IsRow (.ringChunkStart c) (.ringChunkStart c) := fun _ => rfl
theorem run_ringChunkComplete {c : Nat} : Ev.IsRow (.ringChunkComplete c) (.ringChunkComplete c) := fun _ => rfl
theorem run_feedsWordDelivery {c : Nat} : Ev.IsRow (.feedsWordDelivery c) (.feedsWordDelivery c) := fun _ => rfl
theorem run_gatherLead {c : Nat} : Ev.IsRow (.gatherLead c) (.gatherLead c) := fun _ => rfl
theorem run_gatherWindowClose {c : Nat} : Ev.IsRow (.gatherWindowClose c) (.gatherWindowClose c) := fun _ => rfl
theorem run_stealRequest {c t : Nat} : Ev.IsRow (.stealRequest c t) (.stealRequest c t) := fun _ => rfl
theorem run_rampCreditRefill {d : Nat} : Ev.IsRow (.rampCreditRefill d) (.rampCreditRefill d) := fun _ => rfl
theorem run_leaveGrant {d : Nat} : Ev.IsRow (.leaveGrant d) (.leaveGrant d) := fun _ => rfl
theorem run_leaveReturn {d : Nat} : Ev.IsRow (.leaveReturn d) (.leaveReturn d) := fun _ => rfl
theorem run_claim {c t : Nat} : Ev.IsRow (.claim c t) (.claim c t) := fun _ => rfl
theorem run_freeze {b : Nat} : Ev.IsRow (.freeze b) (.freeze b) := fun _ => rfl
theorem run_latchPulse {c : Nat} : Ev.IsRow (.latchPulse c) (.latchPulse c) := fun _ => rfl
theorem run_wsDataPulse {c : Nat} : Ev.IsRow (.wsDataPulse c) (.wsDataPulse c) := fun _ => rfl
theorem run_rsDataPulse {c : Nat} : Ev.IsRow (.rsDataPulse c) (.rsDataPulse c) := fun _ => rfl
theorem run_scalePulse {c : Nat} : Ev.IsRow (.scalePulse c) (.scalePulse c) := fun _ => rfl
theorem run_zeroPointPulse {c : Nat} : Ev.IsRow (.zeroPointPulse c) (.zeroPointPulse c) := fun _ => rfl
theorem run_endPulse {c : Nat} : Ev.IsRow (.endPulse c) (.endPulse c) := fun _ => rfl
theorem run_thawReturn {b : Nat} : Ev.IsRow (.thawReturn b) (.thawReturn b) := fun _ => rfl
theorem run_doorbellWrite {p q : Nat} : Ev.IsRow (.doorbellWrite p q) (.doorbellWrite p q) := fun _ => rfl
theorem run_dispatch {p : Nat} : Ev.IsRow (.dispatch p) (.dispatch p) := fun _ => rfl
theorem run_gangerStart {f : Nat} : Ev.IsRow (.gangerStart f) (.gangerStart f) := fun _ => rfl
theorem run_replayFallback {f : Nat} : Ev.IsRow (.replayFallback f) (.replayFallback f) := fun _ => rfl
theorem run_corePartEnd {c : Nat} : Ev.IsRow (.corePartEnd c) (.corePartEnd c) := fun _ => rfl
theorem run_retirement {f : Nat} : Ev.IsRow (.retirement f) (.retirement f) := fun _ => rfl
theorem run_dryTimerExpiry {c : Nat} : Ev.IsRow (.dryTimerExpiry c) (.dryTimerExpiry c) := fun _ => rfl
theorem run_coreRecast {c r : Nat} : Ev.IsRow (.coreRecast c r) (.coreRecast c r) := fun _ => rfl
theorem run_migrationSwitch {c : Nat} : Ev.IsRow (.migrationSwitch c) (.migrationSwitch c) := fun _ => rfl
theorem run_migrationResume {c : Nat} : Ev.IsRow (.migrationResume c) (.migrationResume c) := fun _ => rfl
theorem run_partSend {n : Nat} : Ev.IsRow (.partSend n) (.partSend n) := fun _ => rfl
theorem run_partAcknowledgement {n : Nat} : Ev.IsRow (.partAcknowledgement n) (.partAcknowledgement n) := fun _ => rfl
theorem run_inboundRead {port fn bar off len : Nat} : Ev.IsRow (.inboundRead port fn bar off len) (.inboundRead port fn bar off len) := fun _ => rfl
theorem run_inboundReadPerform {n : Nat} : Ev.IsRow (.inboundReadPerform n) (.inboundReadPerform n) := fun _ => rfl
theorem run_peerReplyTimeout {c : Nat} : Ev.IsRow (.peerReplyTimeout c) (.peerReplyTimeout c) := fun _ => rfl
theorem run_haulPortFailure {i : Nat} : Ev.IsRow (.haulPortFailure i) (.haulPortFailure i) := fun _ => rfl
theorem run_telemetryInterval {p : Nat} : Ev.IsRow (.telemetryInterval p) (.telemetryInterval p) := fun _ => rfl
theorem run_checkpointInterval {p : Nat} : Ev.IsRow (.checkpointInterval p) (.checkpointInterval p) := fun _ => rfl
theorem run_trapService {d n : Nat} : Ev.IsRow (.trapService d n) (.trapService d n) := fun _ => rfl
theorem run_killMessage {c x : Nat} : Ev.IsRow (.killMessage c x) (.killMessage c x) := fun _ => rfl
theorem run_killSweepEnd {c x : Nat} : Ev.IsRow (.killSweepEnd c x) (.killSweepEnd c x) := fun _ => rfl
theorem run_killConfirmation {f : Nat} : Ev.IsRow (.killConfirmation f) (.killConfirmation f) := fun _ => rfl
theorem run_rollbackRestore {f : Nat} : Ev.IsRow (.rollbackRestore f) (.rollbackRestore f) := fun _ => rfl
theorem run_channelRetirement {e d : Nat} : Ev.IsRow (.channelRetirement e d) (.channelRetirement e d) := fun _ => rfl
theorem run_edgeDown {e : Nat} : Ev.IsRow (.edgeDown e) (.edgeDown e) := fun _ => rfl
theorem run_ueCoreState {c : Nat} : Ev.IsRow (.ueCoreState c) (.ueCoreState c) := fun _ => rfl
theorem run_scrub {u : Nat} : Ev.IsRow (.scrub u) (.scrub u) := fun _ => rfl
theorem run_sensorRead {d n v : Nat} : Ev.IsRow (.sensorRead d n v) (.sensorRead d n v) := fun _ => rfl
theorem run_leaseRenewal : Ev.IsRow (.leaseRenewal) (.leaseRenewal) := fun _ => rfl
theorem run_leaseTakeover {i : Nat} : Ev.IsRow (.leaseTakeover i) (.leaseTakeover i) := fun _ => rfl
theorem run_rowGate {d r : Nat} : Ev.IsRow (.rowGate d r) (.rowGate d r) := fun _ => rfl
theorem run_rowUngate {d r : Nat} : Ev.IsRow (.rowUngate d r) (.rowUngate d r) := fun _ => rfl
theorem run_breakpointHit {c t : Nat} : Ev.IsRow (.breakpointHit c t) (.breakpointHit c t) := fun _ => rfl
theorem run_debugEventDelivery {p : Nat} : Ev.IsRow (.debugEventDelivery p) (.debugEventDelivery p) := fun _ => rfl
theorem run_hltClear {p q : Nat} : Ev.IsRow (.hltClear p q) (.hltClear p q) := fun _ => rfl
theorem run_invRange {p : Nat} : Ev.IsRow (.invRange p) (.invRange p) := fun _ => rfl
theorem run_loadKey {p : Nat} : Ev.IsRow (.loadKey p) (.loadKey p) := fun _ => rfl
theorem run_revoke {p : Nat} : Ev.IsRow (.revoke p) (.revoke p) := fun _ => rfl
theorem run_importEntry {p : Nat} : Ev.IsRow (.importEntry p) (.importEntry p) := fun _ => rfl
theorem run_exportRange {p : Nat} : Ev.IsRow (.exportRange p) (.exportRange p) := fun _ => rfl
theorem run_attreq {p : Nat} : Ev.IsRow (.attreq p) (.attreq p) := fun _ => rfl
theorem run_tactKill {p n : Nat} : Ev.IsRow (.tactKill p n) (.tactKill p n) := fun _ => rfl
theorem run_tactReplay {p n : Nat} : Ev.IsRow (.tactReplay p n) (.tactReplay p n) := fun _ => rfl
theorem run_tactPark {p n : Nat} : Ev.IsRow (.tactPark p n) (.tactPark p n) := fun _ => rfl
theorem run_tactForward {p n : Nat} : Ev.IsRow (.tactForward p n) (.tactForward p n) := fun _ => rfl
theorem run_tactRollback {p n : Nat} : Ev.IsRow (.tactRollback p n) (.tactRollback p n) := fun _ => rfl
theorem run_migrateCore {p : Nat} : Ev.IsRow (.migrateCore p) (.migrateCore p) := fun _ => rfl
theorem run_recastCmd {p : Nat} : Ev.IsRow (.recastCmd p) (.recastCmd p) := fun _ => rfl
theorem run_placeQueue {p : Nat} : Ev.IsRow (.placeQueue p) (.placeQueue p) := fun _ => rfl
theorem run_createPart : Ev.IsRow (.createPart) (.createPart) := fun _ => rfl
theorem run_destroyPart : Ev.IsRow (.destroyPart) (.destroyPart) := fun _ => rfl
theorem run_ckset : Ev.IsRow (.ckset) (.ckset) := fun _ => rfl
theorem run_killCtx : Ev.IsRow (.killCtx) (.killCtx) := fun _ => rfl
theorem run_kret : Ev.IsRow (.kret) (.kret) := fun _ => rfl
theorem run_verifyImage : Ev.IsRow (.verifyImage) (.verifyImage) := fun _ => rfl
theorem run_activate : Ev.IsRow (.activate) (.activate) := fun _ => rfl
theorem run_svnset : Ev.IsRow (.svnset) (.svnset) := fun _ => rfl
theorem run_ownadd : Ev.IsRow (.ownadd) (.ownadd) := fun _ => rfl
theorem run_freshNonce : Ev.IsRow (.freshNonce) (.freshNonce) := fun _ => rfl
theorem run_ownxfer : Ev.IsRow (.ownxfer) (.ownxfer) := fun _ => rfl
theorem run_attest : Ev.IsRow (.attest) (.attest) := fun _ => rfl
theorem run_haltSlots {p : Nat} : Ev.IsRow (.haltSlots p) (.haltSlots p) := fun _ => rfl
theorem run_haltc {p : Nat} : Ev.IsRow (.haltc p) (.haltc p) := fun _ => rfl
theorem run_resumeSlots {p : Nat} : Ev.IsRow (.resumeSlots p) (.resumeSlots p) := fun _ => rfl
theorem run_stepSlot {p : Nat} : Ev.IsRow (.stepSlot p) (.stepSlot p) := fun _ => rfl
theorem run_rdreg {p : Nat} : Ev.IsRow (.rdreg p) (.rdreg p) := fun _ => rfl
theorem run_wrreg {p : Nat} : Ev.IsRow (.wrreg p) (.wrreg p) := fun _ => rfl
theorem run_rdspr {p : Nat} : Ev.IsRow (.rdspr p) (.rdspr p) := fun _ => rfl
theorem run_rdcell {p : Nat} : Ev.IsRow (.rdcell p) (.rdcell p) := fun _ => rfl
theorem run_brkset {p : Nat} : Ev.IsRow (.brkset p) (.brkset p) := fun _ => rfl
theorem run_brkclr {p : Nat} : Ev.IsRow (.brkclr p) (.brkclr p) := fun _ => rfl
theorem run_debugThaw {p : Nat} : Ev.IsRow (.debugThaw p) (.debugThaw p) := fun _ => rfl
theorem run_barrd {p : Nat} : Ev.IsRow (.barrd p) (.barrd p) := fun _ => rfl
theorem run_effectivePriorityRise {p q : Nat} : Ev.IsRow (.effectivePriorityRise p q) (.effectivePriorityRise p q) := fun _ => rfl
theorem run_trapRecordDelivery {p : Nat} : Ev.IsRow (.trapRecordDelivery p) (.trapRecordDelivery p) := fun _ => rfl
theorem run_linkRetry {k loc n : Nat} : Ev.IsRow (.linkRetry k loc n) (.linkRetry k loc n) := fun _ => rfl
theorem run_transitFlit {pkg flit : Nat} : Ev.IsRow (.transitFlit pkg flit) (.transitFlit pkg flit) := fun _ => rfl
theorem run_meshPacketDiscard {c op mask : Nat} : Ev.IsRow (.meshPacketDiscard c op mask) (.meshPacketDiscard c op mask) := fun _ => rfl
theorem run_pcieLinkTraining {port rate width : Nat} : Ev.IsRow (.pcieLinkTraining port rate width) (.pcieLinkTraining port rate width) := fun _ => rfl
theorem run_atomicEngineLineWriteback {cl line : Nat} : Ev.IsRow (.atomicEngineLineWriteback cl line) (.atomicEngineLineWriteback cl line) := fun _ => rfl

end Sys2Proof.Machine
end

