-- ==== Sys2Proof/Laws/Thread.lean ====
section
/-! SUPPORT. What the shared operations on the issuing thread do and leave alone: a change of the thread, a change of the
core, retiring with a result, committing a result with its flags. -/

namespace Sys2Proof.Machine

/-- A change of the issuing core leaves everything else alone. -/
theorem onlyCore_modMe (s : State) (f : Core → Core) : OnlyCore s (s.modMe f) :=
  ⟨rfl, fun _ h => core_modCore_ne s f h⟩

/-- A change of the issuing thread leaves every byte of memory alone. -/
theorem sameMemory_modTh (s : State) (f : Thread → Thread) : SameMemory s (s.modTh f) := by
  refine fun a => ⟨fun c => ?_, rfl, rfl⟩
  simp only [State.lsByte, State.modTh, State.modThr, core_modCore]
  split
  · rename_i h; subst h; rfl
  · rfl

/-- A change of the issuing thread leaves everything else alone. -/
theorem onlyThread_modTh (s : State) (f : Thread → Thread) : OnlyThread s (s.modTh f) where
  toOnlyCore := onlyCore_modMe s _
  core := by rw [me_modTh]; rfl
  slots := fun k h => by rw [me_modTh]; exact thr_modThr_ne _ _ h
  memory := sameMemory_modTh s f

/-- No general register changes but by writing it. -/
@[simp] theorem reg_clearPfx (h : Thread) (r : Reg) : h.clearPfx.reg r = h.reg r := rfl
@[simp] theorem reg_run (h : Thread) (r : Reg) : h.run.reg r = h.reg r := rfl

/-- The loop step changes the loop counts alone (R29). -/
theorem loopStep_fst (h : Thread) (p : BitVec 48) :
    (h.loopStep p).1 = { h with lc0 := (h.loopStep p).1.lc0, lc1 := (h.loopStep p).1.lc1 } := by
  unfold Thread.loopStep
  dsimp only
  repeat' split
  all_goals rfl

/-- The loop step depends on the loop registers alone. -/
theorem loopStep_congr {h k : Thread} (e : (h.ls0, h.le0, h.lc0, h.ls1, h.le1, h.lc1) = (k.ls0, k.le0, k.lc0, k.ls1, k.le1, k.lc1))
    (p : BitVec 48) : (h.loopStep p).2 = (k.loopStep p).2 ∧ (h.loopStep p).1.lc0 = (k.loopStep p).1.lc0 ∧
      (h.loopStep p).1.lc1 = (k.loopStep p).1.lc1 := by
  simp only [Prod.mk.injEq] at e
  obtain ⟨e1, e2, e3, e4, e5, e6⟩ := e
  unfold Thread.loopStep
  dsimp only
  rw [e1, e2, e3, e4, e5, e6]
  repeat' split
  all_goals simp_all

/-- The address of an instruction depends on what was captured and on the program counter alone (R142). -/
theorem at_congr {h k : Thread} (e : (h.opnd, h.pc) = (k.opnd, k.pc)) : h.at' = k.at' := by
  simp only [Prod.mk.injEq] at e
  unfold Thread.at' Thread.operands
  rw [e.1, e.2]
  cases k.opnd <;> rfl

/-- A thread on the wheel reads its registers, and its address, as they stand. -/
@[simp] theorem src_of_none {h : Thread} (e : h.opnd = none) (r : Reg) : h.src r = h.reg r := by
  unfold Thread.src Thread.operands; rw [e]; rfl
@[simp] theorem at_of_none {h : Thread} (e : h.opnd = none) : h.at' = h.pc := by
  unfold Thread.at' Thread.operands; rw [e]

/-- What retiring leaves, field by field. -/
theorem retire_eq (h : Thread) : h.retire =
    { h.clearPfx with pc := (h.loopStep h.at').2, lc0 := (h.loopStep h.at').1.lc0, lc1 := (h.loopStep h.at').1.lc1,
                      st := .ready, wait := .none, opnd := none, limit := none, repCause := 0, repCount := 0 } := by
  have a : h.clearPfx.at' = h.at' := at_congr rfl
  have c := loopStep_congr (h := h.clearPfx) (k := h) rfl h.at'
  unfold Thread.retire Thread.advance
  rw [a]
  show Thread.run { (h.clearPfx.loopStep h.at').1 with pc := (h.clearPfx.loopStep h.at').2 } = _
  rw [loopStep_fst, c.1, c.2.1, c.2.2]
  rfl

/-- Retiring writes no general register. -/
@[simp] theorem reg_retire (h : Thread) (r : Reg) : h.retire.reg r = h.reg r := by rw [retire_eq]; rfl

/-- Writing a register changes the registers alone. -/
theorem setReg_eq (h : Thread) (d : Reg) (v : Word) :
    h.setReg d v = { h with g := (h.setReg d v).g, win := (h.setReg d v).win } := by
  unfold Thread.setReg
  split
  · rfl
  · split <;> rfl

/-- A thread changed in its registers, flags and seed, then retired, has completed. -/
theorem completes_retire (h : Thread) (g w : Vector Word 8) (fl : BitVec 5) (sd : Word) :
    h.Completes (Thread.retire { h with g := g, win := w, fxf := fl, seed := sd }) fl sd := by
  have a : Thread.at' { h with g := g, win := w, fxf := fl, seed := sd } = h.at' := at_congr rfl
  have c := loopStep_congr (h := { h with g := g, win := w, fxf := fl, seed := sd }) (k := h) rfl h.at'
  rw [retire_eq, a]
  exact ⟨⟨rfl, rfl, rfl, rfl⟩, rfl, Prod.ext c.1 (Prod.ext c.2.1 c.2.2), ⟨rfl, rfl⟩, rfl⟩

/-- A thread changed in its flags and seed, written in one register and retired, has completed. -/
theorem completes_setReg (h : Thread) (d : Reg) (v : Word) (fl : BitVec 5) (sd : Word) :
    h.Completes (({ h with fxf := fl, seed := sd } : Thread).setReg d v).retire fl sd := by
  rw [setReg_eq]
  exact completes_retire h _ _ fl sd

/-- Retiring with a result is one change of the thread. -/
theorem retireWith_eq (s : State) (d : Reg) (v : Word) :
    s.retireWith d v = s.modTh (fun h => (h.setReg d v).retire) := by
  simp only [State.retireWith, State.retire, State.writeReg, modTh_modTh]

/-- Committing a result with its flags is one change of the thread (R105, R180). -/
theorem commit_eq (s : State) (d : Reg) (r : Rc × Word) :
    s.commit d r = s.modTh (fun h => ({ h with fxf := h.fxf ||| r.1.fl, seed := r.1.seed }.setReg d r.2).retire) := by
  simp only [State.commit, State.retire, modTh_modTh]

/-- An instruction that retires with a result gives it. -/
theorem gives_of_retireWith {i : Instr} {s : State} {d : Reg} {v : Word} (h : exec i s = .next (s.retireWith d v)) :
    Gives i s d v := by
  refine ⟨_, h, fun r => ?_, ?_, ?_⟩
  · rw [retireWith_eq, th_modTh, reg_retire, reg_setReg]
  · rw [retireWith_eq]; exact onlyThread_modTh s _
  · rw [retireWith_eq, th_modTh]; exact completes_setReg s.th d v s.th.fxf s.th.seed

/-- An instruction that commits a result gives it, with its flags and seed. -/
theorem givesF_of_commit {i : Instr} {s : State} {d : Reg} {r : Rc × Word} (h : exec i s = .next (s.commit d r)) :
    GivesF i s d r.2 (s.th.fxf ||| r.1.fl) r.1.seed := by
  refine ⟨_, h, fun q => ?_, ?_, ?_⟩
  · rw [commit_eq, th_modTh, reg_retire, reg_setReg]; rfl
  · rw [commit_eq]; exact onlyThread_modTh s _
  · rw [commit_eq, th_modTh]; exact completes_setReg s.th d r.2 _ _

end Sys2Proof.Machine
end

