-- ==== Sys2Proof/Tests/Slice0.lean ====
section
/-! SUPPORT. Tests: words written out from the encodings of 03 R74 to R86 decode to the instructions they stand for; ill-formed
terms are refused; and for each statement, states that meet its hypotheses, with what the instruction does there. Expected
values come from the manual's tables and worked cases, or by hand from its rules. -/

namespace Sys2Proof.Tests

open Sys2Proof.Machine Claims

set_option Elab.async false
set_option exponentiation.threshold 600

/-! ## Decoding -/

/-- Every word of the list decodes to the instruction beside it. -/
def reads (l : List (Nat × Instr)) : Bool := l.all (fun e => decide (decodeTableWord 32 e.1 = some e.2))

theorem test_decode_integer : reads [
    (0x06594000, .add 9 6 5),
    (0x06594040, .addw 9 6 5),
    (0x06594080, .sub 9 6 5),
    (0x065940C0, .subw 9 6 5),
    (0x06594100, .mul 9 6 5),
    (0x06594140, .mulw 9 6 5),
    (0x06594180, .mulh 9 6 5),
    (0x065941C0, .mulhu 9 6 5),
    (0x06594200, .div 9 6 5),
    (0x06594240, .divu 9 6 5),
    (0x06594280, .rem 9 6 5),
    (0x065942C0, .remu 9 6 5),
    (0x06594300, .andr 9 6 5),
    (0x06594340, .orr 9 6 5),
    (0x06594380, .xorr 9 6 5),
    (0x065943C0, .andn 9 6 5),
    (0x06594400, .orn 9 6 5),
    (0x06594440, .shl 9 6 5),
    (0x06594480, .shr 9 6 5),
    (0x065944C0, .sar 9 6 5),
    (0x06594500, .rol 9 6 5),
    (0x06594540, .shlw 9 6 5),
    (0x06594580, .shrw 9 6 5),
    (0x065945C0, .sarw 9 6 5),
    (0x06594600, .minS 9 6 5),
    (0x06594640, .maxS 9 6 5),
    (0x06594680, .minu 9 6 5),
    (0x065946C0, .maxu 9 6 5),
    (0x06580700, .abs 9 6),
    (0x06580740, .clz 9 6),
    (0x06580780, .ctz 9 6),
    (0x065807C0, .popc 9 6),
    (0x06580800, .brev 9 6),
    (0x06580840, .bswap 9 6),
    (0x065808A5, .sext 9 6 37),
    (0x065808E5, .zext 9 6 37),
    (0x06594900, .extr 9 6 5),
    (0x06594940, .insr 9 6 5),
    (0x06594980, .slt 9 6 5),
    (0x065949C0, .sltu 9 6 5),
    (0x06594A00, .seq 9 6 5),
    (0x06594A40, .sne 9 6 5),
    (0x06594A82, .lea 9 6 5 2)] = true := by decide

theorem test_decode_single : reads [
    (0x0A5A0005, .addi 9 6 131077),
    (0x0E5A0005, .addwi 9 6 131077),
    (0x125A0005, .andi 9 6 131077),
    (0x165A0005, .ori 9 6 131077),
    (0x1A5A0005, .xori 9 6 131077),
    (0x1E580025, .shli 9 6 37),
    (0x22580025, .shri 9 6 37),
    (0x26580025, .sari 9 6 37),
    (0x2A5A0005, .slti 9 6 131077),
    (0x2E5A0005, .sltui 9 6 131077),
    (0x32420005, .li 9 131077),
    (0x365A0005, .lih 9 6 131077),
    (0x3A420005, .leai 9 131077),
    (0x46000005, .br 33554437),
    (0x4A000005, .call 33554437),
    (0x50650005, .loopSet 1 9 65541),
    (0x5A5A0005, .ldb 9 6 131077),
    (0x5E5A0005, .ldbu 9 6 131077),
    (0x625A0005, .ldh 9 6 131077),
    (0x665A0005, .ldhu 9 6 131077),
    (0x6A5A0005, .ldw 9 6 131077),
    (0x6E5A0005, .ldwu 9 6 131077),
    (0x725A0005, .ldd 9 6 131077),
    (0x765A0005, .stb 9 6 131077),
    (0x7A5A0005, .sth 9 6 131077),
    (0x7E5A0005, .stw 9 6 131077),
    (0x825A0005, .std 9 6 131077),
    (0x9E400085, .mfs 9 133),
    (0xA0240085, .mts 9 133),
    (0xA6000005, .hint 33554437)] = true := by decide

theorem test_decode_compare_skip : reads [
    (0x3C24C002, .skeqReg 9 6 2),
    (0x3C270016, .skeqImm 9 16389 2),
    (0x3C64C002, .skneReg 9 6 2),
    (0x3C670016, .skneImm 9 16389 2),
    (0x3CA4C002, .skltReg 9 6 2),
    (0x3CA70016, .skltImm 9 16389 2),
    (0x3CE4C002, .skgeReg 9 6 2),
    (0x3CE70016, .skgeImm 9 16389 2),
    (0x3D24C002, .skltuReg 9 6 2),
    (0x3D270016, .skltuImm 9 16389 2),
    (0x3D64C002, .skgeuReg 9 6 2),
    (0x3D670016, .skgeuImm 9 16389 2),
    (0x3DA4C002, .skbsReg 9 6 2),
    (0x3DA60096, .skbsImm 9 37 2),
    (0x3DE4C002, .skbcReg 9 6 2),
    (0x3DE60096, .skbcImm 9 37 2),
    (0x3E24C002, .skfeq 9 6 2),
    (0x3E64C002, .skflt 9 6 2),
    (0x3EA4C002, .skfle 9 6 2),
    (0x3EE4C002, .skfun 9 6 2)] = true := by decide

theorem test_decode_float : reads [
    (0x42594000, .fadd 9 6 5),
    (0x42594040, .fsub 9 6 5),
    (0x42594080, .fmul 9 6 5),
    (0x425940C3, .fma 9 6 5 3),
    (0x42594103, .fms 9 6 5 3),
    (0x42594143, .fnma 9 6 5 3),
    (0x42594180, .fdiv 9 6 5),
    (0x425801C0, .fsqrt 9 6),
    (0x42594200, .fmin 9 6 5),
    (0x42594240, .fmax 9 6 5),
    (0x42580280, .fabs 9 6),
    (0x425802C0, .fneg 9 6),
    (0x42594300, .fsgn 9 6 5),
    (0x42580340, .fclass 9 6),
    (0x425803A5, .fcvtfi 9 6 37),
    (0x425803E5, .fcvtif 9 6 37),
    (0x42580435, .fcvth 9 6 1 21)] = true := by decide

theorem test_decode_branch : reads [
    (0x4C260005, .bz 9 131077),
    (0x4C660005, .bnz 9 131077)] = true := by decide

theorem test_decode_control : reads [
    (0x54240000, .brr 9),
    (0x54240040, .callr 9),
    (0x54240080, .ret 9),
    (0x540000C0, .exitThread),
    (0x54000100, .nop),
    (0x54658140, .loopr 1 9 6)] = true := by decide

theorem test_decode_indexed : reads [
    (0x8659400E, .ldx 9 6 5 1 1 2),
    (0x8659404A, .stx 9 6 5 1 2),
    (0x865800AE, .lda 9 6 5 1 2),
    (0x865800EA, .strel 9 6 5 2)] = true := by decide

theorem test_decode_atomic : reads [
    (0x8A594001, .aadd 9 6 5 1),
    (0x8A594041, .aand 9 6 5 1),
    (0x8A594081, .aor 9 6 5 1),
    (0x8A5940C1, .axor 9 6 5 1),
    (0x8A594101, .amin 9 6 5 1),
    (0x8A594141, .amax 9 6 5 1),
    (0x8A594181, .aminu 9 6 5 1),
    (0x8A5941C1, .amaxu 9 6 5 1),
    (0x8A594201, .aswp 9 6 5 1),
    (0x8A594241, .acas 9 6 5 1),
    (0x8A594280, .afadd 9 6 5),
    (0x8A5942C0, .afmin 9 6 5),
    (0x8A594300, .afmax 9 6 5)] = true := by decide

theorem test_decode_full_empty : reads [
    (0x8E594000, .ldfe 9 6 5),
    (0x8E594040, .ldff 9 6 5),
    (0x8E594080, .stef 9 6 5),
    (0x8E5800C0, .stff 9 6),
    (0x8E580100, .feprobe 9 6),
    (0x8C240141, .feset 9 1)] = true := by decide

theorem test_decode_port : reads [
    (0x90240002, .psend 9 2),
    (0x92400042, .precv 9 2),
    (0x92400082, .ppeek 9 2),
    (0x902580C2, .psendq 9 6 2),
    (0x92418102, .precvq 9 6 2)] = true := by decide

theorem test_decode_sync : reads [
    (0x94000000, .pend),
    (0x94000056, .fence 5 2),
    (0x94000096, .bar 5 2),
    (0x964000C0, .wait 9),
    (0x94258105, .evt 9 6 5),
    (0x96594140, .waitge 9 6 5),
    (0x96580180, .sleep 9 6),
    (0x964001C0, .ckpt 9),
    (0x94000225, .brk 37),
    (0x94000265, .trapCode 37)] = true := by decide

theorem test_decode_system : reads [
    (0x9A594000, .tstart 9 6 5),
    (0x9A594040, .treap 9 6 5),
    (0x9A580080, .tkill 9 6),
    (0x9A4000E5, .mfa 9 37),
    (0x98240125, .mta 9 37)] = true := by decide

theorem test_decode_modifier : reads [
    (0xA8000005, .hmodRound 5),
    (0xA9000000, .hmodSr),
    (0xAA000005, .hmodScope 5),
    (0xAB000015, .hmodLanes 21)] = true := by decide

theorem test_decode_vector : reads [
    (0xAE594000, .vadd 9 6 5),
    (0xAE594040, .vsub 9 6 5),
    (0xAE594080, .vadds 9 6 5),
    (0xAE5940C0, .vsubs 9 6 5),
    (0xAE594100, .vmul 9 6 5),
    (0xAE594140, .vmulh 9 6 5),
    (0xAE594180, .vmac 9 6 5),
    (0xAE5941C0, .vdot 9 6 5),
    (0xAE594200, .vsum 9 6 5),
    (0xAE580240, .vmaxr 9 6),
    (0xAE594280, .vmin 9 6 5),
    (0xAE5942C0, .vmax 9 6 5),
    (0xAE580300, .vabs 9 6),
    (0xAE580340, .vneg 9 6),
    (0xAE594380, .vavg 9 6 5),
    (0xAE5943C0, .vshl 9 6 5),
    (0xAE594400, .vshr 9 6 5),
    (0xAE594440, .vsar 9 6 5),
    (0xAE594485, .vcmp 9 6 5 5),
    (0xAE5944C0, .vsel 9 6 5),
    (0xAE580500, .vsplat 9 6),
    (0xAE594540, .vshuf 9 6 5),
    (0xAE594580, .vpack 9 6 5),
    (0xAE5805C0, .vunpkl 9 6),
    (0xAE580600, .vunpkh 9 6),
    (0xAE594665, .vcvt 9 6 5 37),
    (0xAE580680, .vnzs 9 6),
    (0xAE5946C0, .vcompr 9 6 5),
    (0xAE580700, .vrelu 9 6),
    (0xAE594740, .vclamp 9 6 5),
    (0xAE580780, .vexp2 9 6),
    (0xAE5807C0, .vlog2 9 6),
    (0xAE580800, .vrcp 9 6),
    (0xAE580840, .vrsq 9 6)] = true := by decide

theorem test_decode_tensor : reads [
    (0xB0240060, .tld 9 6),
    (0xB0240160, .tst 9 6),
    (0xB0258250, .tsetf 9 6 5),
    (0xB0240300, .geo 9),
    (0xB0000400, .mzero),
    (0xB2594538, .mtile 9 6 5 3 2),
    (0xB0258650, .mst 9 6 5),
    (0xB0240708, .mlatch 9 2),
    (0xB2594800, .gang 9 6 5),
    (0xB0258908, .feed 9 6 2),
    (0xB2594A38, .feeds 9 6 5 3 2),
    (0xB2418B08, .drainWord 9 6 2),
    (0xB2580C00, .thawBench 9 6),
    (0xB2580D00, .gstat 9 6)] = true := by decide

theorem test_decode_engine : reads [
    (0xB6594038, .copyElems 9 6 5 3 2),
    (0xB6594138, .copy2 9 6 5 3 2),
    (0xB6594230, .copyring 9 6 5 3),
    (0xB6400300, .ringadv 9),
    (0xB6594438, .gather 9 6 5 3 2),
    (0xB6594538, .scatter 9 6 5 3 2),
    (0xB6594638, .scatadd 9 6 5 3 2),
    (0xB4258700, .qjoin 9 6),
    (0xB6580800, .cstat 9 6)] = true := by decide

theorem test_decode_tape : reads [
    (0xB8258054, .pgstart 9 6 5 1),
    (0xBA580104, .pgnext 9 6 1),
    (0xB8240204, .pgsave 9 1),
    (0xB8240304, .pgload 9 1),
    (0xBA580450, .pginv 9 6 5),
    (0xBA594800, .dqpush 9 6 5),
    (0xBA400900, .dqpop 9),
    (0xBA400A00, .dqsplit 9),
    (0xBA580B00, .dqsteal 9 6),
    (0xBA400C00, .dqcount 9),
    (0xBA595000, .trec 9 6 5),
    (0xBA401100, .tend 9),
    (0xB8259200, .tguard 9 6),
    (0xBA595300, .tplay 9 6 5)] = true := by decide

/-! ## Well-formedness: a term that fails each check, and terms that pass -/

/-- Each term fails the check named beside it. -/
def fails (l : List (Instr × FormError)) : Bool := l.all (fun e => decide (formError e.1 = some e.2) && !WellFormed e.1)

theorem test_ill_formed : fails [(.skeqReg 1 2 0, .skipCount), (.skfeq 1 2 0, .skipCount), (.fcvtfi 1 2 6, .convertFormat),
    (.fcvth 1 2 3 10, .halfFormat), (.loopSet 0 1 0, .loopOffset), (.ldx 1 2 3 0 1 3, .zeroExtendWidth), (.bar 5 1, .scope),
    (.fence 1 3, .fenceKind), (.mta 1 0x28, .cellRegister), (.hmodRound 6, .roundMode), (.hmodLanes 11, .laneFormat),
    (.vcmp 1 2 3 6, .comparison), (.mtile 1 2 3 4 3, .indexSource), (.feed 1 2 0, .direction), (.drainWord 1 2 1, .direction)] = true := by
  decide

theorem test_well_formed : [Instr.skeqReg 1 2 1, .fcvtfi 1 2 5, .fcvth 1 2 3 9, .loopSet 0 1 1, .ldx 1 2 3 0 1 2, .bar 4 1, .fence 1 2,
    .mta 1 0x27, .hmodRound 5, .hmodLanes 10, .vcmp 1 2 3 5, .mtile 1 2 3 4 2, .feed 1 2 1, .drainWord 1 2 3].all WellFormed = true := by
  decide

/-! ## Small states

A field of two cores side by side: core 0, whose slot 0 issues, and core 1. -/

def regs (l : List Word) : Vector Word 8 := Vector.ofFn (fun i => l.getD i.val 0)

/-- A ready thread with g1, g2, … as listed. -/
def thread (l : List Word) : Thread := { st := .ready, g := regs (0 :: l), pc := 0x400000, seed := 1, wsl := 0x6000 }

def blank : Field :=
  { part := 0, ctx := 3, queue := 0, id := 7, x0 := 0, y0 := 0, fw := 2, fh := 1, threads := 1, entry := 0, arg := 0, seed := 0, done := 0,
    lsimg := 0, lssize := 0, tapeDir := 0, tFlag := false, patch := none, stage := .running }
def field : Field := blank
def left : Core := { field := some 0, fw := 2, fh := 1, ctx := 3 }
def right : Core := { field := some 0, fw := 2, fh := 1, ctx := 3, cx := 1, lcn := 1, place := 1 }
def part : Part := { dies := 1, stackSet := 1, keys := 1, w := 336, h := 336 }

/-- The field with core 0 as given and threads in its slots. -/
def pair (k : Core) (l : List Thread) : State :=
  let k := { k with threads := (List.range l.length).zip l }
  { cores := [(0, k), (1, right)], parts := [(0, part)], fields := [(0, field)], keys := [(0, .loaded 0)] }

/-- One thread in core 0. -/
def solo (h : Thread) : State := pair left [h]

/-- What an instruction leaves behind. -/
def after (i : Instr) (s : State) : State := outState s (exec i s)

/-! ## Witnesses: each shows a state that meets a statement's hypotheses, and what the instruction does there

Expected values are the worked cases of the manual, or computed by hand from its rules. -/

/-- A code address. -/
def code (n : Nat) : Word := wordN (0x2000000000400000 + n)

theorem witness_integer : let s := solo (thread [wordN (2 ^ 64 - 1), 2, 65, 0xFF00])
    (after (.add 5 1 2) s).readReg 5 = 1 ∧ (after (.add 0 1 2) s).readReg 0 = 0 ∧ (after (.mulhu 5 1 2) s).readReg 5 = 1 ∧
    (after (.shl 5 2 3) s).readReg 5 = 4 ∧ (after (.extr 5 4 3) s).readReg 5 = 0 ∧ (after (.popc 5 4) s).readReg 5 = 8 := by decide

theorem witness_division : let s := solo (thread [wordI (-7), 2, 0, wordI (-2 ^ 63), wordI (-1)])
    (after (.div 6 1 2) s).readReg 6 = wordI (-3) ∧ (after (.rem 6 1 2) s).readReg 6 = wordI (-1) ∧
    (after (.div 6 4 5) s).readReg 6 = wordI (-2 ^ 63) ∧ (after (.rem 6 4 5) s).readReg 6 = 0 ∧
    (after (.div 6 1 3) s).readReg 6 = wordI (-1) := by decide

theorem witness_immediates :
    let s := fun (l : List (BitVec 26)) => solo { thread [5] with hints := l }
    (after (.li 2 0x3FFFF) (s [])).readReg 2 = wordI (-1) ∧ (after (.li 2 1) (s [1])).readReg 2 = wordN (2 ^ 18 + 1) ∧
    (after (.li 2 1) (s [1, 1])).readReg 2 = wordN (2 ^ 44 + 2 ^ 18 + 1) ∧ (after (.leai 2 1) (s [])).readReg 2 = code 1 := by decide

theorem witness_skips : let s := solo (thread [1, 2, 0x7F800001, 0x80000000])
    (after (.skltReg 1 2 3) s).th.annul = 3 ∧ (after (.skgeReg 1 2 3) s).th.annul = 0 ∧
    (after (.skfeq 0 4 1) s).th.annul = 1 ∧ (after (.skfeq 3 4 1) s).th.fxf = 1 := by decide

theorem witness_float : let s := solo (thread [0x3F800000, 0x40000000, 0x00000001])
    (after (.fadd 5 1 2) s).readReg 5 = 0x40400000 ∧ (after (.fdiv 5 1 0) s).readReg 5 = 0x7F800000 ∧
    (after (.fclass 5 3) s).readReg 5 = wordN (2 ^ 5) ∧ (fmtOf 6).isSome = true := by decide

theorem witness_branches : let s := solo (thread [0, 5, code 8, code 2, 8])
    s.readReg 1 = 0 ∧ s.readReg 2 ≠ 0 ∧ (s.readReg 3).toNat % 4 = 0 ∧ (s.readReg 3).toNat / 2 ^ 48 = 0x2000 ∧
    (s.readReg 4).toNat % 4 ≠ 0 ∧ (s.readReg 5).toNat % 4 = 0 ∧ (s.readReg 5).toNat / 2 ^ 48 ≠ 0x2000 ∧
    (after (.bz 1 0x3FFFF) s).th.pc = 0x3FFFFC ∧ (after (.bnz 1 5) s).th.pc = 0x400004 ∧ (after (.brr 3) s).th.pc = 0x400008 ∧
    (after (.brr 4) s).th.st = .parked := by decide

theorem witness_calls :
    let h := thread [code 0x40]
    let w : Vector Word 8 := regs [7, 7]
    let s := solo h
    let r := solo { h with wdp := 1, olds := [w] }
    let full := solo { h with wdp := 0xFFFF }
    let deep := solo { h with wdp := 2, olds := [w, w], wsl := 0 }
    let empty := solo { h with wdp := 1 }
    s.th.wdp ≠ 0xFFFF ∧ s.th.olds.length < 2 ∧ (s.readReg 1).toNat % 4 = 0 ∧ (s.readReg 1).toNat / 2 ^ 48 = 0x2000 ∧
    r.th.wdp ≠ 0 ∧ r.th.olds = w :: [] ∧ full.th.wdp = 0xFFFF ∧ 2 ≤ deep.th.olds.length ∧
    deep.th.wsl.toNat < deep.th.wsp.toNat + 64 ∧ s.th.wdp = 0 ∧ empty.th.olds = [] ∧ empty.th.wsp.toNat < 64 ∧
    (after (.callr 1) s).readReg 7 = code 4 ∧ (after (.callr 1) s).th.wdp = 1 ∧ (after (.ret 1) r).readReg 8 = 7 ∧
    (after (.call 4) deep).th.st = .parked ∧ (after (.ret 1) s).th.st = .parked := by decide

theorem witness_loops :
    let h := thread [2, 0, code 12, code 0, wordI (-3)]
    let s := solo h
    let p : BitVec 48 := 0x400000
    let a : Word := 0x2000000000400000
    let two := { h with ls0 := 0x300000, le0 := a, lc0 := 2, ls1 := 0x200000, le1 := a, lc1 := 2 }
    let one := { two with lc0 := 1 }
    two.lc0 ≠ 0 ∧ two.le0.setWidth 48 = p ∧ 1 < two.lc0.toNat ∧ (two.loopStep p).2 = 0x300000 ∧ one.lc0.toNat ≤ 1 ∧ one.lc1 ≠ 0 ∧ one.le1.setWidth 48 = p ∧
    (one.loopStep p).2 = 0x200000 ∧ (h.loopStep p).2 = 0x400004 ∧
    (2 : Int) = max 0 (min (s.readReg 1).toInt 0xFFFFFFFF) ∧ (0 : Int) = max 0 (min (s.readReg 5).toInt 0xFFFFFFFF) ∧
    (s.pc + 4).toNat ≤ ((s.readReg 3).setWidth 48).toNat ∧ ((s.readReg 4).setWidth 48).toNat < (s.pc + 4).toNat ∧
    (after (.loopSet 0 1 2) s).th.lc0 = 2 ∧ (after (.loopSet 0 5 2) s).th.pc = 0x40000C ∧ (after (.loopr 1 2 3) s).th.pc = 0x400010 ∧
    (after (.loopr 1 2 4) s).th.st = .parked := by decide

theorem witness_prefixes :
    let s := fun (l : List (BitVec 26)) => solo { thread [] with hints := l }
    (s []).th.hints.length < 2 ∧ 2 ≤ (s [1, 2]).th.hints.length ∧ (after (.hint 9) (s [1])).th.hints = [1, 9] ∧
    (after (.hint 9) (s [1, 2])).th.st = .parked ∧ (after .nop (s [1, 2])).th.hints = [] := by decide

theorem witness_threads :
    let h := thread [code 0x40, 1, 0, 16, 5]
    let s := pair left [h]
    let busy := pair left [h, thread []]
    let done := pair { left with exits := [(1, 77)] } [h]
    let other := { busy with cur := (0, 1) }
    s.cur.2 = 0 ∧ (s.readReg 1).toNat % 4 = 0 ∧ (s.readReg 1).toNat / 2 ^ 48 = 0x2000 ∧ (s.readReg 3).toNat = 0 ∧ 15 < (s.readReg 4).toNat ∧
    (s.me.thr 1).st = .empty ∧ tfind s.me.exits 1 = none ∧ (busy.me.thr 1).st ≠ .empty ∧ (tfind done.me.exits 1).isSome = true ∧
    other.cur.2 ≠ 0 ∧ busy.me.othersEmpty = false ∧ (s.me.thr 5).st = .empty ∧
    ((after (.tstart 6 2 1) s).me.thr 1).st = .ready ∧ (after (.tstart 6 2 1) busy).readReg 6 = 1 ∧ (after (.tstart 6 3 1) s).readReg 6 = 2 ∧
    (after (.treap 6 2 5) done).readReg 5 = 77 ∧ (after (.treap 6 2 5) s).readReg 6 = 1 ∧
    (after (.treap 6 2 5) busy).th.wait = .retry (.treap 6 2 5) ∧ ((after (.tkill 6 2) busy).me.thr 1).st = .empty ∧
    (after (.tkill 6 2) done).me.exits = [] ∧ (after (.tkill 6 2) done).readReg 6 = 0 ∧
    (after .exitThread other).th.st = .empty ∧ (after .exitThread busy).th.wait = .exit ∧ (after (.tkill 6 2) other).th.st = .parked := by
  decide

/-- A field of one core. -/
def alone (h : Thread) : State := { solo h with fields := [(0, { field with fw := 1 })] }

theorem witness_ckpt : let s := alone (thread [])
    s.cur.2 = 0 ∧ s.me.field = some 0 ∧ tfind s.fields 0 = some { field with fw := 1 } ∧ s.fieldCores { field with fw := 1 } = [s.cur.1] ∧
    (after (.ckpt 1) s).th.wait = .ckpt 1 := by decide

theorem witness_ganger_leaves :
    let h := { thread [] with st := .waiting, wait := .exit }
    let s := pair left [h]
    let t := pair left [h, thread []]
    ((s.core 0).thr 0).wait = .exit ∧ (∀ e ∈ (s.core 0).threads, e.1 = 0 ∨ e.2.st = .empty) ∧
    (∃ e ∈ (t.core 0).threads, e.1 ≠ 0 ∧ e.2.st ≠ .empty) ∧ ((after (.gangerExitComplete 0) s).core 0).thr 0 = { inc := 1 } := by decide

/-! ## Witnesses: memory and synchronisation -/

/-- Core 0 with a few bytes: 0x80 at 0x5FFF and at 0x100, the word 5 at 0x108. -/
def store : Core := { left with ls := [(0x100, 0x80), (0x108, 5), (0x5FFF, 0x80)] }

/-- An address in core 1's local store. -/
def far (n : Nat) : Word := wordN (0x1000000000008000 + n)

theorem witness_own_read : (pair store [thread [0x5FFF]]).OwnRead 0x5FFF 1 ∧ (pair store [thread [0x5FF8]]).OwnRead 0x5FF8 8 ∧
    (pair store [thread []]).OwnRead 0x100 2 ∧ (pair store [thread []]).OwnRead 0x100 4 :=
  ⟨⟨⟨by decide, by decide, by decide⟩, by decide⟩, ⟨⟨by decide, by decide, by decide⟩, by decide⟩,
    ⟨⟨by decide, by decide, by decide⟩, by decide⟩, ⟨⟨by decide, by decide, by decide⟩, by decide⟩⟩

theorem witness_loads : let s := pair store [thread [0x5FFF, 0x100]]
    (after (.ldb 5 1 0) s).readReg 5 = wordI (-128) ∧ (after (.ldbu 5 1 0) s).readReg 5 = 0x80 ∧
    (after (.ldd 5 2 8) s).readReg 5 = 5 ∧ (after (.ldx 5 2 0 0 1 0) s).readReg 5 = 0x80 := by decide

theorem witness_stores : let s := pair store [thread [0x5FFF, 0x1234]]
    s.me.ls.wf = true ∧ (after (.stb 2 1 0) s).lsByte 0 0x5FFF = 0x34 ∧ (after (.std 2 0 0) s).lsByte 0 1 = 0x12 := by decide

theorem witness_access_faults : let s := solo (thread [wordN (2 ^ 62), 1, 0x6000, 0x7FF8])
    4 ≤ (s.readReg 1 + s.immS 0).toNat / 2 ^ 60 ∧ (s.readReg 2 + s.immS 0).toNat % 8 ≠ 0 ∧ 0x6000 ≤ (s.readReg 3 + s.immS 0).toNat ∧
    (s.readReg 4 + s.immS 0).toNat < 0x8000 ∧ (s.readReg 4 + s.immS 0).toNat % 8 = 0 ∧
    (after (.ldd 5 1 0) s).th.st = .parked ∧ (after (.std 5 2 0) s).th.st = .parked ∧
    (after (.ldd 5 4 0) s).me.spoil = wordN (2 ^ 63 + 0x7FF8) ∧ (after (.std 5 3 0) s).me.spoil = wordN (2 ^ 63 + 2 ^ 62 + 0x6000) := by
  decide

theorem witness_remote :
    let h := thread [far 0x18, wordN 0x2000000000400000]
    let s := solo h
    let e : Entry := { id := 0, dst := .ls 1 0, r := true, copy := 7 * 2 ^ 192 }
    let t := pair { left with pbuf := [e] } [h]
    s.place 0 (s.readReg 1) 8 1 = .far (.ls 1 0x18) ∧ t.me.served (.ls 1 0x18) 8 = some 7 ∧ s.me.served (.ls 1 0x18) 8 = none ∧
    s.me.pbuf = [] ∧ s.place 0 (s.readReg 1) 8 2 = .far (.ls 1 0x18) ∧ Dest.off5 (.ls 1 0x18) % 8 = 0 ∧
    s.place 0 (s.readReg 2) 8 1 = .miss 0x400000 1 ∧ (after (.ldd 5 1 0) s).th.st = .waiting ∧
    (after (.ldd 5 1 0) t).th.wait = .reply [(5, 7)] ∧ (after (.std 2 1 0) s).me.pbuf.length = 1 := by decide

theorem witness_atomics : let s := pair store [thread [0x108, 5, 9]]
    s.OwnRead (s.readReg 1) 4 ∧ s.OwnRead (s.readReg 1) 8 ∧ (after (.aadd 4 1 2 1) s).readReg 4 = 5 ∧
    (after (.aadd 4 1 2 1) s).lsByte 0 0x108 = 10 ∧ (after (.acas 2 1 3 0) s).lsByte 0 0x108 = 9 ∧
    (after (.afadd 4 1 0) s).readReg 4 = 5 :=
  ⟨⟨⟨by decide, by decide, by decide⟩, by decide⟩, ⟨⟨by decide, by decide, by decide⟩, by decide⟩, by decide, by decide, by decide,
    by decide⟩

theorem witness_full_empty :
    let h := thread [0x108, 9, 10]
    let s := pair store [h]
    let f := pair { store with tags := [0x21] } [h]
    s.me.ls.wf = true ∧ s.me.feq = [] ∧ s.OwnRead (s.readReg 1) 8 ∧ f.me.tags.contains (0x108 / 8) = true ∧
    s.me.tags.contains (0x108 / 8) = false ∧ wbits (s.readReg 3) 31 0 ≠ 0 ∧ wbits (s.readReg 0) 31 0 = 0 ∧
    (after (.ldfe 4 1 3) f).readReg 4 = 5 ∧ (after (.ldfe 4 1 3) f).me.tags = [] ∧ (after (.stef 2 1 3) s).lsByte 0 0x108 = 9 ∧
    (after (.ldfe 4 1 3) s).th.st = .waiting ∧ (after (.ldfe 4 1 0) s).th.st = .parked ∧ (after (.feprobe 4 1) f).readReg 4 = 1 :=
  ⟨by decide, by decide, ⟨⟨by decide, by decide, by decide⟩, by decide⟩, by decide, by decide, by decide, by decide, by decide, by decide,
    by decide, by decide, by decide, by decide⟩

theorem witness_ordered :
    let h := thread [0x108, 5, 6]
    let s := pair store [h]
    let e : Entry := { id := 4, dst := .ls 1 0, mask := 1, data := 7 }
    let t := pair { store with pbuf := [e] } [h]
    s.OwnRead (s.readReg 1) 8 ∧ 1 ≤ s.scope 2 ∧ s.scope 0 = 0 ∧ (s.me.pbuf.filter (fun e => decide (e.mask ≠ 0))).map (·.id) = [] ∧
    (t.me.pbuf.filter (fun e => decide (e.mask ≠ 0))).map (·.id) = [4] ∧ s.episodeOf 0 0 = none ∧
    (s.readReg 2).toNat ≤ s.lsValue 0x108 8 ∧ s.lsValue 0x108 8 < (s.readReg 3).toNat ∧ wbits (s.readReg 0) 31 0 = 0 ∧
    (after .pend s).me.phase = 1 ∧ (after .pend t).th.wait = .drains [4] .pend ∧ (after (.waitge 0 1 2) s).th.st = .ready ∧
    (after (.waitge 0 1 3) s).th.st = .parked ∧ (after (.bar 0 1) s).th.wait = .bar 1 0 ∧
    (after (.fence 2 2) s).th.wait = .token [1, 2] (.sc 2) :=
  ⟨⟨⟨by decide, by decide, by decide⟩, by decide⟩, by decide, by decide, by decide, by decide, by decide, by decide, by decide, by decide,
    by decide, by decide, by decide, by decide, by decide, by decide⟩

theorem witness_ports :
    let h := thread [11, 12]
    let s := solo h
    let t := pair { left with portIn := [(1, [7, 8])] } [h]
    let u := pair { left with portOut := [(1, [1, 2, 3, 4, 5, 6, 7, 8])] } [h]
    s.neighbour 0 0 = none ∧ s.neighbour 0 1 = some 1 ∧ s.me.ahead 0 (sendsTo 1) = false ∧ 2 ≤ s.portRoom 0 1 1 ∧
    s.me.ahead 0 (recvsFrom 1) = false ∧ tget [] t.me.portIn 1 = 7 :: 8 :: [] ∧ u.portRoom 0 1 1 = 0 ∧ tget [] s.me.portIn 1 = [] ∧
    tget [] (after (.psendq 1 2 1) s).me.portOut 1 = [11, 12] ∧ (after (.precv 3 1) t).readReg 3 = 7 ∧
    (after (.ppeek 3 1) t).readReg 3 = wordN (2 + 256 * 8) ∧ (after (.psend 1 1) u).th.st = .waiting ∧
    (after (.psend 1 0) s).th.st = .parked := by decide

theorem witness_events :
    let h := thread [0, 1, 0xFFFFFFFF, 9, 2]
    let s := solo { h with evm := 0x100, evp := 0x300 }
    let z := solo h
    s.th.evm &&& s.th.evp ≠ 0 ∧ z.th.evm &&& z.th.evp = 0 ∧ wbits (z.readReg 1) 31 0 = 0 ∧ wbits (z.readReg 3) 31 0 = 0xFFFFFFFF ∧
    0 < wbits (z.readReg 4) 31 0 ∧ wbits (z.readReg 4) 31 0 < 0xFFFFFFFF ∧ (z.readReg 2).toNat < z.me.fw * z.me.fh ∧
    z.me.fw * z.me.fh ≤ (z.readReg 5).toNat ∧ (after (.wait 6) s).readReg 6 = 0x100 ∧ (after (.wait 6) s).th.evp = 0x200 ∧
    (after (.sleep 6 4) z).th.limit = some 9 ∧ (after (.sleep 6 1) z).th.st = .ready ∧ (after (.evt 2 4 3) z).me.evOut.length = 1 ∧
    (after (.evt 5 4 3) z).th.st = .parked := by decide

/-! ## Witnesses: exceptions and special registers -/

theorem witness_traps :
    let s := solo { thread [0] with hints := [1], pfxAt := some 0x3FFFFC }
    let t := after (.trapCode 5) s
    t.th.st = .parked ∧ t.th.pc = 0x400000 ∧ (t.die 0).recs.map (·.faddr) = [5] ∧ t.seqNo = s.seqNo + 1 ∧
    ((s.trap .align 3).th.pc = 0x3FFFFC) ∧ (after (.illegalWord 0) s).th.st = .parked ∧
    ({ t.th with recs := 1 }).replayPast.pc = 0x400004 ∧ 1 < ({ t.th with recs := 2 }).recs := by decide

theorem witness_special :
    let h := { thread [wordI (-1), 4, 6, 10, 0x1234] with evp := 0x300 }
    let s := solo h
    s.me.hist = [] ∧ laneCode ((s.readReg 4).toNat % 32) = true ∧ laneCode ((s.readReg 1).toNat % 32) = false ∧
    (s.readReg 2).toNat % 8 ≤ 5 ∧ 5 < (s.readReg 3).toNat % 8 ∧ h.spillDue = false ∧ h.fillDue = false ∧
    (after (.mfs 6 0x13) s).readReg 6 = 1 ∧ (after (.mfs 6 0x0A) s).th.st = .parked ∧ (after (.mts 2 0x11) s).th.rnd = 4 ∧
    (after (.mts 3 0x11) s).th.st = .parked ∧ (after (.mts 1 0x3D) s).th.evp = 0 ∧ (after (.mts 1 0x24) s).th.ls0 = 0xFFFFFFFFFFFFFFFC ∧
    (after (.mts 5 0x30) s).me.sq0 = 0x1234 ∧ (after (.mts 5 0x30) s).me.seen 7 0x30 0x1234 = 0 := by decide

/-- A thread with a window to spill: MTS of wsp waits; a read-only register is ILLEGAL. -/
theorem witness_window_registers :
    let h := { thread [0x1000] with olds := [regs [], regs []], wdp := 2, wsp := 0x1000, wsl := 0x2000 }
    h.spillDue = true ∧ (after (.mts 1 0x20) (solo h)).th.wait = .retry (.mts 1 0x20) ∧
    (after (.mts 1 0x20) (solo (thread [0x1040]))).th.wsp = 0x1040 ∧ (after (.mts 1 0x22) (solo h)).th.st = .parked := by decide

theorem witness_cell :
    let h := thread [0x80000001, wordN (3 + 5 * 2 ^ 20 + 4 * 2 ^ 40 + 4 * 2 ^ 48)]
    let s := solo h
    let m : MTile := { slot := 1, inc := 0, desA := [], desB := [], m0 := 0, n0 := 0, k := 1, q := 0, granted := true }
    let b := pair { left with mtile := some m } [h]
    s.me.cellBusy = false ∧ b.me.cellBusy = true ∧ (after (.mta 1 0) s).me.mfa 0 = wordI (-2 ^ 31 + 1) ∧
    (after (.mta 1 16) s).me.mfa 16 = 0x80000001 ∧ (after (.mta 1 0) b).th.wait = .retry (.mta 1 0) ∧
    (after (.geo 2) s).me.gmk = wordN (3 + 4 * 2 ^ 16) ∧ (after .mzero b).th.wait = .retry .mzero ∧
    (after (.mlatch 1 3) s).me.latch.get 3 = 0x80000001 := by decide

/-! ## Witnesses: vectors, tensors, benches -/

/-- A thread whose effective format is c. -/
def vec (c : BitVec 5) (l : List Word) : State := solo { thread l with efr := c }

theorem witness_vectors :
    let s := vec 0 [0x80FF, 0x8002, 5]
    let b := vec 5 [wordI (-1), 2]
    s.th.lanes ≤ 5 ∧ b.th.lanes ≤ 5 ∧ s.th.lanes ∈ [0, 3, 4, 5] ∧ s.th.lanes ∈ [1, 0, 3, 4] ∧ (vec 1 []).th.lanes ∈ [1, 2] ∧
    b.th.lanes ∈ [2, 5] ∧ (4 : BitVec 6).toNat ≤ 5 ∧ (5 : BitVec 3).toNat < 6 ∧
    (after (.vadd 6 1 2) s).readReg 6 = 0x0001 ∧ (after (.vadds 6 1 2) s).readReg 6 = 0x8001 ∧ (after (.vadd 6 1 2) b).readReg 6 = 1 ∧
    (after (.vmulh 6 1 2) s).readReg 6 = 0x40FF ∧ (after (.vdot 3 1 2) s).readReg 3 = 5 - 2 + 16384 ∧
    (after (.vsum 6 1 3) s).readReg 6 = wordI (5 - 1 - 128) ∧ (after (.vmaxr 6 1) s).readReg 6 = 0 ∧
    (after (.vcmp 6 1 2 2) s).readReg 6 = 0x00FF ∧ (after (.vpack 6 1 0) s).readReg 6 = 0x8F ∧
    (after (.vunpkl 6 1) s).readReg 6 = 0xFF80FFFF ∧ (after (.vcvt 6 1 0 4) s).readReg 6 = 0xFFFFFF80FFFFFFFF ∧
    (after (.vunpkl 6 1) b).th.st = .parked := by decide

theorem witness_moves :
    let s := vec 8 [0x3C0080000001, 0x000300020001, 0x8000]
    s.th.lanes ≤ 10 ∧ (after (.vsel 3 1 2) s).readReg 3 = 0x300020001 ∧ (after (.vsplat 6 2) s).readReg 6 = 0x0001000100010001 ∧
    (after (.vshuf 6 1 2) s).readReg 6 = 0x0001000100018000 ∧ (after (.vnzs 6 1) s).readReg 6 = 0x20005 ∧
    (after (.vnzs 6 0) s).readReg 6 = 0x10000000 ∧ (after (.vcompr 6 1 2) s).readReg 6 = 0x00030001 := by decide

theorem witness_vector_floats :
    let s := vec 8 [0x7C013C00, 0x3C004000, 0xFF]
    let i := vec 0 [0xFF]
    (fmtOf s.th.lanes).isSome = true ∧ i.th.lanes ≤ 10 ∧ 5 < (8 : BitVec 6).toNat ∧ (3 : BitVec 3).toNat < 4 ∧ 4 ≤ (4 : BitVec 3).toNat ∧
    (after (.vadd 6 1 2) s).readReg 6 = 0x7E004200 ∧ (after (.vadd 6 1 2) s).th.fxf = 1 ∧ (after (.vmin 6 1 2) s).readReg 6 = 0x7E003C00 ∧
    (after (.vcvt 6 1 0 8) i).readReg 6 = 0xBC00 ∧ (after (.vshl 6 1 2) s).th.st = .parked := by decide

theorem witness_corners :
    fmtOf 8 = some fp16 ∧ (fp16.val 0x7E00).isNan = true ∧ fp16.val 0xFC00 = .inf true ∧ fp16.val 0x7C00 = .inf false ∧
    (fp16.val 0x8000).isZero = true ∧ (fp16.val 0xBC00).neg = true ∧ (fp16.val 0xBC00).isZero = false ∧ 0xFC00 < 2 ^ fp16.width ∧
    specialFn 2 8 fp16 0x8000 0 0 = (0xFC00, fDZ) ∧ specialFn 3 8 fp16 0xBC00 0 0 = (0x7E00, fNV) := by decide

/-- A descriptor of one dimension of n elements of format f, 4 bytes apart, at base b (R201). -/
def line (f n b : Nat) : List Word := [wordN f, wordN b, 4, 0, wordN n, 0, 0, 0]

/-- The descriptor of 8 INT32 elements at 0x100 stands at 0x140; slot 1 is loaded with it, slot 2 with one of format 31,
slot 3 with FP16 rows. -/
def tensors : Core :=
  { store with ls := [(0x140, 4), (0x149, 1), (0x150, 4), (0x160, 8)],
               tens := [(1, line 4 8 0x100), (2, line 4 8 0x200), (3, line 8 8 0x300)] }

set_option maxRecDepth 4000 in
theorem witness_tensors :
    let s := pair tensors [thread [0x140, 4, 0x180, 31, 0]]
    s.me.ls.wf = true ∧ s.me.tape = none ∧ Desc.illegal (line 4 8 0x100) = false ∧ Desc.illegal (line 31 8 0x100) = true ∧
    (line 4 8 0x100).length = 8 ∧ tfind s.me.tens 1 = some (line 4 8 0x100) ∧ tfind s.me.tens 9 = none ∧
    (after (.tld 3 5) s).th.st = .parked ∧ (after (.tst 3 1) s).lsByte 0 0x189 = 1 ∧
    (after (.tsetf 2 4 1) s).th.st = .ready ∧ (after (.tsetf 4 0 1) s).th.st = .parked ∧
    (after (.tsetf 1 3 9) s).th.st = .parked := by decide

theorem witness_table_reads : (pair tensors [thread [0x140]]).OwnRead 0x140 64 ∧ (pair tensors [thread []]).OwnRead 0x180 64 :=
  ⟨⟨⟨by decide, by decide, by decide⟩, by decide⟩, ⟨⟨by decide, by decide, by decide⟩, by decide⟩⟩

/-- Two INT8 matrices of 16 by 16 elements, and one INT32 line. -/
def grid (b : Nat) : List Word := [0x80, wordN b, wordN (1 + 16 * 2 ^ 32), 0, wordN (16 + 16 * 2 ^ 20), 0, 0, 0]
def cells : Core := { left with tens := [(1, grid 0x400), (2, grid 0x800), (3, line 4 8 0x100), (4, line 1 8 0x100)] }

theorem witness_tiles :
    let s := pair cells [thread [0, 1, 0x11, 8]]
    let d := line 4 8 0x100
    s.me.mtile = none ∧ s.me.ahead 0 isMtile = false ∧ Desc.fmt (grid 0x400) = Desc.fmt (grid 0x800) ∧
    cellCode (Desc.fmt (grid 0x400)) = true ∧ Desc.fmt (grid 0x400) ≠ Desc.fmt d ∧ Desc.bitsOf (line 1 8 0x100) = 4 ∧
    Desc.fmt d = 4 ∧ (s.readReg 3).toNat % 2 ^ 10 = 0x11 ∧ Desc.inside d 0 0 0 0 = true ∧ Desc.inside d 8 0 0 0 = false ∧
    (s.readReg 4).toNat % 8 = 0 ∧ blockCode (Desc.fmt d) = false ∧ (after (.mtile 2 1 2 1 0) s).th.wait = .mtile ∧
    (after (.mtile 3 1 2 1 0) s).th.st = .parked ∧ (after (.mst 1 3 3) s).me.drop = 0 ∧ (after (.mst 4 3 3) s).me.drop = 1 ∧
    (after (.mst 1 3 4) s).th.st = .parked := by decide

theorem witness_lanes :
    let p : Pulse := ⟨7, 0, 0⟩
    let e : DrainEntry := ⟨5, 6, 0⟩
    let s := solo (thread [9, 1])
    let f : State := { s with cores := tset s.cores 1 { right with westIn := List.replicate 8 p } }
    let t := pair { left with drainN := [e], drainW := [e] } [thread []]
    s.neighbour 0 2 = none ∧ s.neighbour 0 1 = some 1 ∧ s.me.ahead 0 (feedsTo 1) = false ∧ (s.core 1).westIn.length < 8 ∧
    8 ≤ (f.core 1).westIn.length ∧ t.me.drainN = e :: [] ∧ t.me.drainW = e :: [] ∧ e.at' ≤ t.cyc ∧
    t.me.ahead 0 (drainsFrom 0) = false ∧ s.me.drainN = [] ∧ s.me.drainW = [] ∧
    ((after (.feed 1 2 1) s).core 1).westIn.map (·.v) = [9] ∧ (after (.feed 1 2 1) f).th.wait = .retry (.feed 1 2 1) ∧
    (after (.feed 1 2 2) s).th.st = .parked ∧ (after (.drainWord 3 4 0) t).readReg 4 = 6 ∧ (after (.drainWord 3 4 3) t).me.drainW = [] ∧
    (after (.drainWord 3 4 0) s).th.wait = .retry (.drainWord 3 4 0) := by decide

/-- A field of 3 by 3 cores, of which the claiming one is listed. -/
def square (l : List Word) : State :=
  { pair { left with fw := 3, fh := 3 } [thread l] with fields := [(0, { field with fw := 3, fh := 3 })] }

/-- An 8-row word of GANG: INT8, weight stationary, 8 × h pulses (R212). -/
def weights (h : Nat) : Word := wordN (8 * h * 2 ^ 16)

theorem witness_gang :
    let s := square [wordN (1 + 2 ^ 11), weights 1, wordN (2 ^ 42), wordN (3 + 2 ^ 11)]
    (s.readReg 3).toNat / 2 ^ 42 ≠ 0 ∧ gangOpBad (rectH (s.readReg 1)) (s.readReg 2) = false ∧ gangOutside s.me (s.readReg 4) (s.readReg 2) = true ∧
    gangOutside s.me (s.readReg 1) (s.readReg 2) = false ∧ (after (.gang 6 3 2) s).readReg 6 = 4 ∧ (after (.gang 6 4 2) s).readReg 6 = 3 ∧
    (after (.gang 6 1 2) s).th.wait = .gang 6 ∧ (after (.gang 6 1 2) s).claims.length = 1 := by decide

/-- A bench whose one cell is core 1. -/
def bench : Bench := ⟨0, 0, 0, 0, 6, 0, 1, 0, 1, 1, true, 0, 0, false, false, 8, 1, 0, false, 0, [], []⟩
def cellCore : Core := { right with cell := some { bench := 1, row := 0, col := 0, pulses := 5 } }
def benched (h : Thread) : State := let s := solo h; { s with cores := tset s.cores 1 cellCore, benches := [(1, bench)] }

theorem witness_thaw :
    let s := benched (thread [1, 2, 0])
    s.me.fw * s.me.fh ≤ (s.readReg 2).toNat ∧ (s.readReg 1).toNat < s.me.fw * s.me.fh ∧ s.me.field = some 0 ∧ tfind s.fields 0 = some field ∧
    s.lcnPos field 1 = 1 ∧ s.lcnPos field 0 = s.cur.1 ∧ (s.core 0).cell = none ∧ (s.core 1).cell = cellCore.cell ∧
    tfind s.benches 1 = some bench ∧ (after (.thawBench 6 1) s).th.wait = .reply [(6, 0)] ∧ (after (.thawBench 6 3) s).th.wait = .reply [(6, 1)] ∧
    (after (.gstat 6 1) s).th.wait = .reply [(6, wordN (5 * 2 ^ 32 + 1))] ∧ (after (.gstat 6 3) s).readReg 6 = 0 ∧
    (after (.gstat 6 2) s).th.st = .parked := by decide

/-! ## Witnesses: engines, generators, deque, tape -/

theorem witness_commands :
    let s := pair tensors [thread [0, 8, 0]]
    let q := s.mkCmd (.copyElems 2 1 2 1 0) 0 8 0
    let bad := s.mkCmd (.copyElems 3 1 2 1 0) 0 8 0
    let g := s.mkCmd (.gather 3 1 2 1 0) 0 8 0
    tfind s.me.tens 1 = some (line 4 8 0x100) ∧ q.bad s.me = false ∧ q.counter = 0 ∧ s.rangeFault 0 q 0 0 = none ∧ bad.bad s.me = true ∧
    g.bad s.me = false ∧ s.neighbour 0 1 = some 1 ∧ s.readReg 3 = 0 ∧ (after (.copyElems 2 1 2 1 0) s).th.wait = .seq ∧
    (after (.copyElems 2 1 2 1 0) s).me.seqq.length = 1 ∧ (after (.copyElems 3 1 2 1 0) s).th.st = .parked ∧
    (after (.feeds 3 1 2 1 1) s).th.wait = .seq ∧ (after (.feeds 3 1 2 1 0) s).th.st = .parked ∧ (after (.qjoin 2 2) s).me.seqq.length = 1 := by
  decide

theorem witness_ring :
    let q : Cmd := { word := encode (.copyring 2 1 3 1), ra := 0, rb := 0x400000202, desD := line 4 8 0x200, desS := line 4 8 0x100 }
    let r : Ring := { cmd := q, filled := 1 }
    let s := pair { tensors with ring := some r } [thread []]
    let none' := solo (thread [])
    let u := pair { tensors with ring := some { r with filled := 0 } } [thread []]
    let o := pair { tensors with ring := some { r with filled := q.total, released := q.total } } [thread []]
    s.me.ahead 0 isRingadv = false ∧ s.me.ring = some r ∧ 0 < q.total ∧ 0 < r.filled ∧ none'.me.ring = none ∧
    (after (.ringadv 6) s).th.st = .ready ∧ (after (.ringadv 6) u).th.wait = .retry (.ringadv 6) ∧
    (after (.ringadv 6) o).me.ring = none ∧ (after (.ringadv 6) none').readReg 6 = 0 := by decide

theorem witness_status :
    let s := pair { tensors with drop := 3, gf := true, scb := [⟨0, 7, 0, false⟩] } [thread [wordN (2 ^ 48 + 2 ^ 23)]]
    (after (.cstat 6 1) s).readReg 6 = wordN (3 * 2 ^ 48 + 2 ^ 23 + 1) ∧ (after (.cstat 6 1) s).me.drop = 0 ∧ (after (.cstat 6 1) s).me.gf = false := by
  decide

theorem witness_deque :
    let s := fun (l : List (Nat × Nat)) => pair { left with deque := l } [thread [4, 9, 2]]
    let full := s (List.replicate 32 (0, 2))
    (s []).me.deque = [] ∧ (s [(4, 9)]).me.deque = (4, 9) :: [] ∧ 32 ≤ full.me.deque.length ∧ ((s []).readReg 3).toNat ≥ (s []).me.fw ∧
    (after (.dqpush 6 1 2) (s [])).me.deque = [(4, 9)] ∧ (after (.dqpush 6 2 1) (s [])).readReg 6 = 2 ∧ (after (.dqpush 6 1 2) full).readReg 6 = 1 ∧
    (after (.dqpop 6) (s [])).readReg 6 = wordI (-1) ∧ (after (.dqpop 6) (s [(4, 9)])).readReg 6 = wordN (4 + 9 * 2 ^ 32) ∧
    (after (.dqsplit 6) (s [(4, 9)])).me.deque = [(4, 6), (6, 9)] ∧ (after (.dqsplit 6) (s [(4, 5)])).readReg 6 = 2 ∧
    (after (.dqsplit 6) full).readReg 6 = 1 ∧ (after (.dqcount 6) full).readReg 6 = 32 ∧ (after (.dqsteal 6 0) (s [])).me.reqs.length = 1 ∧
    (after (.dqsteal 6 3) (s [])).th.st = .parked := by decide

set_option maxRecDepth 4000 in
theorem witness_tapes :
    let h := thread [0x400, 4, 0x800, 0x404]
    let s := pair left [h]
    let x : Tape := ⟨0x400, 4, List.replicate 32 0, [], 0, false, 0, 0, 0⟩
    let r := pair { left with tape := some x } [h]
    let f := pair { left with tape := some { x with written := 4 } } [h]
    let b := pair { left with tape := some { x with cap := 20, buf := List.replicate 8 (0, 0) } } [h]
    s.me.tape = none ∧ 0 < (s.readReg 2).toNat % 2 ^ 17 ∧ (s.readReg 1).toNat % 64 = 0 ∧ (s.readReg 3).toNat % 8 = 0 ∧
    (s.readReg 4).toNat % 64 ≠ 0 ∧ s.me.scbHit 0x800 256 = false ∧ s.me.lsBad 0x800 256 = false ∧ r.me.tape = some x ∧ x.buf = [] ∧
    x.written + x.buf.length < x.cap ∧ 4 ≤ ({ x with written := 4 }).written ∧ r.me.ahead 0 isTend = false ∧ r.me.ls.wf = true ∧
    (after (.trec 3 1 2) s).me.tape = some x ∧ (after (.trec 3 1 2) r).th.st = .parked ∧ (after (.tguard 1 2) s).th.st = .parked ∧
    (after (.tguard 1 2) r).me.tape.map (·.nguard) = some 1 ∧ (after (.tguard 1 2) f).me = { f.me with threads := (after (.tguard 1 2) f).me.threads } ∧
    (after (.tguard 1 2) b).th.wait = .retry (.tguard 1 2) ∧ (after (.tend 6) b).th.wait = .retry (.tend 6) ∧
    (after (.tend 6) r).lsValue 0x400 4 = 0x45504154 ∧ (after (.tplay 6 4 1) s).th.st = .parked := by decide

/-! ## Witnesses: windows, translations, sectors, homes -/

/-- Core 0 with one thread that waits. -/
def waits (k : Core) (w : Wait) (l : Option Nat := none) : State := pair k [{ thread [] with st := .waiting, wait := w, limit := l }]

set_option maxRecDepth 4000 in
theorem witness_windows :
    let w : Vector Word 8 := regs [7]
    let s := pair { left with ls := [(0x40, 9)] } [{ thread [] with wdp := 2, olds := [w, w] }]
    let f := pair { left with ls := [(0x48, 9)] } [{ thread [] with wdp := 1, wsp := 0x80, st := .waiting, wait := .retry (.ret 0) }]
    let b := { f with cores := tset f.cores 0 { f.core 0 with lsUe := [9] } }
    (s.core 0).ls.wf = true ∧ (s.thr 0 0).spillDue = true ∧ (s.thr 0 0).olds = [w] ++ [w] ∧ (s.core 0).scbHit 0 64 = false ∧
    (f.thr 0 0).fillDue = true ∧ (f.core 0).scbHit 0x40 64 = false ∧ (f.core 0).lsBad 0x40 64 = false ∧ (b.core 0).lsBad 0x40 64 = true ∧
    (b.thr 0 0).retries = true ∧ ((after (.spill 0 0) s).thr 0 0).olds = [w] ∧ (after (.spill 0 0) s).lsByte 0 0 = 7 ∧
    ((after (.fill 0 0) f).thr 0 0).olds = [regs [0, 9]] ∧ ((after (.fill 0 0) b).thr 0 0).st = .parked := by decide

theorem witness_append :
    let tp : Tape := ⟨0x400, 4, [], [(3, 5)], 1, false, 0, 0, 0⟩
    let e : SbEntry := ⟨0, 7, 0, true⟩
    let s := pair { left with tape := some tp, scb := [⟨8, 9, 1, false⟩, e] } [{ thread [] with st := .waiting, wait := .retry (.ldd 1 0 0) }]
    (s.core 0).ls.wf = true ∧ (s.core 0).tape = some tp ∧ tp.buf = (3, 5) :: [] ∧ (s.core 0).scb = [⟨8, 9, 1, false⟩] ++ e :: [] ∧
    (s.core 0).retriers = [0] ∧ (after (.tapeAppend 0) s).lsByte 0 0x450 = 3 ∧ (after (.tapeAppend 0) s).lsByte 0 0x458 = 5 ∧
    ((after (.scoreboardRetirement 0) s).core 0).scb = [⟨8, 9, 1, false⟩] := by decide

/-- Partition 0 maps its first GiB to its first frame, readable and writable (09 R277, R278). -/
def paged (s : State) : State :=
  { s with parts := [(0, { part with ptroot := 0x1000 })], hbm := [(0x1000, 1), (0x1001, 0x20), (0x2000, 0xF)] }
def page (u : Nat) : Xlate := ⟨u, 0, 0, 30, 0, 0, true, true, false⟩

theorem witness_walks :
    let s := paged (waits left (.walk (some (.ldd 1 2 0)) 0x123 1))
    let n := waits left (.walk (some (.ldd 1 2 0)) 0x123 1)
    let m := paged (waits left (.walk none 0x400000 1))
    let f := { paged (waits left .line) with xlate := [page (stationUnit 0)] }
    let b := { f with hbmUe := [0x400000 / 8] }
    s.cached (stationUnit 0) 0 0x123 = none ∧ s.cached (walkerUnit (dieOf 0)) 0 0x123 = none ∧ s.walk 0 0x123 = .leaf (page 0) ∧
    s.walkDenies (page 0) 1 = none ∧ n.walk 0 0x123 = .stop .page none ∧ f.place 0 (codeWord 0x400000) 4 1 = .far (.hbm 0x400000 0) ∧
    f.hbmBad 0x400000 64 = false ∧ b.hbmBad 0x400000 8 = true ∧
    ((after (.translationWalk 0 0) s).thr 0 0).wait = .retry (.ldd 1 2 0) ∧ ((after (.translationWalk 0 0) m).thr 0 0).st = .ready ∧
    ((after (.translationWalk 0 0) n).thr 0 0).st = .parked ∧ ((after (.icacheLineFill 0 0) f).thr 0 0).st = .ready ∧
    ((after (.icacheLineFill 0 0) b).thr 0 0).st = .parked := by decide

/-- Partition 0 is forgetting its first page; cores 0 and 1 are still to acknowledge. -/
def changing : Change := ⟨0, 0, 2 ^ 30, [0, 1], 0, 0, 0⟩
def dirty : Entry := { id := 4, dst := .hbm 0x3000 0, mask := 1, data := 7 }

theorem witness_changes :
    let at' := fun (k : Core) => { pair k [] with parts := [(0, { part with changes := [changing] })], xlate := [page (stationUnit 0)] }
    let s := at' left
    let d := at' { left with pbuf := [dirty] }
    (s.part 0).changes = [] ++ changing :: [] ∧ changing.todo.contains 0 = true ∧ (s.core 0).writeSet (s.inChange 0 changing) = [] ∧
    (d.core 0).writeSet (d.inChange 0 changing) ≠ [] ∧ (after (.invalidation 0 0) s).xlate = [] ∧
    ((after (.invalidation 0 0) s).part 0).changes.map (·.todo) = [[1]] ∧
    ((after (.invalidation 0 0) d).core 0).pbuf.map (·.d) = [true] := by decide

theorem witness_sectors :
    let x : Fetch := { id := 3, dst := .ls 1 0, slot := 0, inc := 0 }
    let at' := fun (x : Fetch) => let s := pair { left with fetches := [x] } []
                                  { s with cores := tset s.cores 1 { right with ls := [(0, 5)] } }
    let s := at' x
    let g := at' { x with got := some 5, due := true }
    let b := at' { x with got := some 5, due := true, barred := true }
    let early := at' { x with got := some 5 }
    (s.core 0).fetch 3 = some x ∧ s.held x.dst = false ∧ x.dst.atPeer = false ∧ (g.core 0).pbuf = [] ∧ (b.core 0).fetches.length = 1 ∧
    (s.core (s.locate 9)).field = none ∧ ((after (.sectorFetch 0 3) s).core 0).replies = [⟨0, 0, .sector 3 5 false⟩] ∧
    ((after (.readSetInstall 0 3) g).core 0).pbuf.map (·.copy) = [5] ∧ ((after (.readSetInstall 0 3) b).core 0).pbuf = [] ∧
    (after (.readSetInstall 0 3) early).cores = early.cores := by decide

theorem witness_drains :
    let e : Entry := { id := 4, dst := .ls 1 0, mask := 2, data := 0x700, d := true }
    let sent : Entry := { e with sent := true }
    let s := pair { left with pbuf := [e] } []
    let h := pair { left with pbuf := [{ dirty with d := true }] } []
    let r := waits { left with pbuf := [sent] } (.drains [4] .rel)
    let p := waits { left with pbuf := [sent] } (.drains [4] .pend)
    let q := waits { left with pbuf := [sent] } (.drains [4] (.req 1 (.strel (.ls 1 0) 1 7) 0))
    let n := pair { left with pbuf := [sent] } []
    (s.core 0).pbuf.find? (fun y => y.id = 4) = some e ∧ (s.core (s.locate 1)).field ≠ none ∧ s.locate 1 ≠ 0 ∧
    (s.core 1).ls.wf = true ∧ h.hbm.wf = true ∧ field.ckArea = none ∧ (n.core 0).threads = [] ∧
    (after (.sectorDrain 0 4) s).lsByte 1 1 = 7 ∧ (after (.sectorDrain 0 4) h).hbmByte 0x3000 = 7 ∧
    ((after (.drainAcknowledgement 0 4) n).core 0).pbuf = [] ∧ ((after (.drainAcknowledgement 0 4) r).thr 0 0).st = .ready ∧
    ((after (.drainAcknowledgement 0 4) p).core 0).phase = 1 ∧ ((after (.drainAcknowledgement 0 4) q).core 0).reqs.length = 1 := by decide

/-- Core 0 with one request of slot 0, and core 1 with the word 5 at 0x10. -/
def asking (q : ReqKind) (bad : List Nat := []) : State :=
  let s := waits { left with reqs := [{ slot := 0, inc := 0, k := q }] } (.home 3 q 0x99)
  { s with cores := tset s.cores 1 { right with ls := [(0x10, 5)], lsUe := bad } }

set_option maxRecDepth 4000 in
theorem witness_requests :
    let l := asking (.lda (.ls 1 0x10) 4 false 0)
    let w := asking (.strel (.ls 1 0x11) 1 7)
    let a := asking (.atomic 0 false (.ls 1 0x10) 3 0)
    let b := asking (.atomic 0 false (.ls 1 0x10) 3 0) [2]
    let m := asking (.atomic 0 true (.hbm 0x40 0) 3 0)
    let w1 := after (.atomicAtHome 0 0) m
    let m := { w1 with cyc := 1 }
    l.held (.ls 1 0x10) = false ∧ Dest.atPeer (.ls 1 0x10) = false ∧ (w.core (w.locate 1)).field ≠ none ∧ w.locate 1 ≠ 0 ∧
    (a.core 1).ls.wf = true ∧ (a.core 1).lsBad 0x10 4 = false ∧ (b.core 1).lsBad 0x10 4 = true ∧ m.hbmBad 0x40 8 = false ∧
    (w1.core 0).reqs.map (·.cameAt) = [some 0] ∧ w1.owned = [] ∧ m.atomicAhead 0 0 = false ∧ (after (.atomicAtHome 0 0) w1).owned = [] ∧
    ((after (.ldaAtHome 0 0) l).core 0).replies = [⟨0, 0, .val 5⟩] ∧ (after (.strelAtHome 0 0) w).lsByte 1 0x11 = 7 ∧
    ((after (.atomicAtHome 0 0) a).core 0).replies = [⟨0, 0, .val 5⟩] ∧ (after (.atomicAtHome 0 0) a).lsByte 1 0x10 = 8 ∧
    ((after (.atomicAtHome 0 0) b).core 0).replies = [⟨0, 0, .ue⟩] ∧ (after (.atomicAtHome 0 0) m).owned = [(0, 1)] ∧
    (after (.atomicEngineLineWriteback 0 1) (after (.atomicAtHome 0 0) m)).owned = [] := by decide

theorem witness_full_empty_home :
    let at' := fun (op : Nat) (tags : List Nat) (lim : Option Nat) =>
      let s := waits { left with reqs := [{ slot := 0, inc := 0, k := .fe op (.ls 1 0x10) 7 }] } (.home 3 (.fe op (.ls 1 0x10) 7) 0x99) lim
      { s with cores := tset s.cores 1 { right with ls := [(0x10, 5)], tags := tags, withdraw := [(9, 0, 0)] } }
    let s := at' 0 [2] none
    let w := at' 2 [] none
    s.locate 1 ≠ 0 ∧ (s.core 1).field ≠ none ∧ (s.core 1).ls.wf = true ∧ (s.core 1).feq = [] ∧ (s.core 1).tags.contains 2 = true ∧
    (s.core 1).lsBad 0x10 8 = false ∧ (w.core 1).tags.contains 2 = false ∧ (s.thr 0 0).inc = 0 ∧
    ((after (.feAtHome 0 0) s).core 0).replies = [⟨0, 0, .val 5⟩] ∧ ((after (.feAtHome 0 0) s).core 1).tags = [] ∧
    (after (.feAtHome 0 0) w).lsByte 1 0x10 = 7 ∧ ((after (.feAtHome 0 0) (at' 2 [2] none)).core 1).feq.length = 1 ∧
    ((after (.feAtHome 0 0) (at' 2 [2] (some 0))).thr 0 0).st = .parked ∧ ((after (.feLimitExpiry 0 0) (at' 0 [] (some 0))).thr 0 0).st = .parked ∧
    ((after (.feWithdrawal 1 9) s).core 1).withdraw = [] := by decide

theorem witness_counters :
    let at' := fun (v : Nat) (lim : Option Nat) => waits { left with ls := [(8, BitVec.ofNat 8 v)] } (.home 3 (.waitge (.ls 0 8) 5) 0x99) lim
    let x := { at' 4 (some 0) with watches := [⟨.ls 0 8, 0, 0, 0⟩] }
    let z := pair left [{ thread [] with st := .sleeping, wait := .sleep 3, limit := some 0 }]
    mread ((at' 5 none).core 0).ls 8 8 = 5 ∧ (5 ≤ 5 ∧ 4 < 5) ∧ (x.core 0).reqs = [] ∧ (x.core 0).field ≠ none ∧ (x.core 0).fwdTo = none ∧
    (∃ w ∈ x.watches, w.core = 0 ∧ w.slot = 0) ∧ (z.thr 0 0).evm &&& (z.thr 0 0).evp = 0 ∧
    ((after (.waitgeAtHome 0 0) (at' 5 none)).core 0).replies = [⟨0, 0, .val 5⟩] ∧ (after (.waitgeAtHome 0 0) (at' 4 none)).watches.length = 1 ∧
    ((after (.waitgeAtHome 0 0) (at' 4 (some 0))).thr 0 0).st = .parked ∧ ((after (.counterLimitExpiry 0 0) x).thr 0 0).st = .parked ∧
    ((after (.sleepTimeout 0 0) z).thr 0 0).st = .ready := by decide

theorem witness_arrivals :
    let p := pair { left with portOut := [(1, [7, 8])] } [thread []]
    let e := pair { left with evOut := [⟨0, 1, 3, 2⟩] } [thread []]
    let e := { e with cores := tset e.cores 1 { right with threads := [(0, { thread [] with evm := 0x400, st := .sleeping, wait := .sleep 3 }), (1, thread [])] } }
    p.neighbour 0 1 = some 1 ∧ tget [] (p.core 0).portOut 1 = 7 :: 8 :: [] ∧ (e.core 0).evOut = ⟨0, 1, 3, 2⟩ :: [] ∧ (e.core 0).field = some 0 ∧
    tfind e.fields 0 = some field ∧ e.lcnPos field 1 = 1 ∧ (e.thr 1 0).evm &&& ((e.thr 1 0).evp ||| BitVec.ofNat 16 (2 ^ 10)) ≠ 0 ∧
    ({ (e.thr 1 0) with st := .empty }).event 10 = { (e.thr 1 0) with st := .empty } ∧
    tget [] ((after (.portEntryArrival 0 1) p).core 1).portIn 3 = [7] ∧ ((after (.eventArrival 0 0) e).thr 1 0).reg 3 = 0x400 ∧
    ((after (.eventArrival 0 0) e).thr 1 1).evp = 0x400 := by decide

theorem witness_tokens :
    let line := fun (s : State) (y : Nat) (l : List (Nat × Nat × Nat)) => { s with serial := tset s.serial (s.serialiser 0 y) l }
    let t := line (waits left (.token [1, 2] (.sc 2))) 1 [(0, 0, 0), (1, 4, 0)]
    let o := line (waits left (.token [1, 2] (.sc 2))) 1 [(1, 4, 0), (0, 0, 0)]
    let u := line (waits { left with pbuf := [{ id := 0, dst := .ls 1 0, r := true }] } (.token [2] (.sc 2))) 2 [(0, 0, 0)]
    let x : Episode := ⟨0, 1, 3, 0⟩
    let b := waits left (.bar 1 3)
    let b := { b with episodes := [(5, x)], cores := tset b.cores 1 { right with threads := [(0, { thread [] with st := .waiting, wait := .bar 1 3 })] } }
    tfind b.episodes 5 = some x ∧ b.regionCores x = [0, 1] ∧ (b.core 0).arrived 1 = true ∧ (b.core 1).arrived 1 = true ∧
    ([0, 1].map (fun j => (b.core j).lcn)).Nodup ∧ tfind b.fields 0 = some field ∧
    t.serialiser 0 1 ≠ t.serialiser 0 2 ∧ tget [] (after (.orderTokenGrant 0 0) t).serial (t.serialiser 0 2) = [(0, 0, 0)] ∧
    (after (.orderTokenGrant 0 0) t).inflight.length = 2 ∧ (after (.orderTokenGrant 0 0) o).serial = o.serial ∧
    ((after (.orderTokenGrant 0 0) t).thr 0 0).wait = .token [2] (.sc 2) ∧ ((after (.orderTokenGrant 0 0) u).core 0).pbuf = [] ∧
    ((after (.orderTokenGrant 0 0) u).thr 0 0).st = .ready ∧ ((after (.barrierEpisodeComplete 5) b).thr 1 0).st = .ready ∧
    (after (.barrierEpisodeComplete 5) b).episodes = [] := by decide

theorem witness_steals :
    let at' := fun (l : List (Nat × Nat)) => let s := waits { left with reqs := [{ slot := 0, inc := 0, k := .steal 1 }] } (.home 3 (.steal 1) 0)
                                             { s with cores := tset s.cores 1 { right with deque := l } }
    ((at' []).core 0).field = some 0 ∧ (at' []).lcnPos field 1 = 1 ∧ ((at' [(4, 9)]).core 1).deque = (4, 9) :: [] ∧
    ((after (.stealRequest 0 0) (at' [])).core 0).replies = [⟨0, 0, .range (2 ^ 64 - 1)⟩] ∧
    ((after (.stealRequest 0 0) (at' [(4, 9)])).core 0).replies = [⟨0, 0, .range (6 + 2 ^ 32 * 9)⟩] ∧
    ((after (.stealRequest 0 0) (at' [(4, 9)])).core 1).deque = [(4, 6)] ∧ ((after (.stealRequest 0 0) (at' [(4, 5)])).core 1).deque = [] := by decide

theorem witness_replies :
    let at' := fun (b : RBody) (w : Wait) => waits { left with replies := [⟨0, 0, b⟩] } w
    let gone := waits { left with replies := [⟨0, 9, .val 5⟩] } .none
    let a := after (.remoteReply 0 0) (at' (.val 5) (.home 3 (.atomic 1 false (.ls 1 0) 3 0) 0))
    let f : Fetch := { id := 6, dst := .ls 1 0, slot := 0, inc := 0 }
    let o := fun (k : Core) => { pair k [] with cyc := 2 ^ 20 }
    let q := o { left with reqs := [{ slot := 0, inc := 0, k := .lda (.imp 0 0 0 ⟨0, 0, 0⟩) 4 false 0, sentAt := some 0 }] }
    let g := o { left with fetches := [{ f with sentAt := some 0 }] }
    (gone.thr 0 0).inc ≠ 9 ∧ 0 + 2 ^ 20 ≤ q.cyc ∧ (a.thr 0 0).reg 3 = 5 ∧
    ((after (.remoteReply 0 0) (at' .ok (.reply [(4, 8)]))).thr 0 0).reg 4 = 8 ∧
    ((after (.remoteReply 0 0) (at' (.val 0x80) (.home 3 (.lda (.ls 1 0) 1 false 0) 0))).thr 0 0).reg 3 = wordI (-128) ∧
    ((after (.remoteReply 0 0) (at' (.range 77) (.home 3 (.steal 1) 0))).thr 0 0).reg 3 = 77 ∧
    ((after (.remoteReply 0 0) (at' (.sector 6 0x700 false) (.load 6 3 1 true 1 0))).thr 0 0).reg 3 = 7 ∧
    ((after (.remoteReply 0 0) (at' .ue (.home 3 (.lda (.ls 1 0) 1 false 0) 0))).thr 0 0).st = .parked ∧
    ((after (.remoteReply 0 0) gone).core 0).replies = [] ∧ ((after (.peerReplyTimeout 0) q).core 0).replies = [⟨0, 0, .ue⟩] ∧
    ((after (.peerReplyTimeout 0) g).core 0).replies = [⟨0, 0, .sector 6 0 true⟩] := by decide

/-! ## Witnesses: leave, engines, tiles, benches -/

theorem witness_leave :
    let m : MTile := ⟨0, 0, grid 0, grid 0, 0, 0, 1, 0, false⟩
    let at' := fun (d : Die) => { pair { left with mtile := some m } [thread []] with dieTab := [(0, d)] }
    let q := at' { cap := 50, credit := 10, queue := [⟨0, 0, 0, 50, 50, false⟩], back := [7] }
    let g := at' { cap := 50, queue := [⟨0, 0, 0, 50, 50, false⟩] }
    (q.die 0).back = 7 :: [] ∧ (q.die 0).lastGrant ≠ q.cyc + 1 ∧ (q.die 0).held + 50 ≤ (q.die 0).cap ∧ (q.die 0).credit < 50 ∧
    50 ≤ (g.die 0).credit ∧ g.claims = [] ∧ (g.core 0).mtile = some m ∧ ((after (.rampCreditRefill 0) q).die 0).credit = 200000 ∧
    ((after (.leaveReturn 0) { q with dieTab := [(0, { held := 9, back := [7] })] }).die 0).held = 2 ∧
    ((after (.leaveGrant 0) q).die 0).queue.map (·.left) = [40] ∧ ((after (.leaveGrant 0) g).core 0).mtile = some { m with granted := true } := by
  decide

/-- COPY of n elements from slot 1 to slot 2, and its command as the queue holds it. -/
def copying (n : Nat) : Cmd :=
  { word := encode (.copyElems 2 1 2 1 0), rb := wordN n, desS := line 4 8 0x100, desD := line 4 8 0x200 }

theorem witness_sequencer :
    let s := waits { tensors with seqq := [{ copying 2 with desS := [], desD := [] }] } .seq
    let b := waits { tensors with seqq := [{ copying 2 with word := encode (.copyElems 3 1 2 1 0) }] } .seq
    let q := copying 2
    q.taken = false ∧ q.rep = 0 ∧ q.op = .copy ∧ q.draws tensors = none ∧ q.bad tensors = false ∧
    ({ q with word := encode (.copyElems 3 1 2 1 0) }).bad tensors = true ∧
    ((after (.sequencerAccept 0) s).core 0).copyQ.length = 1 ∧ ((after (.sequencerAccept 0) s).core 0).scb.map (·.lo) = [0x100, 0x200] ∧
    ((after (.sequencerAccept 0) s).thr 0 0).st = .ready ∧ ((after (.sequencerAccept 0) b).thr 0 0).st = .parked := by decide

set_option maxRecDepth 4000 in
theorem witness_copies :
    let q := copying 2
    let k := { tensors with ls := [(0x100, 7)] }
    let s := pair { k with copyQ := [q] } []
    let c := { q with ra := 0x400 }
    let beyond := { q with rb := wordN 9, done := 8, desS := line 4 9 0x100 }
    q.srcAt 0 = .elem (0, 0, 0, 0) ∧ s.sectorBad 0 q 0 = false ∧ Desc.empty q.desS = false ∧
    q.dstAt 0 = some (0, 0, 0, 0) ∧ Desc.holds q.desD (0, 0, 0, 0) = true ∧ beyond.dstAt 8 = some (8, 0, 0, 0) ∧ Desc.holds beyond.desD (8, 0, 0, 0) = false ∧ s.sectorBad 0 beyond 8 = false ∧ (s.core 0).lsBad 0x100 4 = false ∧ c.counter ≠ 0 ∧
    q.counter = 0 ∧ (s.counterAdd 0 c).1.lsByte 0 0x400 = 1 ∧ (s.copyOne 0 q).1.lsByte 0 0x200 = 7 ∧ ((s.copyOne 0 beyond).1.core 0).drop = 1 := by
  decide

set_option maxRecDepth 4000 in
theorem witness_completion :
    let q := copying 2
    let s := pair { tensors with ls := [(0x100, 7)], copyQ := [q], scb := [⟨0x100, 0x107, 0, false⟩] } []
    let e := pair { tensors with lsUe := [0x20], copyQ := [q] } [thread []]
    let f := pair { tensors with copyQ := [{ q with fault := some (.copyue, 0x100, false) }] } [thread []]
    let h := { f with cores := tset f.cores 0 { f.core 0 with haltc := true } }
    (s.copyRun 0 q 2).2.fault = none ∧ ((s.copyRun 0 q 2).1.core 0).copyQ = [q] ∧ (e.copyRun 0 q 2).2.fault ≠ none ∧
    (f.thr 0 0).st = .ready ∧ (after (.engineCommandComplete 0 0) s).lsByte 0 0x200 = 7 ∧
    ((after (.engineCommandComplete 0 0) s).core 0).copyQ = [] ∧ ((after (.engineCommandComplete 0 0) e).core 0).copyQ.length = 1 ∧
    (after (.engineCommandComplete 0 0) h).cores = h.cores ∧ ((after (.engineFault 0 0) f).core 0).copyHalt = true ∧
    ((after (.engineFault 0 0) f).thr 0 0).st = .parked := by decide

theorem witness_joins :
    let j : Cmd := { word := encode (.qjoin 1 2), rb := 1 }
    let s := pair { left with copyQ := [j] } []
    let t := pair { left with joins := [{ j with rb := 0 }] } []
    j.op = .join ∧ j.counter = 0 ∧ wbits j.rb 1 0 = 1 ∧ ((after (.qjoinFenceComplete 0) s).core 0).copyQ = [] ∧
    ((after (.qjoinFenceComplete 0) t).core 0).joins = [] := by decide

set_option maxRecDepth 4000 in
theorem witness_chunks :
    let q : Cmd := { word := encode (.copyring 2 1 2 1), rb := 0x400000202, desS := line 4 8 0x100, desD := line 4 1 0x200 }
    let r : Ring := { cmd := q }
    let s := pair { left with ring := some r, qdepth := 2, ls := [(0x100, 7)] } []
    let u := pair { left with ring := some { r with since := some 0, adv0 := some 0, adv1 := some 8 }, qdepth := 3, ls := [(0x100, 7)] } []
    r.filled < q.total ∧ r.filled < r.released + q.ringMax ∧ r.filled + 1 - r.released ≤ (s.core 0).qdepth ∧
    (s.core 0).scb.length + (s.ranges 0 r.copy).length ≤ 8 ∧ (u.copyRun 0 r.copy q.chunk).2.fault = none ∧ q.counter = 0 ∧
    ((after (.ringChunkStart 0) s).core 0).scb.length = 2 ∧ ((after (.ringChunkComplete 0) u).core 0).ring.map (·.filled) = some 1 ∧
    ((after (.ringChunkComplete 0) u).core 0).qdepth = 2 ∧ (after (.ringChunkComplete 0) u).lsByte 0 0x200 = 7 := by decide

set_option maxRecDepth 4000 in
theorem witness_gathers :
    let q : Cmd := { word := encode (.gather 3 1 2 1 0), ra := wordN (0x100 + 0x200 * 2 ^ 16 + 2 * 2 ^ 32), rb := 0x300, desS := line 4 8 0x2000 }
    let s := pair { left with gatQ := [q], ls := [(0x100, 3)], lsUe := [0x20] } []
    let g := pair { left with gatQ := [q], ls := [(0x100, 3)] } []
    let x : GatherPart := ⟨1, 0, .ls 1 0x40, 0, 8⟩
    let y := { q with phase := 1, rows := [some 9, some 3], sent := [1], parts := [x] }
    let at' := fun (n : Nat) (l : List Nat) => let u := pair { left with gatQ := [y] } []
                                              { u with cores := tset u.cores 1 { right with ls := [(0x40, 6)] }, gwins := [⟨8, 0, l, n⟩] }
    let w := at' 0 [2]
    let full := at' 99 (List.range 256)
    let v := { w with gwins := [] }
    q.op = .gather ∧ q.phase = 0 ∧ q.drawn = false ∧ q.fv = [] ∧ q.list + 4 * q.total ≤ 0x8000 ∧ (s.core 0).lsBad 0x100 4 = true ∧
    (g.core 0).lsBad 0x100 4 = false ∧ (g.core 0).paused = false ∧ Desc.bitsOf q.desS ≠ 4 ∧ w.homeRead x.dst 4 = (6, false) ∧
    (s.gwins.all (fun z => z.engine ≠ 0)) = true ∧ (v.servePart 0 y x).2.fault = none ∧ (v.servePart 0 y x).2.parts = [x] ∧
    (v.servePart 0 y x).2.got = [(1, 0, 6)] ∧ (w.cores.map (·.1)).Nodup ∧ (256 : Nat) ≤ (List.range 256).length ∧
    (s.passPart x).1.gwins.map (fun z => (z.sectors, z.closes)) = [([2], 32)] ∧ ((at' 99 [7]).passPart x).1.gwins.map (·.sectors) = [[7, 2]] ∧
    ((after (.gatherLead 0) s).core 0).gatQ.map (·.fv) = [[0, 1]] ∧ ((after (.gatherLead 0) s).core 0).efault = 2 ∧
    ((after (.gatherWindowClose 0) w).core 0).gatQ.map (·.phase) = [2] ∧ (after (.gatherWindowClose 0) w).lsByte 0 0x304 = 6 ∧
    (after (.gatherWindowClose 0) full).gwins = [] ∧ (after (.gatherWindowClose 0) (at' 99 [2])).gwins.length = 1 := by decide

theorem witness_delivery :
    let q : Cmd := { word := encode (.feeds 3 1 2 1 1), rb := 1, desS := line 5 8 0x100 }
    let k := { left with copyQ := [q], ls := [(0x100, 7)] }
    let s := pair k []
    let f := { s with cores := tset s.cores 1 { right with westIn := List.replicate 8 ⟨0, 0, 0⟩ } }
    q.op = .feeds ∧ q.done < q.total ∧ s.neighbour 0 (q.fld 3 2) = some 1 ∧ (s.core 1).westIn.length < 8 ∧ 8 ≤ (f.core 1).westIn.length ∧
    (s.feedWord 0 q (lanesOf 5) 0).2.isOk = true ∧ ((after (.feedsWordDelivery 0) s).core 1).westIn.map (·.v) = [7] ∧
    (after (.feedsWordDelivery 0) f).cores = f.cores := by decide

set_option maxRecDepth 4000 in
theorem witness_k_steps :
    let m : MTile := ⟨0, 0, grid 0x400, grid 0x800, 0, 0, 1, 0, true⟩
    let at' := fun (row : Word) (bad : List Nat) => pair { cells with mtile := some m, ls := [(0x400, 3), (0x410, 0xFF), (0x800, 5)], lsUe := bad }
      [{ thread [] with st := .waiting, wait := .mtile, rowp := row }]
    let s := at' 0 []
    let bad := at' 0 [0x80]
    (s.core 0).mtile = some m ∧ (s.thr 0 0).wait = .mtile ∧ m.k ≤ ((at' 1 []).thr 0 0).rowp.toNat ∧ (0 : Nat) < m.k ∧ Desc.fmt m.desA ≠ 10 ∧
    (s.readElems 0 0 (microUnit 0 0) m.desA ((upto 4).map (fun i => (0, i)))).2.toOption = some [3, 0xFF, 0, 0] ∧
    (s.readElems 0 0 (microUnit 0 1) m.desB ((upto 4).map (fun i => (i, 0)))).2.toOption = some [5, 0, 0, 0] ∧
    (s.readElems 0 0 (microUnit 0 0) m.desA ((upto 4).map (fun i => (0, i)))).1 = s ∧
    (s.readElems 0 0 (microUnit 0 1) m.desB ((upto 4).map (fun i => (i, 0)))).1 = s ∧
    (bad.readElems 0 0 (microUnit 0 0) m.desA ((upto 4).map (fun i => (0, i)))).2.isOk = false ∧
    ((after (.kStep 0) s).core 0).ac.get (lane16 0 0) = 15 ∧ ((after (.kStep 0) s).core 0).ac.get (lane16 1 0) = BitVec.ofInt 32 (-5) ∧
    ((after (.kStep 0) s).thr 0 0).st = .ready ∧ ((after (.kStep 0) (at' 1 [])).core 0).mtile = none ∧
    ((after (.kStep 0) bad).thr 0 0).st = .parked := by decide

theorem witness_claims :
    let q : Claim := { core := 0, slot := 0, inc := 0, rect := 0, op := weights 1, x0 := 1, y0 := 0, w := 1, h := 1, ask := [], held := [(0, 5)] }
    let s := { waits left (.gang 6) with claims := [q] }
    let t := { s with cores := tset s.cores 1 cellCore }
    let b := q.bench s
    let x := { s with cores := tset s.cores 0 { s.core 0 with cell := some { bench := 1, row := 0, col := 0 } } }
    b.cells s = [1] ∧ (b.cells s).any (fun p => (s.core p).claimed) = false ∧ (b.cells t).any (fun p => (t.core p).claimed) = true ∧
    (b.faces x).any (fun p => (x.core p).cell.isSome) = true ∧ crossings (b.links s) = [] ∧
    ((after (.claim 0 0) t).thr 0 0).reg 6 = 1 ∧ ((after (.claim 0 0) x).thr 0 0).reg 6 = 2 ∧ (after (.claim 0 0) s).benches.length = 1 ∧
    ((after (.claim 0 0) s).core 1).cell.isSome = true ∧ ((after (.claim 0 0) s).core 0).faces = [0] := by decide

/-- Bench 1 with core 1 as its one cell, frozen, and words in its queues. -/
def frozen (b : Bench) (x : Cell) (w n : List Pulse) : State :=
  let s := waits left (.gang 6)
  { s with cores := tset s.cores 1 { right with cell := some { x with frozen := true }, westIn := w, northIn := n }, benches := [(1, b)] }
def cell0 : Cell := { bench := 1, row := 0, col := 0 }

theorem witness_pulses :
    let p : Pulse := ⟨0x0201, 0xF0, 0⟩
    let latch := frozen bench cell0 [] [p]
    let ws := frozen bench { cell0 with latched := 4 } [p] [p, p]
    let rs := frozen { bench with ws := false } cell0 [p] [p]
    let sc := frozen { bench with ws := false, fmt := 13, grp := 1 } cell0 [{ p with tag := 1 }] [{ p with tag := 1 }]
    let zp := frozen { bench with ws := false, fmt := 13, grp := 1 } cell0 [{ p with tag := 2 }] [{ p with tag := 2 }]
    let fin := frozen { bench with ws := false } cell0 [p] [{ p with tag := 3 }]
    let at' := fun (s : State) => (s.pulseAt 1).map (·.1)
    at' latch = some .latch ∧ at' ws = some .ws ∧ at' rs = some .rs ∧ at' sc = some .scale ∧ at' zp = some .zero ∧ at' fin = some .fin ∧
    tagKind p = 0 ∧ (∀ e ∈ [latch, ws, rs, sc, zp, fin], ∃ t, (e.pulseAt 1).map (·.2) = some t ∧ t ≤ e.cyc) ∧
    (∀ e ∈ [latch, ws, rs, sc, zp, fin], ∀ d, bench.eastOf e cell0 ≠ some (1, d) ∧ bench.southOf e cell0 ≠ some (1, d)) ∧
    ((after (.latchPulse 1) latch).core 1).latch.get 0 = 0x0201 ∧ ((after (.wsDataPulse 1) ws).core 1).cell.map (·.pulses) = some 1 ∧
    ((after (.rsDataPulse 1) rs).core 1).cell.map (·.open') = some true ∧ ((after (.scalePulse 1) sc).core 1).scaleA = 0x0201 ∧
    ((after (.zeroPointPulse 1) zp).core 1).zpB = 0x0201 ∧ ((after (.endPulse 1) fin).benches.map (fun e => e.2.reason)) = [2] := by decide

theorem witness_thaws :
    let at' := fun (n : Nat) => frozen { bench with reason := n, leave := [(0, 5)] } { cell0 with pulses := 8 } [] []
    let s := at' 2
    tfind s.benches 1 = some { bench with reason := 2, leave := [(0, 5)] } ∧ (s.thr 0 0).wait = .gang 6 ∧ (s.thr 0 0).inc = 0 ∧ bench.cells s = [1] ∧
    (after (.thawReturn 1) s).benches = [] ∧ ((after (.thawReturn 1) s).core 1).gst = wordN (8 * 2 ^ 32 + 2 * 16) ∧
    ((after (.thawReturn 1) s).thr 0 0).st = .ready ∧ ((after (.thawReturn 1) s).die 0).back = [5] ∧
    ((after (.thawReturn 1) (at' 7)).thr 0 0).st = .parked ∧ ((after (.freeze 1) s).core 1).cell.map (·.last) = some 1 := by decide

/-! ## Witnesses: launches, moves, records, kills -/

/-- A queue whose doorbell, at 0x3000, shows one entry at 0x4000: one core, entry 0x400000, identity 9. -/
def queue : Queue := { en := true, wix := 0x3000, rix := 0x3008, base := 0x4000, size := 1 }
def queued (q : Queue) : State :=
  let s := paged { cores := [] }
  { s with parts := s.parts.map (fun e => (e.1, { e.2 with queues := [(3, q)] })), keys := [(0, .loaded 0)], dieTab := [(0, { gated := 0 })],
           hbm := s.hbm ++ [(0x3000, 1), (0x4002, 0x40), (0x4008, 1), (0x400A, 1), (0x400C, 1), (0x4090, 9)] }

set_option maxRecDepth 8000 in
theorem witness_doorbell :
    let s := queued queue
    let e := queued { queue with rd := 1 }
    let w := queued { queue with rd := 2 }
    let n := { queued queue with hbmUe := [0x600] }
    (s.schedRead 0 0x3000 8).toOption = some 1 ∧ (n.schedRead 0 0x3000 8).toOption = none ∧ n.walkReport 0 0x3000 = n ∧
    (s.queue 0 3).wix.toNat % 8 = 0 ∧ 2 ^ 1 < (1 + 2 ^ 64 - 2) % 2 ^ 64 ∧ (1 + 2 ^ 64 - 0) % 2 ^ 64 ≤ 2 ^ 1 ∧ (e.queue 0 3).rd = 1 ∧
    ((after (.doorbellWrite 0 3) n).queue 0 3).err = 2 ∧ ((after (.doorbellWrite 0 3) w).queue 0 3).err = 1 ∧
    ((after (.doorbellWrite 0 3) e).queue 0 3).wr = 1 := by decide

set_option maxRecDepth 8000 in
theorem witness_heads :
    let s := (queued queue).modQueue 0 3 (fun y => { y with wr := 1 })
    (s.schedWords 0 0x4000 32).isOk = true ∧ (after (.doorbellWrite 0 3) (queued queue)).inflight ≠ [] ∧
    (((after (.doorbellWrite 0 3) (queued queue)).queue 0 3).head.map (fun f => (f.id, f.entry, f.status))) = some (9, 0x400000, 0) := by decide

/-- A head of one core. -/
def small : Field := { blank with fw := 1, fh := 1, entry := 0x400000, roles := [(0, plainRole 0x400000)], arg := 77, id := 9 }

set_option maxRecDepth 8000 in
theorem witness_dispatch :
    let s := queued { queue with head := some small, since := some 0, wr := 1 }
    let s' := s.modPart 0 (fun x => { x with cand := some 3 })
    s.eligible 0 3 = true ∧ small.moved = [] ∧ s'.originFor 0 3 small = some (0, 0) ∧ (s'.schedPlace 0 0x3008 2).isOk = true ∧
    (after (.dispatch 0) s).fields.map (fun e => e.2.stage) = [.placing] ∧ ((after (.dispatch 0) s).core 0).placing = true ∧
    ((after (.effectivePriorityRise 0 3) s).queue 0 3).rd = 1 := by decide

set_option maxRecDepth 8000 in
theorem witness_ganger :
    let f := { small with stage := .placing, lssize := 2, lsimg := 0x4002 }
    let s := { queued queue with fields := [(0, f)], cores := [(0, { field := some 0, fw := 1, fh := 1, placing := true })] }
    tfind s.fields 0 = some f ∧ f.tFlag = false ∧ s.fieldCores f = [0] ∧ ((after (.gangerStart 0) s).thr 0 0).st = .ready ∧
    ((after (.gangerStart 0) s).thr 0 0).pc = 0x400000 ∧ ((after (.gangerStart 0) s).thr 0 0).reg 1 = 77 := by decide

theorem witness_ends :
    let last := pair { left with cx := 0 } []
    let last := { last with cores := tset last.cores 1 { right with ended := true } }
    let f := { small with stage := .retiring, status := 3, queue := 5 }
    let p := { part with cring := { base := 0x1000, isSet := true } }
    let r : State := { fields := [(0, f)], parts := [(0, p)] }
    let b := { pair { left with fw := 1 } [] with fields := [(0, { small with stage := .fallback, tapes := [0x40], flcn := 0 })] }
    let h := { b with fields := [(0, { small with stage := .fallback, tapes := [0x40], flcn := 0, fmodes := 8 })] }
    let bare := fun (s : State) => { s with cores := [(0, { left with fw := 1 })] }
    (last.core 0).partDone = true ∧ (pair left []).fieldCores field = [0, 1] ∧ (last.core 1).ended = true ∧ p.cring.full = false ∧
    f.done = 0 ∧ ((bare b).core 0).settled = true ∧ (bare b).fieldCores small = [0] ∧ inMode small.fmodes 3 = false ∧ inMode 8 3 = true ∧
    ((after (.corePartEnd 0) (pair left [])).core 0).ended = true ∧ (after (.corePartEnd 0) last).fields.map (fun e => e.2.stage) = [.retiring] ∧
    (after (.retirement 0) r).fields = [] ∧ (after (.retirement 0) r).hostByte 0x1009 = 3 ∧
    (after (.replayFallback 0) (bare b)).fields.map (fun e => e.2.status) = [5] ∧
    (after (.replayFallback 0) (bare h)).fields.map (fun e => e.2.status) = [4] := by decide

theorem witness_recast :
    let o : Role := { present := true, dry := 5, entry := 0x80, recast := 2, stage := 4 }
    let f := { field with roles := [(0, o), (2, { o with recast := 0xFF })] }
    let s := { pair { left with dry := 5 } [thread [], thread []] with fields := [(0, f)] }
    tfind f.roles (s.core 0).role = some o ∧ (s.core 0).dryHeld = false ∧ o.dry ≤ (s.core 0).dry ∧ s.assisted 0 4 = false ∧
    (s.core 0).frozen = false ∧ ((after (.dryTimerExpiry 0) s).thr 0 0).evp = 2 ∧ ((after (.coreRecast 0 2) s).core 0).role = 2 ∧
    ((after (.coreRecast 0 2) s).thr 0 1).st = .empty ∧ ((after (.coreRecast 0 2) s).thr 0 0).reg 4 = 256 := by decide

theorem witness_moves_of_cores :
    let s := pair { left with migTo := some 5, ls := [(8, 7)] } [thread []]
    let r := { s with cores := tset s.cores 0 { s.core 0 with migTo := some 0 } }
    (s.core 0).migTo = some 5 ∧ (s.core 0).cell = none ∧ (s.core 0).mtile = none ∧ (r.core 0).migTo = some 0 ∧
    ((after (.migrationResume 0) r).core 0).migTo = none ∧ (after (.migrationSwitch 0) s).lsByte 5 8 = 7 ∧
    (after (.migrationSwitch 0) s).locate 0 = 5 ∧ ((after (.migrationSwitch 0) s).core 0).field = none := by decide

set_option maxRecDepth 4000 in
theorem witness_checkpoints :
    let h := { thread [] with st := .waiting, wait := .ckpt 6 }
    let s := alone h
    let f := { field with fw := 1 }
    let e : Undo := ⟨0x40, 1, 7, none⟩
    let roll := { s with fields := [(0, { f with stage := .rolling, undo := [e] })] }
    let saved := { s with fields := [(0, { f with stage := .rolling, undo := [e], valid := some 1, images := [[], [(0, { left with sq0 := 3 })]] })] }
    let due := { alone (thread []) with parts := [(0, { part with ckint := 100 })], cyc := 100 }
    (s.fieldCores f).Nodup ∧ (s.core 0).ckptArrived = true ∧ (s.core 0).ckReady = true ∧ (s.core 0).writeSet (fun _ => true) = [] ∧
    (s.part 0).ckbase = 0 ∧ f.lastCk + (due.part 0).ckint ≤ due.cyc ∧ due.assisted 0 6 = false ∧ roll.hbm.wf = true ∧
    ((after (.ckptCollective 0) s).thr 0 0).st = .ready ∧ ((after (.checkpointInterval 0) due).thr 0 0).evp = 4 ∧
    (after (.rollbackRestore 0) roll).hbmByte 0x40 = 7 ∧ (after (.rollbackRestore 0) roll).fields.map (fun e => e.2.stage) = [.placing] ∧
    ((after (.rollbackRestore 0) saved).core 0).sq0 = 3 := by decide

/-- A record of slot 0 of core 0 in the field, whose actions are as listed. -/
def record (c : Cause) : TrapRec := { seq := 6, cause := c, iword := 5 }
def acted (c : Cause) (a : Nat) : List Word := (List.replicate 64 0).set c.code (wordN a)

theorem witness_records :
    let at' := fun (a m n : Nat) => { pair left [{ thread [] with st := .parked, recs := 1, repCount := n }] with
      fields := [(0, { field with actions := acted .illegal a })], dieTab := [(0, { recs := [{ record .illegal with modes := m }] })] }
    let s := at' 1 0 0
    (s.die 0).recs = record .illegal :: [] ∧ field.discards = false ∧ s.recordWaits 0 field (record .illegal) = false ∧ (record .illegal).lcn < 2 ∧ inMode 0 1 = false ∧ inMode 2 1 = true ∧
    (({ field with actions := acted .illegal 1 }).action .illegal).1 = 1 ∧ (({ field with actions := acted .illegal 2 }).action .illegal).1 = 2 ∧
    (s.thr 0 0).repCount < 16 ∧ 16 ≤ ((at' 1 0 16).thr 0 0).repCount ∧ ((after (.trapService 0 6) s).thr 0 0).st = .ready ∧
    ((after (.trapService 0 6) (at' 1 0 16)).part 0).tpend.map (·.rpt) = [true] ∧ ((after (.trapService 0 6) (at' 2 0 0)).part 0).tpend.length = 1 ∧
    ((after (.trapService 0 6) (at' 1 2 0)).part 0).tpend.length = 1 := by decide

set_option maxRecDepth 4000 in
theorem witness_host_actions :
    let p := { part with tpend := [record .illegal], tring := { base := 0x1000, isSet := true } }
    let s := { pair left [{ thread [] with st := .parked, recs := 1 }] with parts := [(0, p)], fields := [(0, { field with
      actions := acted .illegal (3 + 2 ^ 8) })] }
    let a := { s with parts := [(0, { part with await := [record .illegal] })] }
    let c := { a with fields := [(0, { field with ckb := 0x1000, cks := 0x100000 })] }
    let n := { s with parts := [(0, part)] }
    p.tring.full = false ∧ (a.part 0).await = [record .illegal] ∧ (record .illegal).seq % 2 ^ 61 = 6 ∧ a.lcnPos field 0 = 0 ∧
    ({ field with actions := acted .illegal (3 + 2 ^ 8) }).action .illegal = (3, 1) ∧ (a.core (a.locate 1)).field ≠ none ∧
    ({ field with ckb := 0x1000, cks := 0x100000 }).ckArea ≠ none ∧ (n.part 0).await = [] ∧
    (after (.trapRecordDelivery 0) s).hostByte 0x1000 = 6 ∧ (after (.tactKill 0 6) a).fields.map (fun e => e.2.stage) = [.killing] ∧
    ((after (.tactReplay 0 6) a).thr 0 0).st = .ready ∧ ((after (.tactPark 0 6) a).part 0).await = [record .illegal] ∧
    (after (.tactForward 0 6) a).lsByte 1 0x5FC0 = 6 ∧ ((after (.tactRollback 0 6) c).part 0).await = [] := by decide

theorem witness_kills :
    let s := { pair { left with deque := [(1, 2)] } [thread []] with fields := [(0, { field with stage := .killing })] }
    let free : State := { s with cores := [(0, { sweeps := [(3, 0)], part := 0 })] }
    let clean := { s with cores := [(0, { left with threads := [] }), (1, right)] }
    let roll := { clean with fields := [(0, { field with stage := .rolling })] }
    (s.core 0).field = some 0 ∧ s.benches = [] ∧ (s.core 0).migTo = none ∧ (free.core 0).field = none ∧
    (∀ e ∈ clean.cores, e.2.sweeps = [] ∧ e.2.pbuf = []) ∧ clean.inflight = [] ∧ ((after (.killMessage 0 3) s).core 0).deque = [] ∧
    ((after (.killMessage 0 3) s).thr 0 0).st = .empty ∧ ((after (.killMessage 0 3) free).core 0).sweeps.length = 2 ∧
    ((after (.killSweepEnd 0 3) free).core 0).sweeps = [] ∧ (after (.killConfirmation 0) clean).fields.map (fun e => e.2.status) = [3] ∧
    (after (.killConfirmation 0) roll).inflight.length = 1 := by decide

theorem witness_completed_changes :
    let at' := fun (n : Nat) => { pair left [] with xlate := [page 0], parts := [(0, { part with
      changes := [⟨if n = 1 then 1 else 0, 0, 2 ^ 30, [], n, 0, 0⟩], imports := [(4096, ⟨5, 0, 0⟩)] })], keys := [(0, .revoking 0)] }
    ((at' 0).part 0).changes = ⟨0, 0, 2 ^ 30, [], 0, 0, 0⟩ :: [] ∧ ((at' 1).part 0).changes = ⟨1, 0, 2 ^ 30, [], 1, 0, 0⟩ :: [] ∧
    tfind ((at' 2).part 0).imports 4096 = some ⟨5, 0, 0⟩ ∧ ((at' 0).core 0).cell = none ∧ (after (.translationChangeComplete 0) (at' 0)).xlate = [] ∧
    tget .empty (after (.translationChangeComplete 0) (at' 1)).keys 0 = .revoked ∧
    tfind ((after (.translationChangeComplete 0) (at' 2)).part 0).imports 0 = some ⟨5, 0, 0⟩ ∧
    ((after (.ueCoreState 0) (at' 0)).die 0).recs.map (·.org) = [3] := by decide

/-! ## Witnesses: the host, management, links, the debugger -/

/-- Partition 0 with command registers as listed. -/
def commanded (r : Tab Word) (s : State) : State := { s with parts := [(0, { part with regs := r, ptroot := 0x1000 })] }

set_option maxRecDepth 8000 in
theorem witness_registers :
    let s := pair left []
    let q := queued { queue with hlt := true, err := 2 }
    let o := queued { queue with hlt := true, err := 1, wr := 1 }
    tfind s.parts 0 = some part ∧ tfind s.parts 4 = none ∧ (5 : Nat) % 8 ≠ 0 ∧ (q.queue 0 3).hlt = true ∧ (q.queue 0 3).err ≠ 1 ∧
    (o.queue 0 3).err = 1 ∧ ((o.modQueue 0 3 (fun y => { y with hlt := false, err := 0 })).schedPlace 0 0x3008 2).isOk = true ∧
    ((after (.registerWrite 1 0x0100 0xFF) s).part 0).modes = 0x7F ∧ (after (.registerWrite 0 0x0108 9) s).parg = 9 ∧
    ((after (.registerWrite 1 0x0500 0xF234567890) s).part 0).apbase = 0xF000000000 ∧ ((after (.hltClear 0 3) q).queue 0 3).hlt = false ∧
    ((after (.hltClear 0 3) o).queue 0 3).rd = 1 := by decide

set_option maxRecDepth 8000 in
theorem witness_partition_commands :
    let inv := commanded [(0x0610, 0x10000), (0x0618, 0x20000)] (pair left [])
    let key := commanded [(0x0700, 0)] (pair left [])
    let imp := commanded [(0x0800, 5), (0x0808, 4)] (pair left [])
    let exp := commanded [(0x0900, 2), (0x0908, 0x10000), (0x0910, 64), (0x0918, 1)] (pair left [])
    let status := fun (i : Instr) (s : State) (o : Nat) => tget 0 ((after i s).part 0).regs o
    bits (key.part 0).keys 0 0 = 1 ∧ tget .empty key.keys 0 ≠ .empty ∧ status (.invRange 0) inv 0x0628 = wordN (2 ^ 63) ∧
    ((after (.invRange 0) inv).part 0).changes.map (·.todo) = [[0, 1]] ∧ status (.invRange 0) key 0x0628 = 0x101 ∧
    status (.loadKey 0) key 0x0708 = 0x103 ∧ status (.revoke 0) key 0x0708 = wordN (2 ^ 63) ∧
    tget .empty (after (.revoke 0) key).keys 0 = .revoking 0 ∧ tfind ((after (.importEntry 0) imp).part 0).imports 4101 = some ⟨4, 0, 0⟩ ∧
    status (.importEntry 0) (commanded [(0x0808, 0x20)] (pair left [])) 0x0828 = 0x101 ∧
    tfind ((after (.exportRange 0) exp).part 0).exports 2 = some ⟨0x10000, 64, true⟩ ∧
    status (.exportRange 0) (commanded [(0x0908, 1), (0x0910, 64)] (pair left [])) 0x0920 = 0x101 := by decide

theorem witness_scheduler_commands :
    let ctx : Word := wordN (3 * 2 ^ 48)
    let base := { pair left [] with dieTab := [(0, { gated := 0 })] }
    let at' := fun (a0 a1 : Word) (m : Nat) =>
      let s := commanded [(0x0B08, a0), (0x0B10, a1)] base
      { s with parts := s.parts.map (fun e => (e.1, { e.2 with modes := m })), fields := [(0, { field with roles := [(2, {})] })] }
    let code := fun (i : Instr) (s : State) => tget 0 ((after i s).part 0).regs 0x0B18 &&& 0xFF
    let f := { field with roles := [(2, {})] }
    (at' ctx 5 0).liveField 0 3 = some (0, f) ∧ (at' ctx 5 0).isFree 5 = true ∧ (at' ctx 1 0).isFree 1 = false ∧
    (at' ctx 5 0).lcnPos f 0 = 0 ∧ (part.pos 5 0) = 5 ∧ tfind f.roles 2 ≠ none ∧ tfind f.roles 5 = none ∧
    code (.migrateCore 0) (at' ctx 5 0) = 0 ∧ ((after (.migrateCore 0) (at' ctx 5 0)).core 0).migTo = some 5 ∧
    code (.migrateCore 0) (at' ctx 1 0) = 2 ∧ code (.migrateCore 0) (at' ctx (wordN (2 ^ 62)) 0) = 1 ∧ code (.recastCmd 0) (at' ctx 2 0) = 0 ∧
    code (.recastCmd 0) (at' ctx 5 0) = 2 ∧ code (.recastCmd 0) (at' ctx 8 0) = 1 ∧ code (.placeQueue 0) (at' 5 7 0) = 3 ∧
    code (.placeQueue 0) (at' 5 7 1) = 0 ∧ code (.placeQueue 0) (at' 64 7 1) = 1 := by decide

/-- Function 0 with a staged record and an operand; die 0 has its clock. -/
def staged (w : Tab Word) (a : Word) : State := { keys := [(1, .revoked)], dieTab := [(0, { clk := true })], pstage := w, parg := a }

theorem witness_partitions :
    let w : Word := wordN (1 + 2 ^ 16 + 2 ^ 32)
    let s := staged [(0, w), (1, 2)] 0x101
    let had := { s with parts := [(1, { part with keys := 2 })] }
    let code := fun (i : Instr) (s : State) => (after i s).pstat &&& 0xFF
    s.leaderUp = true ∧ s.stageBad = false ∧ dieRect 1 = some (0, 0, 1, 1) ∧ dieRect 5 = none ∧ tfind had.parts 1 ≠ none ∧
    (∀ e ∈ had.parts, e.2.destroying = false) ∧ had.partQuiet 1 = true ∧ (staged [(0, w + 0x100)] 0).stageBad = true ∧
    (s.stagePart (0, 0, 1, 1)).stackSet ≠ 0 ∧ ({ part with keys := 2 }).clash (s.stagePart (0, 0, 1, 1)) = true ∧
    bits (had.part 1).keys 1 1 = 1 ∧ tget .empty had.keys 1 = .revoked ∧ code .createPart (staged [(0, w + 0x100)] 0) = 4 ∧
    code .createPart had = 3 ∧ code .createPart (staged [(0, wordN (5 * 2 ^ 16))] 0) = 2 ∧
    code .createPart { s with parts := [(4, part)] } = 1 ∧ code .createPart { s with dieTab := [] } = 5 ∧
    code .ckset s = 3 ∧ code .ckset had = 0 ∧ code .ckset { had with pstage := [(0, w), (3, 1)] } = 4 ∧ code .destroyPart s = 3 ∧
    (after .destroyPart had).parts = [] ∧ code .kret s = 6 ∧ tget .empty (after .kret had).keys 1 = .empty := by decide

theorem witness_kill_command :
    let s := { pair left [] with parg := wordN (3 * 2 ^ 16) }
    s.liveField 0 3 = some (0, field) ∧ (after .killCtx s).fields.map (fun e => e.2.stage) = [.killing] := by decide

theorem witness_power :
    let s := { pair left [] with tthr := 50 }
    let open' : State := { dieTab := [(0, { gate := 1, gated := 0 })] }
    let shut : State := { dieTab := [(0, { gate := 0, gated := 1, ramp := 1, span := 0, ungated := 1 })] }
    let late := { shut with cyc := 1400 }
    s.dieOwner 0 = some 0 ∧ s.dieOwner 1 = none ∧ (open'.die 0).gate.getLsbD 0 = true ∧ open'.rowUsed 0 0 = false ∧ s.rowUsed 0 0 = true ∧
    (shut.die 0).gated.getLsbD 0 = true ∧ (shut.die 0).ramp ≤ (shut.die 0).ungated ∧ (late.die 0).span + 1400 ≤ late.cyc ∧
    (after .powerOnReset { s with svnMin := 7 }).svnMin = 7 ∧ ((after (.capWrite 0 9) s).die 0).cap = 9 ∧
    ((after (.clkWrite 0 0) s).die 0).cref = true ∧ ((after (.clkWrite 1 1) s).die 1).clk = true ∧ ((after (.rowGate 0 0) open').die 0).gated = 1 ∧
    ((after (.rowUngate 0 0) late).die 0).gated = 0 ∧ ((after (.rowUngate 0 0) shut).die 0).gated = 1 ∧
    (after (.sensorRead 0 0 49) s).seqNo = s.seqNo ∧ (after (.sensorRead 0 0 50) s).seqNo = s.seqNo + 1 ∧
    (after (.scrub 9) { s with hbmUe := [4] }).seqNo = s.seqNo + 1 := by decide

theorem witness_leases :
    let s : State := { fwStopped := [9], cyc := 28140000 }
    let due := fun (e : Nat) => { ({ cyc := 5, renewals := [(9, e)] } : State) with leaseEpoch := 1 }
    ({} : State).leaderUp = true ∧ s.leaderUp = false ∧ s.fwStopped.contains 0 = false ∧ (0 : Nat) ≠ s.leaseHolder ∧
    s.leaseExpiry + 140000 ≤ s.cyc ∧ s.cyc < s.leaseExpiry + 2 * 140000 ∧ (after .leaseRenewal (due 1)).leaseExpiry = 28000005 ∧
    (after .leaseRenewal (due 0)).leaseExpiry = 28000000 ∧ (after .leaseRenewal (due 0)).epochs = [] ∧
    (after (.leaseTakeover 0) s).leaseHolder = 0 ∧ (after (.leaseTakeover 1) s).leaseHolder = 9 := by decide

theorem witness_security :
    let s : State := { svnMin := 3, hostMem := [(0x1000, 5)], fwarg := 0x1000 }
    let image : List Byte := List.replicate 12 0 ++ [7, 0, 0, 0]
    let stopped := { s with fwStopped := [9] }
    let code := fun (i : Instr) (s : State) => (after i s).fwstat &&& 0xFF
    s.leaderUp = true ∧ stopped.leaderUp = false ∧ s.verified = none ∧ s.owners = [] ∧ s.parts = [] ∧ s.hostMem.wf = true ∧ (3 : Nat) ≤ 5 ∧
    (after .activate stopped).fwstat = wordN (2 ^ 63) ∧ code .verifyImage s = 1 ∧ code .activate s = 6 ∧
    (after .activate { s with verified := some image }).active = some image ∧ code .svnset s = 5 ∧
    (after .svnset { s with active := some (List.replicate 1000 9) }).svnMin = 5 ∧ (after .ownadd s).owners.length = 1 ∧
    (after .freshNonce s).nonces.length = 1 ∧ code .ownxfer { s with parts := [(0, part)] } = 8 ∧ code .ownxfer s = 4 := by decide

theorem witness_inbound :
    let s := pair { left with ls := [(0x10, 9)] } []
    let e := { s with parts := [(0, { part with exports := [(2, ⟨0x10000, 64, true⟩)] })] }
    tfind s.parts 0 ≠ none ∧ tfind (s.part 0).exports 2 = none ∧ tfind (e.part 0).exports 2 = some ⟨0x10000, 64, true⟩ ∧
    (after (.inboundWrite 0 1 2 0x7FFE [1, 2, 3, 4]) s).inParts.map (fun q => (q.addr, q.bytes)) = [(0x7FFE, [1, 2]), (0x8000, [3, 4])] ∧
    (after (.inboundWrite 0 0 2 0 [1]) s).inParts = [] ∧ (after (.inboundWrite 0 1 4 0x10FF [1, 2]) s).inParts.map (·.addr) = [0x10FF, 0x1100] ∧
    (after (.peerInbound 0 1 0 2 0 64 [1]) s).seqNo = s.seqNo + 1 ∧ (after (.peerInbound 0 1 0 2 0 64 [1]) e).inParts.map (·.addr) = [0x10000] ∧
    (after (.inboundRead 0 1 2 0x10 1) s).inReads.length = 1 ∧ (after (.inboundRead 0 5 2 0x10 1) s).completions.map (·.status) = [3] ∧
    (after (.peerInbound 0 1 0 2 0 8 []) e).inReads.length = 1 := by decide

set_option maxRecDepth 8000 in
theorem witness_parts :
    let q : InPart := ⟨4, 1, 0, 2, 0x10, [9], 0, false⟩
    let s := { pair left [] with inParts := [q] }
    let out := { s with inParts := [{ q with addr := 2 ^ 24 }] }
    let edge := { s with inParts := [{ q with addr := 0x5FFF, bytes := [1, 2] }] }
    let m := { paged s with inParts := [{ q with kind := 4, addr := 0x5000 }] }
    let n := { s with inParts := [{ q with kind := 4, addr := 0x5000 }] }
    s.inParts.find? (fun m => m.n = 4) = some q ∧ (s.part 0).named 0x10 = some 0 ∧ (out.part 0).named (2 ^ 24) = none ∧
    (s.core 0).field ≠ none ∧ (m.inboundPlace 0 0x5000 2).toOption = some [(0x5000, 0)] ∧ (n.inboundPlace 0 0x5000 2).toOption = none ∧
    (after (.partSend 4) s).lsByte 0 0x10 = 9 ∧ (after (.partSend 4) out).seqNo = out.seqNo + 1 ∧ (after (.partSend 4) edge).lsByte 0 0x5FFF = 1 ∧
    (after (.partSend 4) m).hbmByte 0x5000 = 9 ∧ (after (.partSend 4) n).hbm = [] ∧ (after (.partAcknowledgement 4) s).inParts = [] := by decide

set_option maxRecDepth 8000 in
theorem witness_reads :
    let at' := fun (k a l : Nat) => { paged (pair { left with ls := [(0x10, 9)] } []) with inReads := [⟨6, 1, 0, k, a, l, 1⟩] }
    let bad := { at' 2 0x10 1 with cores := [(0, { left with lsUe := [2] })] }
    let wait := { at' 2 0x10 1 with inParts := [⟨0, 1, 0, 2, 0x10, [9], 0, false⟩] }
    let status := fun (s : State) => (after (.inboundReadPerform 6) s).completions.map (fun x => (x.status, x.bytes))
    (bad.core 0).lsBad 0x10 1 = true ∧ (at' 2 (2 ^ 24) 1).parts.map (fun e => e.2.named (2 ^ 24)) = [none] ∧
    ((at' 4 0x1000 1).readVirtual 0 0x1000 1).isOk = true ∧ ((at' 4 (2 ^ 40) 1).readVirtual 0 (2 ^ 40) 1).isOk = false ∧
    status (at' 2 0x10 1) = [(0, [9])] ∧ (status bad).map (·.1) = [1] ∧ status (at' 2 0x5FFF 2) = [(2, [])] ∧ status (at' 2 (2 ^ 24) 1) = [(2, [])] ∧
    status (at' 4 0x1000 1) = [(0, [1])] ∧ status (at' 4 (2 ^ 40) 1) = [(2, [])] ∧ status wait = [] ∧
    ((after (.inboundReadPerform 6) (at' 0 0x0108 8)).completions.map (·.status)) = [0] := by decide

theorem witness_links :
    let s := { pair left [] with parts := [(0, { part with ports := 2, telint := 100 })] }
    let two := { benched (thread []) with parts := [(0, { part with dies := 3 })], benches := [(1, { bench with chans := [(0, 4)] })] }
    let span := { two with fields := [(0, { field with x0 := 335 })], cores := [(335, left), (336, { right with place := 336 })] }
    s.portOwner 1 = some 0 ∧ (s.part 0).telint ≠ 0 ∧ (s.edge 0).retired < 84 ∧ two.leaderUp = true ∧ two.edgeOwner 0 = some 0 ∧
    ((after (.edgeDown 0) two).reach 3 9 [(edgeDies 0).1]).contains (edgeDies 0).2 = false ∧ span.fieldCores { field with x0 := 335 } = [335, 336] ∧
    dieOf 335 = 0 ∧ dieOf 336 = 1 ∧ ((after (.haulPortFailure 1) s).part 0).ports = 0 ∧ (after (.telemetryInterval 0) s).seqNo = s.seqNo + 5 ∧
    ((after (.channelRetirement 0 1) s).edge 1).retired = 1 ∧ ((after (.edgeDown 0) two).benches.map (fun e => e.2.reason)) = [7] ∧
    (after (.edgeDown 0) span).fields.map (fun e => e.2.stage) = [.killing] ∧ (after (.linkRetry 0 0 0) s).seqNo = s.seqNo + 1 ∧
    tget (0, 0) (after (.pcieLinkTraining 1 64 8) s).links 1 = (64, 8) := by decide

/-- R384: two reports of one location and class are one with count 2; one of another class waits beside it. -/
theorem witness_reports_coalesce :
    let s : State := { reports := [⟨4, 5, none, 0, 1, 7, 2, 0⟩] }
    (s.report none 5 0 7 3 0).reports = [⟨4, 5, none, 0, 2, 7, 2, 0⟩] ∧ (s.report none 5 0 7 3 0).seqNo = 2 ∧
    (s.report none 6 0 7 3 0).reports.length = 2 := by decide

set_option maxRecDepth 8000 in
/-- R370, R382: a waiting report reaches function 0's ring, or is lost on one that is not set. -/
theorem witness_reports_leave :
    let s : State := { reports := [⟨4, 5, none, 0, 2, 7, 2, 0⟩] }
    let r : State := { s with pring := { base := 0x1000, isSet := true, size := 4, lost := 3 } }
    s.pring.full = true ∧ r.pring.full = false ∧ r.hostMem.wf = true ∧ s.deliverReports.pring.lost = 1 ∧ s.deliverReports.hostMem = [] ∧
    r.deliverReports.msix = [(0, 1)] ∧ r.deliverReports.pring.wix = 1 ∧ r.deliverReports.reports = [] ∧
    r.deliverReports.hostByte 0x100C = 2 ∧ r.deliverReports.hostByte 0x1020 = 3 := by decide

theorem witness_debugger :
    let at' := fun (mask item : Nat) (v : Word) (h : Thread) =>
      let s := pair { left with bp1 := some (4, 1) } [h]
      commanded [(0x2008, wordN (3 * 2 ^ 48 + mask * 2 ^ 20 + item * 2 ^ 36)), (0x2010, v)] s
    let go := thread [9]
    let stop := { go with halted := true }
    let code := fun (i : Instr) (s : State) => tget 0 ((after i s).part 0).regs 0x2020
    let shown := fun (i : Instr) (s : State) => tget 0 ((after i s).part 0).regs 0x2018
    let mig := { at' 1 0 0 go with cores := [(0, { left with migTo := some 7 })] }
    ((at' 1 1 0 stop).dcore 0).toOption = some 0 ∧ (at' 1 0 0 go).liveField 0 3 = some (0, field) ∧ ((at' 1 0 0 stop).thr 0 0).halted = true ∧
    code (.haltSlots 0) (commanded [] (pair left [])) = 1 ∧ code (.haltSlots 0) mig = 3 ∧ code (.rdreg 0) (at' 3 1 0 stop) = 1 ∧
    code (.rdreg 0) (at' 1 1 0 go) = 2 ∧ code (.rdcell 0) (at' 1 0 40 stop) = 1 ∧ code (.debugThaw 0) (at' 1 0 0 go) = 3 ∧ code (.barrd 0) (at' 1 4 0 go) = 1 ∧
    ((after (.haltSlots 0) (at' 1 0 0 go)).thr 0 0).haltReq = true ∧ ((after (.haltc 0) (at' 0 0 0 go)).core 0).haltc = true ∧
    ((after (.resumeSlots 0) (at' 1 0 0 stop)).thr 0 0).halted = false ∧ ((after (.stepSlot 0) (at' 1 0 0 stop)).thr 0 0).stepReq = true ∧
    shown (.rdreg 0) (at' 1 1 0 stop) = 9 ∧ ((after (.wrreg 0) (at' 1 1 7 stop)).thr 0 0).reg 1 = 7 ∧ shown (.rdreg 0) (at' 1 16 0 stop) = 0x400000 ∧
    shown (.rdspr 0) (at' 1 0 0x13 stop) = 1 ∧ shown (.rdcell 0) (at' 1 0 0 stop) = 0 ∧ ((after (.brkset 0) (at' 1 0 0x80 go)).core 0).bp0 = some (0x80, 1) ∧
    ((after (.brkclr 0) (at' 1 0x100 0 go)).core 0).bp1 = none ∧ shown (.barrd 0) (at' 1 1 0 go) = 0 := by decide

theorem witness_debug_events :
    let s := pair left [thread []]
    let b := after (.breakpointHit 0 0) s
    let r := { b with parts := [(0, { b.part 0 with dring := { base := 0x1000, isSet := true } })] }
    let x := benched (thread [])
    let x := commanded [(0x2008, wordN (3 * 2 ^ 48 + 1))] x
    (b.part 0).dring.full = true ∧ (r.part 0).dring.full = false ∧ (b.part 0).debugEv.length = 1 ∧ (b.thr 0 0).halted = true ∧
    (s.part 0).debugEv = [] ∧ (after (.debugEventDelivery 0) b).hostMem = [] ∧
    (after (.debugEventDelivery 0) r).msix = [(1, 3)] ∧ (after (.debugEventDelivery 0) r).hostByte 0x100D = 1 ∧
    ((after (.debugThaw 0) x).benches.map (fun e => e.2.reason)) = [6] := by decide

/-! ## Witnesses: the machine as a whole -/

/-- Core 0 at tick 0, the line of its next word cached: ADDI g1, g1, 1 and a word that is no instruction. -/
def fetching (bytes : List Byte) : State :=
  let s := pair left [thread [5]]
  { s with xlate := [page (stationUnit 0)], icache := [⟨clusterOf 0, 3, 0x400000, bytes ++ List.replicate 60 0, []⟩] }

def stepped (s : State) : State := outState s (step s)

theorem witness_step :
    let add := fetching (bytesLE (encodeNat (.addi 1 1 1)) 4)
    let bad := fetching [0, 0, 0, 0]
    let idle : State := { inflight := [(9, .ev (.leaseRenewal))], renewals := [(9, 0)] }
    let due : State := { idle with cyc := 9 }
    let again := { pair left [{ thread [5] with st := .waiting, wait := .retry (.addi 1 1 1) }] with turn := 9, inflight := [(0, .resume 0 0)] }
    let asked : State := { script := [.input (.registerWrite 0 0x0108 9)] }
    add.script = [] ∧ add.wheelCore = some 0 ∧ (add.thr 0 0).skip 0 = add.thr 0 0 ∧ (add.core 0).breaks 0 0x400000 = false ∧
    add.place 0 (codeWord 0x400000) 4 1 = .far (.hbm 0x400000 0) ∧ (add.cachedLine 0 0x400000).isSome = true ∧
    idle.wheelCore = none ∧ (∀ x ∈ idle.inflight, idle.cyc < x.1) ∧ again.wheelCore = none ∧ outside (.registerWrite 0 0x0108 9) = true ∧
    ((stepped add).thr 0 0).reg 1 = 6 ∧ ((stepped bad).thr 0 0).st = .parked ∧ (stepped idle).cyc = 1 ∧
    (stepped due).leaseExpiry = 28000009 ∧ ((stepped again).thr 0 0).reg 1 = 6 ∧ (stepped asked).parg = 9 := by decide

/-! ## Witnesses: waits, limits and traps, clause by clause -/

theorem witness_window_waits :
    let w : Vector Word 8 := regs [7]
    let h := { thread [code 0x40] with wdp := 2, olds := [w, w] }
    let at' := fun (p : BitVec 16) => solo { h with wsp := p }
    let b := fun (p : BitVec 16) => solo { thread [code 0x40] with wdp := 1, wsp := p }
    ((at' 0x5FC0).th.wsp.toNat + 64 ≤ min (at' 0x5FC0).th.wsl.toNat 0x6000) ∧ 0x6000 < (at' 0x6000).th.wsp.toNat + 64 ∧
    64 ≤ (b 0x6000).th.wsp.toNat ∧ (b 0x6000).th.wsp.toNat ≤ 0x6000 ∧ 0x6000 < (b 0x6040).th.wsp.toNat ∧ (b 0).th.wsp.toNat < 64 ∧
    (after (.call 4) (at' 0x5FC0)).th.wait = .retry (.call 4) ∧ (after (.call 4) (at' 0x6000)).th.st = .parked ∧
    (after (.ret 1) (b 0x6000)).th.wait = .retry (.ret 1) ∧ (after (.ret 1) (b 0x40)).th.wait = .retry (.ret 1) ∧
    (after (.ret 1) (b 0x6040)).th.st = .parked ∧ (after (.ret 1) (b 0)).th.st = .parked := by decide

theorem witness_served_bad :
    let e : Entry := { id := 0, dst := .ls 1 0, r := true, copy := 7 * 2 ^ 192, bad := 8 }
    let s := pair { left with pbuf := [e] } [thread [far 0x18, far 0]]
    s.me.servedBad (.ls 1 0x18) 8 = true ∧ s.me.servedBad (.ls 1 0) 8 = false ∧ (after (.ldd 5 1 0) s).th.st = .parked ∧
    (after (.ldd 5 2 0) s).th.wait = .reply [(5, 0)] := by decide

theorem witness_fences_wait :
    let s := pair store [thread [0x108, 5, 6]]
    let q := { s with serial := [(s.serialiser 0 1, [(1, 4, 0)])] }
    (tget [] s.serial (s.serialiser 0 1)) = [] ∧ (after (.fence 2 2) s).inflight.length = 1 ∧ (after (.fence 2 2) q).inflight = [] ∧
    tget [] (after (.fence 2 2) q).serial (s.serialiser 0 1) = [(1, 4, 0), (0, 0, 0)] ∧ (after (.waitge 2 1 3) s).th.limit = some 5 ∧
    (after (.waitge 2 1 3) s).watches.length = 1 ∧ (after .pend s).me.phase = 1 := by decide

theorem witness_port_waits :
    let h := thread [11, 12]
    let one := pair { left with portOut := [(1, [1, 2, 3, 4, 5, 6, 7])] } [h]
    let got := pair { left with portIn := [(1, [7])] } [h]
    let first : Thread := { thread [] with st := .waiting, wait := .retry (.psend 1 1) }
    let behind : State := { pair left [first, { h with stamp := 1 }] with cur := (0, 1) }
    let after' : State := { pair { left with portIn := [(1, [7, 8])] } [{ first with wait := .retry (.precv 1 1) }, { h with stamp := 1 }] with cur := (0, 1) }
    one.portRoom 0 1 1 = 1 ∧ tget [] got.me.portIn 1 = [7] ∧ behind.me.ahead 1 (sendsTo 1) = true ∧ after'.me.ahead 1 (recvsFrom 1) = true ∧
    tget [] (after (.psend 1 1) one).me.portOut 1 = [1, 2, 3, 4, 5, 6, 7, 11] ∧ (after (.psendq 1 2 1) one).th.wait = .retry (.psendq 1 2 1) ∧
    (after (.precv 3 1) got).readReg 3 = 7 ∧ (after (.precvq 3 4 1) got).th.wait = .retry (.precvq 3 4 1) ∧
    (after (.psend 1 1) behind).th.wait = .retry (.psend 1 1) ∧ (after (.psendq 1 2 1) behind).th.st = .waiting ∧
    (after (.precv 3 1) after').th.wait = .retry (.precv 3 1) ∧ (after (.precvq 3 4 1) after').th.st = .waiting ∧
    (after (.precvq 3 4 1) { after' with cur := (0, 0) }).me.ahead 0 (recvsFrom 1) = false := by decide

theorem witness_core_copies :
    let s := solo (thread [wordN (3 + 5 * 2 ^ 20 + 4 * 2 ^ 40 + 4 * 2 ^ 48), 0x1234])
    let t := after (.mts 2 0x30) s
    let g := after (.geo 1) s
    let at' := fun (u : State) (n : Nat) => { u with cyc := n }
    s.me.hist = [] ∧ (at' t 7).cyc < s.cyc + 8 ∧ s.cyc + 8 ≤ (at' t 8).cyc ∧ (after (.mfs 5 0x30) (at' t 7)).readReg 5 = 0 ∧
    (after (.mfs 5 0x30) (at' t 8)).readReg 5 = 0x1234 ∧ (after (.mfs 5 0x1B) (at' g 7)).readReg 5 = 0 ∧
    (after (.mfs 5 0x1B) (at' g 8)).readReg 5 = wordN (3 + 4 * 2 ^ 16) ∧ (after (.mfs 5 0x39) (at' (after (.mts 2 0x39) s) 8)).readReg 5 = 0 := by decide

set_option maxRecDepth 4000 in
theorem witness_tile_waits :
    let d := line 4 8 0x100
    let k := { cells with ac := Vector.ofFn (fun i => BitVec.ofNat 32 (i.val + 1)) }
    let s := pair k [thread [0, 1, 0x44, 0x11, wordN (6 * 2 ^ 32)]]
    let m : MTile := { slot := 1, inc := 0, desA := [], desB := [], m0 := 0, n0 := 0, k := 1, q := 0, granted := true }
    let b := pair { cells with mtile := some m } [thread [0, 1]]
    let u := pair { cells with tens := [(3, line 4 8 (2 ^ 62))] } [thread [0, 0, 0x11]]
    tfind s.me.tens 9 = none ∧ b.me.mtile.isSome = true ∧ Desc.inside d 3 0 0 0 = true ∧ (tileElems 0 0x44).length = 16 ∧
    tileElems 0 0x11 = [(0, 0, 0)] ∧ tileElems 0 0 = [] ∧ ((tileElems 0 0x12).map (fun e => Desc.addr d e.2.2 e.2.1 0 0)) = [0x100, 0x100] ∧
    (after (.mtile 2 1 2 1 0) b).th.wait = .retry (.mtile 2 1 2 1 0) ∧ (after (.mtile 9 1 2 1 0) s).th.st = .parked ∧
    (after (.mtile 2 1 2 1 0) (pair cells [thread [0, 1]])).me.mtile.isSome = true ∧ (after (.mst 1 3 9) s).th.st = .parked ∧
    (after (.mst 1 3 3) s).lsByte 0 0x10C = 4 ∧ (after (.mst 1 3 3) s).me.drop = 12 ∧ (after (.mst 5 4 3) s).lsByte 0 0x118 = 1 ∧
    u.place 0 (Desc.addr (line 4 8 (2 ^ 62)) 0 0 0 0) 4 2 = .trap .window (wordN (2 ^ 62)) ∧ (after (.mst 1 3 3) u).th.st = .parked ∧
    (after (.mst 1 3 3) u).th.recs = 1 := by decide

theorem witness_no_cell_format :
    let s := square [wordN (1 + 2 ^ 11), wordN (4 * 4), weights 1]
    (s.readReg 2).toNat / 4 % 32 = 4 ∧ 4 ∉ [0, 1, 6, 7, 8, 9, 10, 11, 12, 13, 14] ∧ s.me.field = some 0 ∧ tfind s.fields 0 = some { field with fw := 3, fh := 3 } ∧
    s.lcnPos { field with fw := 3, fh := 3 } 4 = 1009 ∧ (after (.gang 6 1 2) s).th.st = .parked ∧
    (after (.gang 6 1 3) s).claims.map (fun q => (q.x0, q.y0)) = [(1, 1)] ∧ (after (.gang 6 1 3) s).claims.map (·.ask) = [[(0, 3800)]] ∧
    ((after (.gang 6 1 3) s).die 0).queue.map (fun r => (r.w, r.left)) = [(3800, 3800)] := by decide

theorem witness_lane_limits :
    let at' := fun (i : Nat) (n : Nat) => pair { left with rates := [(i, (0, n))], drainN := [⟨5, 6, 0⟩] } [thread [9, 1]]
    let c := pair { left with drainN := [⟨5, 6, 4⟩] } [thread [9, 1]]
    let b := benched (thread [9, 1])
    (at' 1 1).me.moved 1 0 = 1 ∧ (at' 5 2).me.moved 5 0 = 2 ∧ (at' 5 1).me.moved 5 0 = 1 ∧ (at' 8 1).me.moved 8 0 = 1 ∧ c.cyc < 4 ∧
    b.neighbour 0 1 = some 1 ∧ (b.core 1).cell = cellCore.cell ∧ tfind b.benches 1 = some bench ∧ bench.reason = 0 ∧ (1 : Nat) ≠ 0 ∧
    (after (.feed 1 2 1) (at' 1 1)).th.wait = .retry (.feed 1 2 1) ∧ (after (.feed 1 2 1) (at' 5 2)).th.st = .waiting ∧
    (after (.feed 1 2 1) (at' 5 1)).th.st = .ready ∧ (after (.drainWord 3 4 0) (at' 8 1)).th.wait = .retry (.drainWord 3 4 0) ∧
    (after (.drainWord 3 4 0) c).th.st = .waiting ∧ ((after (.drainWord 3 4 1) b).benches.map (fun e => e.2.reason)) = [3] ∧
    ((after (.feed 1 2 3) b).benches.map (fun e => e.2.reason)) = [0] ∧ (after (.feed 1 2 3) b).th.st = .parked ∧
    (after (.drainWord 3 4 0) (at' 1 1)).me.moved 8 0 = 1 := by decide

theorem witness_sticky_bits :
    let y : Cell := { bench := 1, row := 0, col := 0, pulses := 5, iovf := true, inv := true, ovf := true, tag := true }
    let s := benched (thread [1])
    let b := { s with cores := tset s.cores 1 { right with cell := some y, faces := [3] } }
    (b.core 1).faces ≠ [] ∧ (after (.gstat 6 1) b).th.wait = .reply [(6, wordN (5 * 2 ^ 32 + 2 ^ 11 + 2 ^ 10 + 2 ^ 9 + 2 ^ 8 + 3))] := by decide

theorem witness_issue_faults :
    let s := pair tensors [thread [0, 8, 0]]
    let g := pair { tensors with tens := [(1, line 4 8 (2 ^ 61 + 0x400))] } [thread [0, 8, 0]]
    let c := { s with cores := tset s.cores 1 cellCore, benches := [(1, bench)] }
    s.issueFault 0 (s.mkCmd (.gather 3 1 2 1 0) 0 8 0) = some (.prot, 0x100) ∧ g.issueFault 0 (g.mkCmd (.gather 3 1 2 1 0) 0 8 0) = none ∧
    s.issueFault 0 (s.mkCmd (.copyElems 2 1 2 1 0) 0 8 0) = none ∧ (after (.gather 3 1 2 1 0) s).th.st = .parked ∧
    (after (.gather 3 1 2 1 0) s).me.seqq = [] ∧ (after (.gather 3 1 2 1 0) g).th.wait = .seq ∧
    (after (.feeds 3 1 2 1 3) c).benches.map (fun e => e.2.reason) = [0] ∧ (after (.feeds 3 1 2 1 0) c).th.st = .parked := by decide

set_option maxRecDepth 4000 in
theorem witness_replays :
    let s := pair { left with ls := [(0x400, 1)] } [thread [0x400, 0x800, wordN (2 ^ 62)]]
    let held := pair { left with scb := [⟨0x400, 0x43F, 0, false⟩] } [thread [0x400, 0x800]]
    (s.readReg 1).toNat % 64 = 0 ∧ (s.readReg 2).toNat % 8 = 0 ∧ (after (.tplay 6 1 2) s).th.wait ≠ .none ∧ (after (.tplay 6 1 2) s).th.st = .waiting ∧
    (after (.tplay 6 1 2) held).th.wait = .retry (.tplay 6 1 2) ∧ (after (.tplay 6 3 2) s).th.st = .parked := by decide

set_option maxRecDepth 4000 in
theorem witness_held_transfers :
    let w : Vector Word 8 := regs [7]
    let e : SbEntry := ⟨0, 0x7F, 0, false⟩
    let s := pair { left with scb := [e] } [{ thread [] with wdp := 2, olds := [w, w] }]
    let f := pair { left with scb := [e] } [{ thread [] with wdp := 1, wsp := 0x80, st := .waiting, wait := .retry (.ret 0) }]
    let b := pair { left with lsUe := [9] } [{ thread [] with wdp := 1, wsp := 0x80 }]
    (s.thr 0 0).spillDue = true ∧ (s.core 0).scbHit 0 64 = true ∧ (f.thr 0 0).fillDue = true ∧ (f.core 0).scbHit 0x40 64 = true ∧
    (f.thr 0 0).wantsWindow = true ∧ (b.thr 0 0).fillDue = true ∧ (b.thr 0 0).wantsWindow = false ∧ (b.core 0).lsBad 0x40 64 = true ∧
    ((after (.spill 0 0) s).thr 0 0).olds = [w, w] ∧ ((after (.fill 0 0) f).thr 0 0).olds = [] ∧ ((after (.fill 0 0) b).thr 0 0).st = .ready := by decide

theorem witness_full_tape :
    let tp : Tape := ⟨0x400, 2, [], [(3, 5)], 1, false, 0, 0, 0⟩
    let s := pair { left with tape := some tp } []
    tp.cap ≤ tp.written + 1 ∧ ((after (.tapeAppend 0) s).core 0).tape.map (·.ovf) = some true ∧
    ((after (.tapeAppend 0) (pair { left with tape := some { tp with cap := 3 } } [])).core 0).tape.map (·.ovf) = some false := by decide

theorem witness_denied_walk :
    let d := paged (waits left (.walk (some (.std 1 2 0)) 0x123 2))
    let d := { d with hbm := [(0x1000, 1), (0x1001, 0x20), (0x2000, 7)] }
    (match d.walk 0 0x123 with | .leaf x => d.walkDenies x 2 | _ => none) = some .prot ∧ ((after (.translationWalk 0 0) d).thr 0 0).st = .parked ∧ (after (.translationWalk 0 0) d).xlate = [] := by decide

theorem witness_installs :
    let e : Entry := { id := 4, dst := .ls 1 0, mask := 2, data := 0x700 }
    let x : Fetch := { id := 3, dst := .ls 1 0, slot := 0, inc := 0, got := some 5, due := true }
    let s := pair { left with fetches := [x], pbuf := [e] } []
    let u := pair { left with fetches := [{ x with ue := true, bad := 1 }] } []
    (s.core 0).pbuf.filter (fun y => y.dst = x.dst) = [] ++ [e] ∧ e.r = false ∧ x.room = none ∧ (u.core 0).fetches.length = 1 ∧
    ((after (.readSetInstall 0 3) s).core 0).pbuf.map (fun y => (y.r, y.mask)) = [(true, 2)] ∧
    ((after (.readSetInstall 0 3) s).core 0).pbuf.map (fun y => byteOf y.copy 0) = [5] ∧ ((after (.readSetInstall 0 3) u).core 0).pbuf = [] := by decide

theorem witness_drain_order :
    let e : Entry := { id := 4, dst := .ls 1 0, mask := 2, data := 0x700, d := true }
    let g : Entry := { e with id := 6, mask := 1 }
    let x : Fetch := { id := 3, dst := .ls 1 0, slot := 0, inc := 0, got := some 5, bad := 1 }
    let s := pair { left with pbuf := [e, g], fetches := [x] } [thread []]
    let t := pair { left with pbuf := [{ e with sent := true }, g] } []
    let last := pair { left with pbuf := [{ e with sent := true }] } []
    (∃ y ∈ (s.core 0).pbuf, y.dst = g.dst ∧ y.d = true ∧ y.id < g.id) ∧ (∀ y ∈ (s.core 0).pbuf, y.dst = e.dst → y.d = true → e.id ≤ y.id) ∧
    (last.core 0).partOver = true ∧ (s.core 0).partOver = false ∧ (after (.sectorDrain 0 6) s).lsByte 1 0 = 0 ∧
    ((after (.sectorDrain 0 4) s).core 0).fetches.map (·.got) = [some 0x705] ∧ ((after (.drainAcknowledgement 0 4) last).core 0).phase = 1 ∧
    ((after (.drainAcknowledgement 0 4) t).core 0).phase = 0 ∧ (after (.drainAcknowledgement 0 4) t).inflight.length = 1 := by decide

theorem witness_atomic_turns :
    let r : Req := { slot := 0, inc := 0, k := .atomic 0 true (.hbm 0x40 0) 3 0, cameAt := some 2 }
    let two := { pair left [] with cyc := 3, cores := [(0, { left with reqs := [r] }), (1, { right with reqs := [r] })] }
    let bad := { two with hbmUe := [8] }
    two.atomicAhead 1 2 = true ∧ two.atomicAhead 0 2 = false ∧ (2 : Nat) < two.cyc ∧ bad.hbmBad 0x40 8 = true ∧
    (after (.atomicAtHome 1 0) two).hbm = [] ∧ (after (.atomicAtHome 0 0) two).hbmGet (two.keyPair 0) 0x40 = 3 ∧
    (after (.atomicAtHome 0 0) two).owned = [(0, 1)] ∧ ((after (.atomicAtHome 0 0) bad).core 0).replies = [⟨0, 0, .ue⟩] := by decide

theorem witness_limits_answered :
    let q := ReqKind.fe 0 (.ls 1 0x10) 7
    let s := waits { left with reqs := [{ slot := 0, inc := 0, k := q }] } (.home 3 q 0x99) (some 0)
    let a := waits { left with replies := [⟨0, 0, .val 5⟩] } (.home 3 q 0x99) (some 0)
    let c := waits { left with replies := [⟨0, 0, .val 5⟩] } (.home 3 (.waitge (.ls 1 8) 5) 0x99) (some 0)
    (∀ y ∈ (s.core 0).replies, y.slot = 0 → y.inc ≠ 0) ∧ (∃ y ∈ (a.core 0).replies, y.slot = 0 ∧ y.inc = 0) ∧
    (after (.feLimitExpiry 0 0) a).inflight = [] ∧ ((after (.feLimitExpiry 0 0) a).thr 0 0).st = .waiting ∧
    ((after (.feLimitExpiry 0 0) s).core 0).reqs = [] ∧ ((after (.counterLimitExpiry 0 0) c).thr 0 0).st = .waiting := by decide

theorem witness_watched :
    let s := waits { left with ls := [(8, 5)] } (.home 3 (.waitge (.ls 0 8) 5) 0x99)
    let n := fun (v : Nat) => let u := { s with watches := [⟨.ls 0 8, 0, 0, 0⟩] }
                              { u with cores := tset u.cores 0 { u.core 0 with ls := [(8, BitVec.ofNat 8 v)] } }
    let z := pair left [{ thread [] with st := .sleeping, wait := .sleep 3, limit := some 0 }]
    let f := { z with cores := tset z.cores 0 { z.core 0 with cell := some { bench := 1, row := 0, col := 0, frozen := true } } }
    (n 5).overlaps (.ls 0 8) 8 (.ls 0 8) = true ∧ (n 5).counterSeen 0 (.ls 0 8) = (5, false) ∧ (n 4).counterSeen 0 (.ls 0 8) = (4, false) ∧
    ((n 5).notify (.ls 0 8) 8).watches = [] ∧ (((n 5).notify (.ls 0 8) 8).core 0).replies = [⟨0, 0, .val 5⟩] ∧
    ((n 4).notify (.ls 0 8) 8).watches.length = 1 ∧ ((after (.sleepTimeout 0 0) f).thr 0 0).st = .sleeping := by decide

theorem witness_sector_replies :
    let f : Fetch := { id := 6, dst := .ls 1 0, slot := 0, inc := 0, got := some 0x700 }
    let at' := fun (f : Fetch) (b : Bool) => waits { left with replies := [⟨0, 0, .sector 6 0x700 b⟩], fetches := [f] } (.load 6 3 1 true 1 0)
    let u := at' { f with ue := true } true
    ((at' f false).core 0).fetch 6 = some f ∧ (u.core 0).pbuf = [] ∧ ((after (.remoteReply 0 0) (at' f false)).thr 0 0).reg 3 = 7 ∧
    ((after (.remoteReply 0 0) (at' f false)).core 0).pbuf.map (·.copy) = [0x700] ∧
    ((after (.remoteReply 0 0) (at' { f with barred := true } false)).core 0).pbuf = [] ∧
    ((after (.remoteReply 0 0) u).thr 0 0).st = .parked ∧ ((after (.remoteReply 0 0) u).core 0).fetches = [] := by decide

theorem witness_late_peers :
    let e : Entry := { id := 4, dst := .imp 0 9 0 ⟨0, 0, 0⟩, mask := 1, data := 7, d := true, sent := true, sentAt := some 0 }
    let s := { pair { left with pbuf := [e] } [] with cyc := 2 ^ 20 }
    0 + 2 ^ 20 ≤ s.cyc ∧ (after (.peerReplyTimeout 0) s).seqNo = s.seqNo + 1 ∧ (after (.peerReplyTimeout 0) s).inflight.length = 1 ∧
    ((after (.peerReplyTimeout 0) { s with cyc := 2 ^ 20 - 1, parts := [(0, { part with ports := 1 })] }).core 0).pbuf = [e] := by decide

set_option maxRecDepth 4000 in
theorem witness_engine_waits :
    let q := copying 2
    let h : Thread := { thread [] with stamp := 3, st := .waiting, wait := .walk (some (.copyElems 2 1 2 1 0)) 0x400 3 }
    let s := pair { tensors with seqq := [{ q with slot := 1, stamp := 5, desS := [], desD := [] }] } [h, { thread [] with st := .waiting, wait := .seq }]
    let c := { q with ra := 0x400 }
    let bad := pair { tensors with lsUe := [0x80] } []
    let p := pair { tensors with copyQ := [q], haltc := true } []
    let m := pair { tensors with copyQ := [q], migStop := true } []
    (s.core 0).commandAhead 5 = true ∧ (s.core 0).commandAhead 2 = false ∧ (p.core 0).paused = true ∧ (m.core 0).paused = true ∧
    c.counter ≠ 0 ∧ c.counter.toNat % 8 = 0 ∧ (bad.core 0).lsBad 0x400 8 = true ∧ (after (.sequencerAccept 0) s).cores = s.cores ∧
    (bad.counterAdd 0 c).2 = some (.ue, 0x400) ∧ (after (.engineCommandComplete 0 0) p).cores = p.cores ∧
    (after (.engineCommandComplete 0 0) m).cores = m.cores ∧ (p.copyOne 0 q).2.wrote = 1 := by decide

set_option maxRecDepth 4000 in
theorem witness_feeds_limit :
    let q : Cmd := { word := encode (.feeds 3 1 2 1 1), rb := 1, desS := line 5 8 0x100 }
    let at' := fun (r : Tab (Nat × Nat)) => pair { left with copyQ := [q], ls := [(0x100, 7)], rates := r } []
    let one := at' [(5, (0, 1))]
    ((at' [(1, (0, 1)), (5, (0, 1))]).core 0).moved 1 0 + ((at' [(1, (0, 1)), (5, (0, 1))]).core 0).moved 5 0 = 2 ∧
    one.feedHeld 0 q = false ∧ (after (.feedsWordDelivery 0) (at' [(1, (0, 1)), (5, (0, 1))])).inflight.map (·.1) = [1] ∧
    ((after (.feedsWordDelivery 0) (at' [(5, (0, 2))])).core 1).westIn = [] ∧ ((after (.feedsWordDelivery 0) one).core 1).westIn.length = 1 ∧
    ((after (.feedsWordDelivery 0) one).core 0).moved 5 0 = 2 ∧ ((after (.feedsWordDelivery 0) one).core 0).copyQ.map (·.wrote) = [1] := by decide

set_option maxRecDepth 4000 in
theorem witness_held_tile :
    let g : List Word := [0x80, far 0x400, wordN (1 + 16 * 2 ^ 32), 0, wordN (16 + 16 * 2 ^ 20), 0, 0, 0]
    let m : MTile := ⟨0, 0, g, g, 0, 0, 1, 0, true⟩
    let s := pair { cells with mtile := some m } [{ thread [] with st := .waiting, wait := .mtile }]
    let s := { s with cores := tset s.cores 1 { right with placing := true } }
    s.elemHeld 0 m.desA (0, 0, 0, 0) = true ∧ (after (.kStep 0) s).cores = s.cores ∧ (after (.kStep 0) s).inflight.map (·.1) = [1] := by decide

theorem witness_ring_waits :
    let q : Cmd := { word := encode (.copyring 2 1 2 1), rb := 0x400000202, desS := line 4 8 0x100, desD := line 4 1 0x200 }
    let s := pair { left with ring := some { cmd := q }, qdepth := 2, haltc := true } []
    (s.core 0).paused = true ∧ ((after (.ringChunkStart 0) s).core 0).scb = [] ∧ (after (.ringChunkComplete 0) s).cores = s.cores := by decide

theorem witness_joins_wait :
    let j : Cmd := { word := encode (.qjoin 1 2) }
    let s := pair { left with joins := [j, { j with id := 4 }] } []
    (s.core 0).copyQ = [] ∧ wbits j.rb 1 0 = 0 ∧ ((after (.qjoinFenceComplete 0) s).core 0).joins.map (·.id) = [4] ∧
    (after (.qjoinFenceComplete 0) s).inflight.length = 1 := by decide

theorem witness_claims_by_die :
    let q : Claim := { core := 335, slot := 0, inc := 0, rect := 0, op := weights 1, x0 := 0, y0 := 0, w := 2, h := 1, ask := [], held := [(0, 5), (1, 5)] }
    let f := { field with x0 := 335 }
    let s : State := { parts := [(0, { part with dies := 3 })], fields := [(0, f)], keys := [(0, .loaded 0)], claims := [q],
                         cores := [(335, { left with threads := [(0, { thread [] with st := .waiting, wait := .gang 6 })] }), (336, { right with place := 336 })] }
    let b := q.bench s
    let other := { s with claims := [q, { q with slot := 1, taken := [335] }] }
    b.cells s = [335, 336] ∧ dieOf 335 = 0 ∧ dieOf 336 = 1 ∧ q ∉ ([] : List Claim) ∧
    ((b.cells s).filter (fun p => !q.taken.contains p)).map dieOf = [0, 1] ∧
    (after (.claim 335 0) s).claims.map (·.taken) = [[335]] ∧ (after (.claim 335 0) s).inflight.length = 1 ∧
    ((after (.claim 335 0) other).thr 335 0).reg 6 = 1 ∧ (after (.claim 335 0) other).claims.length = 1 := by decide

theorem witness_group_ends :
    let p : Pulse := ⟨0x0201, 0xF0, 0⟩
    let rs := frozen { bench with ws := false } cell0 [{ p with tag := 0x0F }] [{ p with tag := 0xF0 }]
    let sc := frozen { bench with ws := false, fmt := 13, grp := 1 } { cell0 with open' := true } [{ p with tag := 1 }] [{ p with tag := 1 }]
    let done := frozen bench { cell0 with pulses := 8, latched := bench.latches 0 } [] []
    let late := { done with cores := tset done.cores 1009 { right with drainN := [⟨0, 0, 9⟩] } }
    tagKind p = 0 ∧ ((after (.rsDataPulse 1) rs).core 1).cell.map (·.open') = some false ∧
    ((after (.scalePulse 1) sc).core 1).cell.map (·.open') = some false ∧ ((after (.scalePulse 1) sc).core 1).scaleA = 0x0201 ∧
    bench.complete done = true ∧ bench.drained done = true ∧ bench.complete late = true ∧ bench.drained late = false ∧
    (done.checkComplete 1).benches.map (fun e => e.2.reason) = [1] ∧ (late.checkComplete 1).benches.map (fun e => e.2.reason) = [0] := by decide

theorem witness_masked_vector :
    let p := { part with debugEv := [[1, 2]], dring := { base := 0x1000, isSet := true } }
    let s := { pair left [] with parts := [(0, p)], msixMask := [(1, 3)] }
    (1, 3) ∈ s.msixMask ∧ (after (.debugEventDelivery 0) s).msix = [] ∧ (after (.debugEventDelivery 0) s).msixPend = [(1, 3)] ∧
    (after (.debugEventDelivery 0) s).hostByte 0x1001 = 2 := by decide

theorem witness_dry_assisted :
    let o : Role := { present := true, dry := 5, entry := 0x80, recast := 2, stage := 4 }
    let s := { pair { left with dry := 5 } [thread []] with fields := [(0, { field with roles := [(0, o)] })], parts := [(0, { part with modes := 16 })] }
    s.assisted 0 4 = true ∧ ((after (.dryTimerExpiry 0) s).part 0).notes = [.dry 1 3 0] ∧ ((after (.dryTimerExpiry 0) s).thr 0 0).evp = 2 ∧
    (after (.dryTimerExpiry 0) s).inflight = [] ∧ (o.recast ≠ 0xFF) := by decide

set_option maxRecDepth 4000 in
theorem witness_switch_waits :
    let m : MTile := ⟨0, 0, grid 0, grid 0, 0, 0, 1, 0, true⟩
    let at' := fun (k : Core) => pair { k with migTo := some 5 } [thread []]
    let cell := at' { left with cell := cellCore.cell }
    let tile := at' { left with mtile := some m }
    let q := { copying 2 with done := 1 }
    let busy := at' { tensors with copyQ := [q], ls := [(0x104, 7)] }
    (cell.core 0).cell ≠ none ∧ (tile.core 0).mtile ≠ none ∧ (tile.core 0).copying = none ∧ (tile.core 0).filling = none ∧
    (busy.core 0).copying ≠ none ∧ (after (.migrationSwitch 0) cell).inflight.length = 1 ∧
    ((after (.migrationSwitch 0) tile).core 0).migStop = true ∧ (after (.migrationSwitch 0) tile).locate 0 = 0 ∧
    (after (.migrationSwitch 0) busy).locate 0 = 5 ∧ ((after (.migrationSwitch 0) busy).core 5).copyQ.map (·.done) = [2] ∧
    ((after (.migrationSwitch 0) busy).core 5).migStop = true ∧ (after (.migrationSwitch 0) busy).lsByte 5 0x204 = 7 := by decide

theorem witness_checkpoint_reads :
    let e : Entry := { id := 4, dst := .ls 1 0, r := true, copy := 7 }
    let s := alone { thread [] with st := .waiting, wait := .ckpt 6 }
    let s := { s with cores := tset s.cores 0 { s.core 0 with pbuf := [e] } }
    (s.core 0).ckReady = true ∧ ((after (.ckptCollective 0) s).core 0).pbuf = [] ∧ ((after (.ckptCollective 0) s).core 0).phase = 1 ∧
    ((after (.ckptCollective 0) s).thr 0 0).st = .ready := by decide

theorem witness_records_ended :
    let at' := fun (st : Stage) (h : Thread) (v : List TrapRec) => { pair left [h] with
      fields := [(0, { field with actions := acted .illegal 1, stage := st })], dieTab := [(0, { recs := [record .illegal] })], parts := [(0, { part with serving := v })] }
    let h : Thread := { thread [] with st := .parked, recs := 1 }
    let gone := at' .running { h with inc := 4 } []
    let kill := at' .killing h []
    let wait := at' .running h [record .page]
    ({ field with stage := .killing }).discards = true ∧ wait.recordWaits 0 { field with actions := acted .illegal 1 } (record .illegal) = true ∧
    (gone.thr 0 0).inc ≠ 0 ∧ ((after (.trapService 0 6) gone).thr 0 0).st = .parked ∧ ((after (.trapService 0 6) gone).die 0).recs = [] ∧
    ((after (.trapService 0 6) kill).thr 0 0).st = .parked ∧ ((after (.trapService 0 6) kill).die 0).recs = [] ∧
    ((after (.trapService 0 6) wait).die 0).recs.length = 1 ∧ (after (.trapService 0 6) wait).inflight.map (·.1) = [1] := by decide

theorem witness_replays_repeated :
    let at' := fun (rpt : Bool) (n : Nat) => { pair left [{ thread [] with st := .parked, recs := 1, repCount := n }] with
      parts := [(0, { part with await := [{ record .illegal with rpt := rpt }] })] }
    ((after (.tactReplay 0 6) (at' false 15)).thr 0 0).st = .ready ∧ ((after (.tactReplay 0 6) (at' false 16)).thr 0 0).st = .parked ∧
    ((after (.tactReplay 0 6) (at' false 16)).part 0).tpend.map (·.rpt) = [true] ∧ ((after (.tactReplay 0 6) (at' true 16)).thr 0 0).st = .ready := by decide

theorem witness_kill_told :
    let s := { pair left [] with fields := [(0, { field with stage := .killing })], parts := [(0, { part with modes := 32 })] }
    let t := after (.killConfirmation 0) s
    s.assisted 0 5 = true ∧ t.fields.map (fun e => (e.2.stage, e.2.confirmed)) = [(.killing, true)] ∧ (t.part 0).notes = [.purged 1 3] ∧
    ((after (.killConfirmation 0) t).part 0).notes = [.purged 1 3] ∧ (after (.killConfirmation 0) t).fields = t.fields := by decide

theorem witness_revoke_waits :
    let s := { pair { left with fetches := [{ id := 1, dst := .hbm 0x40 0, slot := 0, inc := 0 }] } [] with
      parts := [(0, { part with changes := [⟨1, 0, 2 ^ 30, [], 1, 0, 0⟩] })], keys := [(0, .revoking 0)] }
    s.accepted 0 0 = true ∧ (pair left []).accepted 0 0 = false ∧ tget .empty (after (.translationChangeComplete 0) s).keys 0 = .revoking 0 ∧
    (after (.translationChangeComplete 0) s).inflight.map (·.1) = [1] := by decide

theorem witness_no_leader :
    let s := { staged [(0, wordN (1 + 2 ^ 16 + 2 ^ 32))] 0x101 with fwStopped := [9] }
    s.leaderUp = false ∧ (after .createPart s).pstat = wordN (2 ^ 63) ∧ (after .createPart s).parts = [] ∧ (after .destroyPart s).pstat = wordN (2 ^ 63) ∧
    (after .createPart s).inflight.map (·.1) = [1] := by decide

set_option maxRecDepth 8000 in
theorem witness_limits_inbound :
    let s := pair { left with ls := [(0x10, 9)] } []
    let w := fun (fn bar off n : Nat) => (after (.inboundWrite 1 fn bar off (List.replicate n 0)) s)
    ¬ 512 < (List.replicate 512 (0 : Byte)).length ∧ (w 1 2 0 512).inParts.length = 1 ∧ (w 1 2 0 513).inParts = [] ∧ (w 1 2 0 513).aer = [(1, 1, 3)] ∧
    (w 5 2 0 4).aer = [(1, 5, 1)] ∧ (w 1 2 (2 ^ 35 - 3) 4).aer = [(1, 1, 1)] ∧ (w 1 2 (2 ^ 35 - 4) 4).aer = [] ∧ (w 1 3 0 4).aer.length = 1 ∧
    (w 0 0 0xFFF8 8).aer = [] ∧ (w 0 0 0x10000 8).aer.length = 1 ∧ (w 5 0 0 8).aer.length = 1 ∧
    (after (.inboundRead 1 5 0 0 8) s).inReads.length = 1 ∧ (after (.inboundRead 1 5 0 8 8) s).completions.map (·.status) = [3] ∧
    (after (.inboundRead 1 1 2 0 4096) s).inReads.length = 1 ∧ (after (.inboundRead 1 1 2 0 4097) s).aer = [(1, 1, 3)] ∧
    (after (.inboundRead 1 1 4 (2 ^ 36) 1) s).completions.length = 1 := by decide

set_option maxRecDepth 8000 in
theorem witness_parts_held :
    let q : InPart := ⟨4, 1, 0, 2, 0x10, [9], 0, false⟩
    let at' := fun (q : InPart) (k : Core) => { pair k [] with inParts := [q] }
    let hold := at' q { left with placing := true }
    let free := at' q {}
    let hole := at' { q with addr := 0x6000 } left
    let second := { at' q left with inParts := [{ q with n := 3, bytes := [1] }, q] }
    (hold.core 0).placing = true ∧ (free.core 0).field = none ∧ (0x6000 : Nat) ≤ 0x6000 % 0x8000 ∧
    (∃ m ∈ second.inParts, sameSrc m.src q.src = true ∧ m.n < q.n ∧ m.sent = false) ∧
    (after (.partSend 4) hold).inParts = [q] ∧ (after (.partSend 4) hold).inflight.map (·.1) = [1] ∧ (after (.partSend 4) free).cores = free.cores ∧
    (after (.partSend 4) free).inParts.map (·.sent) = [true] ∧ (after (.partSend 4) hole).seqNo = hole.seqNo + 1 ∧
    (after (.partSend 4) second).inParts = second.inParts := by decide

set_option maxRecDepth 8000 in
theorem witness_reads_bad :
    let at' := fun (a l : Nat) (k : Core) => { pair k [] with inReads := [⟨6, 1, 0, 2, a, l, 1⟩] }
    let bad := at' 0x10 24 { left with lsUe := [2, 4] }
    let free := at' 0x10 2 {}
    (bad.core 0).badWords 0x10 24 = [2, 4] ∧ (bad.core 0).lsBad 0x10 24 = true ∧ ((at' 0x10 8 { left with lsUe := [3] }).core 0).lsBad 0x10 8 = false ∧
    (after (.inboundReadPerform 6) bad).seqNo = bad.seqNo + 2 ∧ (after (.inboundReadPerform 6) bad).completions.map (fun x => (x.status, x.bytes.length)) = [(1, 24)] ∧
    (after (.inboundReadPerform 6) free).completions.map (fun x => (x.status, x.bytes)) = [(0, [0, 0])] := by decide

theorem witness_last_channel :
    let s := { benched (thread []) with parts := [(0, { part with dies := 3 })], edges := [(0, { retired := 83 })] }
    let t := after (.channelRetirement 0 0) s
    let lost := { s with edges := [], cores := tset s.cores 336 { right with place := 336, westIn := [⟨1, 0, 9⟩, ⟨2, 0, 0⟩] } }
    (s.edge 0).retired = 83 ∧ (t.edge 0).down = true ∧ (t.edge 1).down = true ∧ (84 : Nat) ≤ (t.edge 0).retired ∧ lost.edgeDead 0 = false ∧
    edgeOf (dieOf 336) (dieOf 335) = some 0 ∧ ((after (.edgeDown 0) lost).core 336).westIn.map (·.v) = [2] ∧
    (after (.edgeDown 0) t).cores = t.cores ∧ (after (.channelRetirement 0 0) { s with edges := [(0, { retired := 84 })] }).seqNo = s.seqNo ∧
    (after (.edgeDown 0) { t with fwStopped := [9] }).inflight.any (fun e => e.1 = t.cyc + 1) = true := by decide

theorem witness_halts_pend :
    let at' := fun (mask : Nat) (l : List Nat) (h : Thread) => commanded [(0x2008, wordN (3 * 2 ^ 48 + mask * 2 ^ 20))]
      (pair { left with haltMask := l } [h])
    let go := thread [9]
    let events := fun (s : State) => ((s.part 0).debugEv.length, (s.core 0).haltMask)
    let q := { copying 2 with done := 1 }
    let busy := commanded [(0x2008, wordN (3 * 2 ^ 48))] (pair { tensors with copyQ := [q], ls := [(0x104, 7)] } [])
    events (after (.haltSlots 0) (at' 1 [] go)) = (0, [1]) ∧ events (after (.haltSlots 0) (at' 1 [] { go with st := .waiting })) = (1, []) ∧
    events (after (.haltSlots 0) (at' 2 [] go)) = (1, []) ∧ (after (.resumeSlots 0) (at' 1 [1, 2] go)).cores.map (fun e => e.2.haltMask) = [[2], []] ∧
    (busy.core 0).copying ≠ none ∧ ((after (.haltc 0) busy).core 0).copyQ.map (·.done) = [2] ∧ ((after (.haltc 0) busy).core 0).haltc = true := by decide

set_option maxRecDepth 8000 in
theorem witness_ganger_places :
    let f := { small with stage := .placing }
    let s := { queued queue with fields := [(0, f)], cores := [(0, { field := some 0, fw := 1, fh := 1, placing := true, ls := [(8, 7)], gst := 5 })] }
    (∀ c ∈ s.fieldCores f, (s.core c).placing = true) ∧ s.fieldCores f ≠ [] ∧ ((after (.gangerStart 0) s).core 0).placing = false ∧
    (after (.gangerStart 0) s).lsByte 0 8 = 0 ∧ (after (.gangerStart 0) s).fields.map (fun e => e.2.stage) = [.running] := by decide

set_option maxRecDepth 8000 in
theorem witness_ends_keep :
    let last := pair { left with ls := [(8, 7)], gst := 5, tags := [1] } []
    let last := { last with cores := tset last.cores 1 { right with ended := true } }
    let t := after (.corePartEnd 0) last
    (last.core 0).field = some 0 ∧ (last.core 0).partDone = true ∧ (t.core 0).field = none ∧ (t.core 0).ls = [(8, 7)] ∧ (t.core 0).gst = 5 ∧ (t.core 0).tags = [1] := by decide

theorem witness_bad_registers :
    let s := fetching (bytesLE (encodeNat (.addi 1 1 1)) 4)
    let b := { s with cores := tset s.cores 0 { s.core 0 with regUe := [0] } }
    (b.core 0).regUe.contains (0 + 16 * 0) = true ∧ (s.core 0).regUe.contains 0 = false ∧ ((stepped b).thr 0 0).st = .parked ∧
    ((stepped b).die 0).recs.map (fun r => (r.cause, r.iword)) = [(.ue, encode (.addi 1 1 1))] := by decide

theorem witness_svn_writes :
    let s : State := { hostMem := [(0x1000, 5)], fwarg := 0x1000, active := some (List.replicate 1000 9) }
    (after (.registerWrite 0 0x3000 3) s).svnMin = 5 ∧ (after (.registerWrite 0 0x3000 2) s).svnMin = 0 ∧
    (after (.inboundWrite 0 0 0 0x3000 (bytesLE 3 8)) s).svnMin = 5 := by decide

theorem witness_withdrawn_tile :
    let m : MTile := ⟨0, 0, grid 0, grid 0, 0, 0, 1, 0, false⟩
    let h : Thread := { thread [] with st := .waiting, wait := .retry .mzero, stamp := 1 }
    let s := pair { left with mtile := some m, copyQ := [{ copying 2 with fault := some (.copyue, 0x100, false) }] }
      [{ thread [] with st := .waiting, wait := .mtile }, h]
    ((after (.engineFault 0 0) s).core 0).mtile = none ∧ (0, Action.resume 0 1) ∈ (after (.engineFault 0 0) s).inflight := by decide

/-- Core 0 is the cell of bench 1; the thread is core 1's, east of it. -/
theorem witness_faces_west :
    let s := pair { left with cell := cellCore.cell } []
    let s := { s with cores := tset s.cores 1 { right with threads := [(0, thread [9, 1])] }, benches := [(1, bench)], cur := (1, 0) }
    s.neighbour 1 3 = some 0 ∧ (s.core 0).cell = cellCore.cell ∧ (after (.feed 1 2 3) s).benches.map (fun e => e.2.reason) = [3] ∧
    (after (.feeds 3 1 2 1 3) s).benches.map (fun e => e.2.reason) = [3] ∧ (after (.feeds 3 1 2 1 3) s).th.st = .parked ∧
    (after (.drainWord 3 4 2) s).benches.map (fun e => e.2.reason) = [0] := by decide

/-! ## Witnesses: stops, waits and late answers of each access -/

theorem witness_callr_stops :
    let w : Vector Word 8 := regs [7]
    let at' := fun (p : BitVec 16) (x : Word) => solo { thread [x] with wdp := 2, olds := [w, w], wsp := p }
    let full := solo { thread [code 0x40] with wdp := 0xFFFF }
    full.th.wdp = 0xFFFF ∧ 2 ≤ (at' 0 0).th.olds.length ∧ (at' 0x5FC0 0).th.wsp.toNat + 64 ≤ min (at' 0x5FC0 0).th.wsl.toNat 0x6000 ∧
    (after (.callr 1) full).th.st = .parked ∧ (after (.callr 1) (at' 0x6000 (code 0x40))).th.st = .parked ∧
    (after (.callr 1) (at' 0x5FC0 (code 0x40))).th.wait = .retry (.callr 1) ∧
    ((after (.callr 1) (at' 0x5FC0 (code 2))).die 0).recs.map (·.cause) = [.align] ∧
    ((after (.callr 1) (at' 0x5FC0 8)).die 0).recs.map (·.cause) = [.window] ∧
    ((after (.ret 1) (at' 0 8)).die 0).recs.map (·.cause) = [.window] := by decide

theorem witness_denied :
    let m := wordN (0x1000000000000000 + 336 * 2 ^ 15)
    let s := paged (pair store [thread [wordN (2 ^ 62), 0x101, m, far 0x6000, wordN (2 ^ 61 + 0x40), wordN (3 * 2 ^ 60)]])
    let s := { s with xlate := [{ page (stationUnit 0) with w := false }] }
    let p := fun (i : Reg) => s.readReg i
    let causes := fun (i : Instr) => ((after i s).die 0).recs.map (fun r => (r.cause, r.faddr))
    4 ≤ (p 1).toNat / 2 ^ 60 ∧ (p 2).toNat % 2 ≠ 0 ∧ (p 3).toNat / 2 ^ 35 = 2 ^ 25 ∧ (s.part 0).w ≤ (p 3).toNat / 2 ^ 15 % 2 ^ 10 ∧
    0x6000 ≤ (p 4).toNat % 2 ^ 15 ∧ (s.cached (stationUnit 0) 0 ((p 5).toNat % 2 ^ 48)).map (fun e => (s.denies e 1, s.denies e 2)) = some (none, some .prot) ∧
    (p 6).toNat / 2 ^ 60 = 3 ∧ wbits (s.import' 0 0).dw0 0 0 = 0 ∧ causes (.ldbu 7 1 0) = [(.window, p 1)] ∧ causes (.ldh 7 2 0) = [(.align, p 2)] ∧
    causes (.stw 7 3 0) = [(.prot, p 3)] ∧ causes (.ldx 7 4 0 0 1 2) = [(.prot, p 4)] ∧ causes (.sth 7 5 0) = [(.prot, p 5)] ∧
    causes (.stx 7 6 0 0 3) = [(.prot, p 6)] := by decide

theorem witness_accesses_wait :
    let k := { store with scb := [⟨0x100, 0x107, 0, false⟩], lsUe := [0x21] }
    let s := pair k [thread [0x104, 0x108, 0x7FFC]]
    s.me.scbHit 0x104 4 = true ∧ s.me.scbHit 0x108 2 = false ∧ s.me.lsBad 0x108 2 = true ∧ (after (.ldwu 5 1 0) s).th.wait = .retry (.ldwu 5 1 0) ∧
    (after (.stx 5 1 0 0 1) s).th.wait = .retry (.stx 5 1 0 0 1) ∧ ((after (.ldhu 5 2 0) s).die 0).recs.map (·.cause) = [.ue] ∧
    (after (.stw 5 3 0) s).me.spoil = wordN (2 ^ 63 + 2 ^ 62 + 0x7FFC) ∧ (after (.ldx 3 3 0 0 0 2) s).readReg 3 = 0 ∧
    (after (.aadd 4 1 2 0) s).th.wait = .retry (.aadd 4 1 2 0) ∧ ((after (.acas 4 2 3 1) s).die 0).recs.map (·.cause) = [.ue] ∧
    (after (.amax 3 3 1 0) s).readReg 3 = 0 ∧ (after (.amax 3 3 1 0) s).me.spoil = wordN (2 ^ 63 + 2 ^ 62 + 0x7FFC) := by decide

theorem witness_own_bad : (pair { store with lsUe := [0x20] } [thread []]).OwnAccess 0x100 2 ∧
    (pair { store with lsUe := [0x20] } [thread []]).me.lsBad 0x100 2 = true := ⟨⟨by decide, by decide, by decide⟩, by decide⟩

theorem witness_far_widths :
    let s := solo (thread [far 0x1A, 2, wordN 0x2000000000400000])
    s.place 0 (far 0x1A) 2 1 = .far (.ls 1 0x1A) ∧ s.place 0 (far 0x1A) 2 2 = .far (.ls 1 0x1A) ∧ Dest.off5 (.ls 1 0x1A) % 2 = 0 ∧
    s.place 0 (s.readReg 3) 1 2 = .miss 0x400000 2 ∧ (after (.ldhu 5 1 0) s).me.fetches.map (·.dst) = [.ls 1 0] ∧
    (after (.stx 2 1 0 0 1) s).me.pbuf.map (fun e => (e.mask, byteOf e.data 0x1A)) = [(0xC000000, 2)] ∧
    (after (.stb 2 3 0) s).th.wait = .walk (some (.stb 2 3 0)) 0x400000 2 := by decide

theorem witness_atomic_faults :
    let x := { page (stationUnit 0) with w := false }
    let e : Entry := { id := 4, dst := .ls 1 0, r := true }
    let s := pair { left with pbuf := [e] } [thread [wordN (2 ^ 62), 0x102, wordN (3 * 2 ^ 60), wordN (2 ^ 61), far 0x18]]
    let d := { s with xlate := [x] }
    let causes := fun (i : Instr) (s : State) => ((after i s).die 0).recs.map (·.cause)
    (s.readReg 3).toNat / 2 ^ 60 = 3 ∧ d.cached (stationUnit 0) 0 0 = some x ∧ d.denies x 3 = some .prot ∧ s.place 0 (s.readReg 4) 8 3 = .miss 0 3 ∧
    s.place 0 (s.readReg 5) 8 3 = .far (.ls 1 0x18) ∧ (∀ e ∈ s.me.pbuf, e.mask = 0) ∧ causes (.aor 7 1 6 1) s = [.window] ∧ causes (.afadd 7 2 6) s = [.align] ∧
    causes (.aswp 7 3 6 0) s = [.prot] ∧ causes (.aminu 7 4 6 1) d = [.prot] ∧ (after (.axor 7 4 6 1) s).th.wait = .walk (some (.axor 7 4 6 1)) 0 3 ∧
    (after (.acas 4 5 2 1) s).me.reqs.map (·.k) = [.atomic 9 true (.ls 1 0x18) 0x102 (2 ^ 61)] := by decide

theorem witness_powers :
    IsInt (fp16.val 0x4200) 3 ∧ IsPow (fp16.val 0x4800) false 3 ∧ IsPow (fp16.val 0xB000) true (-3) ∧ IsPow (fp16.val 0x4400) false (2 * 1) ∧
    IsPow (fp16.val 0x3800) false (-1) ∧ IsPow (fp16.val 0xC800) true 3 ∧ (fp16.val 0x4200).neg = decide ((3 : Int) < 0) ∧
    specialFn 0 8 fp16 0x4200 0 0 = (0x4800, 0) ∧ specialFn 1 8 fp16 0x4800 0 0 = (0x4200, 0) ∧ specialFn 2 8 fp16 0xC800 0 0 = (0xB000, 0) ∧
    specialFn 3 8 fp16 0x4400 0 0 = (0x3800, 0) :=
  ⟨⟨false, 0x600, -9, by decide, by decide⟩, ⟨10, -7, by decide, by decide⟩, ⟨10, -13, by decide, by decide⟩, ⟨10, -8, by decide, by decide⟩,
   ⟨10, -11, by decide, by decide⟩, ⟨10, -7, by decide, by decide⟩, by decide, by decide, by decide, by decide, by decide⟩

set_option maxRecDepth 4000 in
theorem witness_ended_recording :
    let x : Tape := { area := 0x400, cap := 4, patch := List.replicate 32 0, id := 2 }
    let at' := fun (h : Thread) (l : List Thread) => pair { left with tape := some x, lastTape := [(1, 3), (2, 0)] } ({ thread [0, 5] with tape := some 1, opnd := some ⟨regs [], regs [], 0, none⟩ } :: h :: l)
    let s := at' (thread []) []
    let ahead := fun (w : Wait) => { at' { thread [] with st := .waiting, wait := w, tape := some 2, opnd := some ⟨regs [], regs [], 0, none⟩ } [] with cur := (0, 1) }
    s.me.tapeFor 0 = some 1 ∧ x.id ≠ 1 ∧ (after (.tend 6) s).readReg 6 = 3 ∧ (after (.tend 6) s).me.tape = some x ∧ (after (.tguard 1 2) s).me.tape = some x ∧
    (ahead (.retry (.tguard 1 2))).me.tapePending 0 2 = true ∧ (ahead (.retry (.tend 6))).me.tapeFor 1 = some 2 := by decide

theorem witness_scoped_loads :
    let q : ReqKind := .lda (.ls 1 0) 4 false 1
    let s := waits { left with pbuf := [{ id := 0, dst := .ls 1 0, r := true }, { id := 1, dst := .ls 1 0x40, r := true }], replies := [⟨0, 0, .val 5⟩] } (.home 3 q 0)
    (s.thr 0 0).wait = .home 3 q 0 ∧ ((after (.remoteReply 0 0) s).core 0).pbuf = [] ∧ ((after (.remoteReply 0 0) s).thr 0 0).reg 3 = 5 := by decide

theorem witness_engine_records :
    let q := { copying 2 with fault := some (.copyue, 0x100, false), wrote := 1 }
    let at' := fun (h : Thread) => pair { tensors with copyQ := [q] } [h]
    let g := pair { tensors with gatQ := [q] } [thread []]
    let two := after (.engineFault 0 0) (at' { thread [] with st := .parked, recs := 1 })
    let asleep := after (.engineFault 0 0) (at' { thread [] with st := .sleeping, wait := .sleep 3, limit := some 9 })
    let seqd := after (.engineFault 0 0) (pair { tensors with copyQ := [q], seqq := [copying 1] } [{ thread [] with st := .waiting, wait := .seq }])
    let gone := after (.engineFault 0 0) (at' { thread [] with inc := 4 })
    let empty := after (.engineFault 0 0) (at' {})
    (g.core 0).head 1 = some q ∧ ((after (.engineFault 0 1) g).core 0).gatHalt = true ∧ ((after (.engineFault 0 1) g).die 0).recs.map (fun r => wbits r.dw7 7 7) = [1] ∧
    (two.thr 0 0).recs = 2 ∧ (asleep.thr 0 0).st = .parked ∧ (asleep.thr 0 0).limit = some 9 ∧ (seqd.core 0).seqq = [] ∧ (gone.thr 0 0).st = .ready ∧
    (gone.die 0).recs.map (fun r => (r.e, r.iaddr)) = [(true, 0)] ∧ (empty.thr 0 0).st = .empty ∧ (empty.die 0).recs.map (·.e) = [true] := by decide

theorem witness_negative_copies :
    let q := copying 2
    let k := { tensors with ls := [(0x100, 7)] }
    let s := pair { k with copyQ := [q] } []
    let low := { q with sadv := -3 }
    let drop := { q with dadv := -3 }
    let ran := { q with desS := line (4 + 2 ^ 9) 8 0x100 }
    ran.srcAt 0 = .none ∧ (s.copyOne 0 ran).2.done = 1 ∧ (s.copyOne 0 ran).2.wrote = 0 ∧ s.sectorBad 0 ran 0 = false ∧ low.srcAt 0 = .below ∧ s.sectorBad 0 low 0 = false ∧ drop.dstAt 0 = none ∧ s.sectorBad 0 drop 0 = false ∧ (s.copyOne 0 low).2.wrote = 1 ∧
    (s.copyOne 0 low).1.free = s.free + 1 ∧ ((s.copyOne 0 drop).1.core 0).drop = 1 ∧ (s.copyOne 0 drop).2.wrote = 0 := by decide

theorem witness_bad_entries :
    let s := paged (waits left (.walk (some (.ldd 1 2 0)) 0x123 1))
    let bad := { s with hbmUe := [0x400] }
    let odd := { s with hbm := [(0x1000, 3), (0x1001, 0x20), (0x2000, 0xF)] }
    let t := after (.translationWalk 0 0) bad
    let u := after (.translationWalk 0 0) odd
    let mal := { s with hbm := [(0x1000, 1), (0x1001, 0x20), (0x2000, 0x1F)] }
    let v := after (.translationWalk 0 0) mal
    bad.walk 0 0x123 = .bad 0x2000 0 ∧ (t.thr 0 0).st = .parked ∧ t.reports.map (·.cls) = [4] ∧ (u.thr 0 0).st = .parked ∧
    mal.walk 0 0x123 = .stop .prot (some 1) ∧ (v.thr 0 0).st = .parked ∧ v.reports.map (·.cls) = [12] := by decide

set_option maxRecDepth 8000 in
theorem witness_lowered_doorbell :
    let s := queued { queue with rd := 1, wr := 2, head := some small, since := some 0 }
    let n := queued { queue with wr := 1, head := some small, since := some 0 }
    let n := { n with hbmUe := [0x800] }
    (s.queue 0 3).rd = 1 ∧ ((after (.doorbellWrite 0 3) s).queue 0 3).head = none ∧ ((after (.doorbellWrite 0 3) s).queue 0 3).since = none ∧
    ((after (.doorbellWrite 0 3) n).queue 0 3).head.isSome = true := by decide

theorem witness_host_checkpoint :
    let s := { alone (thread []) with parts := [(0, { part with modes := 64 })] }
    s.assisted 0 6 = true ∧ ((s.hostCheckpoint 0 3).thr 0 0).evp = 4 ∧ after (.checkpointInterval 0) s = s ∧ s.hostCheckpoint 0 9 = s := by decide

theorem witness_unrestorable :
    let at' := fun (f : Field) (m : Nat) => { pair left [] with fields := [(0, { f with stage := .rolling })], parts := [(0, { part with modes := m })] }
    let u := { field with unrest := true }
    let done := { at' u 32 with fields := [(0, { u with stage := .killing, confirmed := true })] }
    let swept := { at' field 0 with cores := [(0, { sweeps := [(3, 0)], part := 0 })] }
    (after (.killConfirmation 0) (at' u 0)).fields.map (fun e => e.2.status) = [3] ∧
    (after (.killConfirmation 0) (at' u 32)).fields.map (fun e => (e.2.stage, e.2.confirmed)) = [(.killing, true)] ∧
    (after (.killConfirmation 0) (at' field 0)).fields.map (fun e => e.2.stage) = [.rolling] ∧ after (.killConfirmation 0) done = done ∧
    (after (.killSweepEnd 0 3) swept).inflight.map (·.2) = [.ev (.killConfirmation 0)] := by decide

theorem witness_moduli :
    let m : List Byte := List.replicate 384 7
    let s : State := { moduli := [m] }
    (∀ x ∈ s.moduli, sha256 x = sha256 m → x = m) ∧ m ∈ s.moduli := by
  exact ⟨fun _ hx _ => List.mem_singleton.mp hx, List.mem_singleton.mpr rfl⟩

set_option maxRecDepth 8000 in
theorem witness_parts_collapse :
    let q : InPart := ⟨4, 1, 0, 4, 0x5000, [9], 0, false⟩
    let s := { paged (pair left []) with inParts := [q] }
    let s := { s with parts := s.parts.map (fun e => (e.1, { e.2 with changes := [⟨0, 0, 2 ^ 30, [0], 3, 0, 0⟩] })) }
    s.collapsingAt 0 0x5000 = true ∧ (after (.partSend 4) s).inParts = [q] ∧ (after (.partSend 4) s).inflight.map (·.1) = [1] := by decide

theorem witness_link_errors :
    let s : State := { script := [.linkError 1 2] }
    (stepped s).aer = [(1, 2, 0)] ∧ (stepped s).script = [] := by decide

/-! ## Witnesses: the widened statements -/

/-- R56 to R58, R51, in FP16, E4M3 and to 8-bit integers: 2049 lies half way from 2048 to 2050, 65,520 past the largest value as
far as the next place. -/
theorem witness_rounding :
    let r := fun (f : Fmt) (mode u mant : Nat) (exp : Int) => f.round mode u false mant exp false
    fmtOf 8 = some fp16 ∧ fp16.val 0x6800 = .fin false 1024 1 ∧ fp16.val 0x6801 = .fin false 1025 1 ∧ fp16.maxFin = 0x7BFF ∧
    r fp16 0 0 2049 0 = (0x6800, fNX) ∧ r fp16 0 0 2051 0 = (0x6802, fNX) ∧ r fp16 1 0 2049 0 = (0x6800, fNX) ∧
    r fp16 2 0 2049 0 = (0x6801, fNX) ∧ r fp16 3 0 2049 0 = (0x6800, fNX) ∧ r fp16 4 0 2049 0 = (0x6801, fNX) ∧
    r fp16 5 0x7FFF 2049 0 = (0x6801, fNX) ∧ r fp16 5 0x8000 2049 0 = (0x6800, fNX) ∧ r fp16 0 0 2048 0 = (0x6800, 0) ∧
    r fp16 0 0 65520 0 = (0x7C00, fOF ||| fNX) ∧ r fp16 1 0 65536 0 = (0x7BFF, fOF ||| fNX) ∧ r fp16 0 0 65519 0 = (0x7BFF, fNX) ∧
    r fp16 0 0 1 (-25) = (0, fNX ||| fUF) ∧ r fp16 4 0 1 (-25) = (1, fNX ||| fUF) ∧ r fp16 0 0 1 (-24) = (1, 0) ∧
    r e4m3 0 0 480 0 = (0x7E, fOF ||| fNX) ∧ toInt 8 0 0 (.fin false 5 (-1)) = (2, fNX) ∧ toInt 8 4 0 (.fin true 5 (-1)) = (-3, fNX) ∧
    toInt 8 0 0 (.fin false 128 0) = (127, fNV) ∧ toInt 8 0 0 (.fin true 128 0) = (-128, 0) ∧ toInt 8 0 0 (.inf true) = (-128, fNV) := by
  decide

theorem witness_loopr_stops : let s := solo (thread [3, code 2, 8])
    (s.readReg 2).toNat % 4 ≠ 0 ∧ (s.readReg 3).toNat % 4 = 0 ∧ (s.readReg 3).toNat / 2 ^ 48 ≠ 0x2000 ∧
    ((after (.loopr 0 1 2) s).die 0).recs.map (fun r => (r.cause, r.faddr)) = [(.align, code 2)] ∧
    ((after (.loopr 1 1 3) s).die 0).recs.map (fun r => (r.cause, r.faddr)) = [(.window, 8)] := by decide

/-- Core 0 was placed at position 2; its page is replicated, in groups 0 and 1; import 5 is of 64 bytes and not writable. -/
theorem witness_homes_named :
    let q := { part with stackSet := 0x11, imports := [(5, ⟨1, 0, 64⟩)] }
    let s := { pair { left with place := 2 } [thread []] with parts := [(0, q)], xlate := [{ page (stationUnit 0) with rep := true, key := 4 }] }
    let f := { s with cores := tset s.cores 1 { right with fwdTo := some 7 } }
    s.place 0 (wordN (2 ^ 60 + 2 ^ 15 + 8)) 8 2 = .far (.ls 1 8) ∧ s.place 0 (wordN (2 ^ 60 + 2 * 2 ^ 15 + 8)) 8 2 = .own 8 ∧
    s.place 0 (wordN (2 ^ 60 + 2 ^ 25 + 0x5FF8)) 8 1 = .far (.ls 1008 0x5FF8) ∧ s.place 0 (wordN (2 ^ 60)) 8 1 = .own 0 ∧
    s.place 0 (wordN (2 ^ 61 + 0x1000)) 8 1 = .far (.hbm 0x1000 4) ∧ f.locate 1 = 7 ∧ s.locate 1 = 1 ∧
    s.place 0 (wordN (3 * 2 ^ 60 + 5 * 2 ^ 48 + 56)) 8 1 = .far (.imp 0 5 56 ⟨1, 0, 64⟩) ∧ (s.part 0).nearGroup 0 = 0 ∧
    (s.part 0).nearGroup 2 = 1 ∧ (s.part 0).groupStacks 1 = 1 ∧ (s.part 0).groupStacks 2 = 0 := by decide

/-- A store of 9 to core 1's word at 8, the buffer holding what each clause asks. -/
theorem witness_remote_stores :
    let e : Entry := { id := 4, dst := .ls 1 0, mask := 1, data := 7, r := true, copy := 5 }
    let at' := fun (l : List Entry) => pair { left with pbuf := l, nextId := 100 } [thread [far 8, 9]]
    let other := fun (d : Bool) => (List.range 64).map (fun i => ({ id := i, dst := .ls 1 (32 * (i + 1)), mask := 1, d := d } : Entry))
    let go := fun (l : List Entry) => after (.std 2 1 0) (at' l)
    let merges := go [e]
    let second := go [{ e with d := true }]
    let third := go [{ e with d := true }, { e with id := 5, d := true, r := false }]
    (at' []).place 0 (far 8) 8 2 = .far (.ls 1 8) ∧ Dest.off5 (.ls 1 8) % 8 = 0 ∧ (other false).length = 64 ∧
    merges.me.pbuf.map (fun y => (y.id, y.mask, byteOf y.data 8, byteOf y.copy 8, byteOf y.copy 0)) = [(4, 0xFF01, 9, 9, 5)] ∧
    second.me.pbuf.map (fun y => (y.id, y.mask, y.r)) = [(4, 1, false), (100, 0xFF00, true)] ∧ third.th.wait = .room [.far (.ls 1 8) 9 8] 0 1 (some 4) ∧
    (go (other false)).th.wait = .room [.far (.ls 1 8) 9 8] 0 1 (some 0) ∧ ((go (other false)).me.pbuf.filter (·.d)).map (·.id) = [0] ∧
    (go (other true)).th.wait = .room [.far (.ls 1 8) 9 8] 0 1 none := by decide

theorem witness_full_empty_stops :
    let s := pair { store with scb := [⟨0x100, 0x107, 0, false⟩], pbuf := [{ id := 4, dst := .ls 1 0, mask := 1 }] }
      [thread [wordN (2 ^ 62), 0x104, 0x7FF8, wordN (3 * 2 ^ 60), wordN (2 ^ 61), 0x100, far 8]]
    let x := { s with xlate := [page (stationUnit 0)] }
    let clean := { s with cores := tset s.cores 0 { s.me with pbuf := [] } }
    let causes := fun (i : Instr) (s : State) => ((after i s).die 0).recs.map (·.cause)
    x.cached (stationUnit 0) 0 0 = some (page (stationUnit 0)) ∧ x.denies (page (stationUnit 0)) 1 = none ∧ s.place 0 (s.readReg 5) 8 1 = .miss 0 1 ∧
    s.place 0 (s.readReg 7) 8 1 = .far (.ls 1 8) ∧ causes (.ldfe 3 1 0) s = [.window] ∧ causes (.ldff 3 2 0) s = [.align] ∧
    causes (.stef 3 3 0) s = [.prot] ∧ causes (.stff 3 4) s = [.prot] ∧ causes (.feprobe 3 5) x = [.prot] ∧
    (after (.feset 5 1) s).th.wait = .walk (some (.feset 5 1)) 0 1 ∧ (after (.feprobe 3 6) s).th.wait = .retry (.feprobe 3 6) ∧
    (after (.feset 7 1) s).th.wait = .drains [4] (.req 0 (.fe 5 (.ls 1 8) 1) (far 8)) ∧ (after (.feset 7 1) s).me.pbuf.map (·.d) = [true] ∧
    (after (.feprobe 3 7) clean).me.reqs.map (·.k) = [.fe 4 (.ls 1 8) 0] := by decide

/-- What waits in the own queue is served in the step that lets it be. -/
theorem witness_full_empty_hands :
    let q : FeOp := ⟨0x108, 2, 9, 1, 0, 0, 3⟩
    let h := thread [0x108, 6]
    let f := pair { store with tags := [0x21], feq := [q] } [h]
    let e := pair { store with feq := [{ q with op := 0 }] } [h]
    let bad := pair { store with tags := [0x21], lsUe := [0x21] } [h]
    f.me.feq = q :: [] ∧ q.off = 0x108 ∧ f.me.tags.contains 0x21 = true ∧ (after (.ldfe 4 1 3) f).readReg 4 = 5 ∧
    (after (.ldfe 4 1 3) f).lsByte 0 0x108 = 9 ∧ (after (.ldfe 4 1 3) f).me.tags = [0x21] ∧ (after (.ldfe 4 1 3) f).me.feq = [] ∧
    ((after (.ldfe 4 1 3) f).core 1).replies = [⟨0, 0, .val 0⟩] ∧ ((after (.stef 2 1 3) e).core 1).replies = [⟨0, 0, .val 6⟩] ∧
    (after (.stef 2 1 3) e).me.tags = [] ∧ ((after (.ldff 4 1 3) bad).die 0).recs.map (·.cause) = [.ue] := by decide

theorem witness_ordered_remote :
    let e : Entry := { id := 4, dst := .ls 1 0, r := true, copy := 5 }
    let w : Entry := { e with mask := 1 }
    let at' := fun (l : List Entry) => pair { left with pbuf := l, fetches := [{ id := 6, dst := .ls 1 0, slot := 3, inc := 0 }] } [thread [far 8, 9, wordN (3 * 2 ^ 60)]]
    let s := at' [e]
    let i := { s with parts := [(0, { part with imports := [(0, ⟨1, 0, 64⟩)] })] }
    s.place 0 (far 8) 8 1 = .far (.ls 1 8) ∧ s.place 0 (far 8) 8 2 = .far (.ls 1 8) ∧ s.scope 2 = 2 ∧ s.scope 0 = 0 ∧
    (after (.lda 3 1 2 1 3) s).me.reqs.map (·.k) = [.lda (.ls 1 8) 8 true 2] ∧ (after (.lda 3 1 2 1 3) s).me.pbuf = [] ∧
    (after (.lda 3 1 0 1 3) s).me.pbuf = [e] ∧ (after (.strel 2 1 2 3) s).me.reqs.map (·.k) = [.strel (.ls 1 8) 8 9] ∧
    (after (.strel 2 1 2 3) s).me.pbuf.map (fun y => byteOf y.copy 8) = [9] ∧ (after (.strel 2 1 2 3) s).me.fetches.map (·.barred) = [true] ∧
    (after (.strel 2 1 2 3) (at' [w])).th.wait = .drains [4] (.req 0 (.strel (.ls 1 8) 8 9) (far 8)) ∧
    (after (.strel 2 1 0 3) s).me.pbuf = (after (.stx 2 1 0 0 3) s).me.pbuf ∧ (after (.waitge 2 1 3) s).me.reqs.map (·.k) = [.waitge (.ls 1 8) (3 * 2 ^ 60)] ∧
    ((after (.waitge 2 3 2) i).die 0).recs.map (·.cause) = [.prot] := by decide

theorem witness_fences_drain :
    let e : Entry := { id := 4, dst := .ls 1 0, mask := 1 }
    let s := pair { left with pbuf := [e] } [thread []]
    let b := { pair left [thread []] with episodes := [(5, ⟨0, 1, 1, 0⟩)] }
    s.scope 2 = 2 ∧ (after (.fence 2 1) s).th.wait = .drains [4] .rel ∧ (after (.fence 2 2) s).th.wait = .drains [4] (.sc 2) ∧
    (after (.bar 2 1) s).th.wait = .drains [4] (.bar 1 2) ∧ (after (.bar 2 1) (pair left [thread []])).th.wait = .token [1, 2] (.bar 1 2) ∧
    b.episodeOf 0 1 = some (5, ⟨0, 1, 1, 0⟩) ∧ ((after (.bar 0 1) b).die 0).recs.map (·.cause) = [.prot] := by decide

theorem witness_counters_issued :
    let x := { page (stationUnit 0) with w := false }
    let s := pair tensors [thread [wordN (2 ^ 62), 0x101, wordN (3 * 2 ^ 60), far 0x6000, wordN (2 ^ 61), far 8, 0x7FF8]]
    let d := { s with xlate := [x] }
    let cause := fun (n : Reg) (s : State) => ((after (.copyElems 2 n 0 1 0) s).die 0).recs.map (fun r => (r.cause, r.faddr))
    let asks := fun (n : Reg) (s : State) => (after (.copyElems 2 n 0 1 0) s).th.wait
    (s.mkCmd (.copyElems 2 1 0 1 0) (wordN (2 ^ 62)) 0 0).bad s.me = false ∧ d.cached (stationUnit 0) 0 0 = some x ∧ d.denies x 3 = some .prot ∧
    s.place 0 (wordN (2 ^ 61)) 8 3 = .miss 0 3 ∧ s.place 0 (far 8) 8 3 = .far (.ls 1 8) ∧ s.place 0 0x7FF8 8 3 = .high 0x7FF8 ∧
    cause 1 s = [(.window, wordN (2 ^ 62))] ∧ cause 2 s = [(.align, 0x101)] ∧ cause 3 s = [(.prot, wordN (3 * 2 ^ 60))] ∧
    cause 4 s = [(.prot, far 0x6000)] ∧ cause 5 d = [(.prot, wordN (2 ^ 61))] ∧
    asks 5 s = .walk (some (.copyElems 2 5 0 1 0)) 0 3 ∧ asks 6 s = .seq ∧ asks 7 s = .seq ∧ asks 0 s = .seq := by decide

/-- R228, R239: ranges of gathers at their bounds: a list of two rows that ends at 0x6000, one four bytes further, and the others. -/
theorem witness_list_faults :
    let g := pair { tensors with tens := [(1, line 4 8 (2 ^ 61 + 0x400)), (2, line 4 8 0x200)] } [thread [wordN (2 * 2 ^ 32 + 0x5FFC), 0, 9]]
    let at' := fun (w : Nat) => listFault (wordN w) (wordN (2 ^ 61)) 0
    let rows := 2 * 2 ^ 32
    at' (rows + 0x5FF8) = none ∧ at' (rows + 0x5FFC) = some (.prot, 0x5FFC) ∧ at' (rows + 2) = some (.align, 2) ∧ at' (rows + 4 * 2 ^ 16) = some (.align, 4) ∧
    at' (rows + 0x5FF8 * 2 ^ 16) = none ∧ at' (rows + 0x6000 * 2 ^ 16) = some (.prot, 0x6000) ∧ at' (rows + 2 ^ 15) = none ∧
    listFault (wordN rows) 0x200 0 = some (.prot, 0x200) ∧ listFault (wordN rows) 0x200 1 = some (.prot, 0x200) ∧
    listFault 2 (wordN (2 ^ 61)) 1 = none ∧ ((after (.gather 2 1 2 1 0) g).die 0).recs.map (fun r => (r.cause, r.faddr)) = [(.prot, 0x5FFC)] ∧
    (after (.gather 2 1 2 1 1) g).th.wait = .seq ∧ ((after (.scatter 2 2 2 2 1) g).die 0).recs.map (fun r => (r.cause, r.faddr)) = [(.prot, 0x200)] ∧
    (g.mkCmd (.gather 3 1 2 9 0) 0 0 0).bad g.me = true := by decide

/-- R244 to R246: the operations of a run of row 5 with 16 columns, and programs that fault. -/
theorem witness_patterns :
    let run := fun (l : List Nat) => runRow (l ++ [0xB000]) 16 5
    run [0x0001] = some [5, 6] ∧ run [0x0FC1] = some [4, 5] ∧ run [0x1001, 0x0001] = some [5, 7] ∧ run [0x2003] = some [4, 5, 6, 7] ∧
    run [0x3041, 0x0000] = some [4, 5] ∧ run [0x4000] = some [5] ∧ run [0x5045, 0x6003] = some [] ∧ run [0x5041, 0x6003] = some [3] ∧
    run [0x7106, 0x6001, 0x6002] = some [2] ∧ run [0x7105, 0x6001, 0x6002] = some [1, 2] ∧ run [0x8041, 0x6003] = some [3, 4] ∧
    run [0x9002, 0x6003, 0xA000, 0x6006] = some [5, 6] ∧ run [0x9FFD, 0x0001] = none ∧ run [0x6003, 0x6003] = none ∧ run [0xA000] = none ∧
    run [0x9000, 0x9000, 0x9000, 0x9000, 0x9000] = none ∧ run [0x6010] = some [] := by decide

theorem witness_pattern_checks :
    let p := fun (l : List Nat) => patCheck l
    p [0x0000, 0xB000, 0xC000] = some [0x0000, 0xB000] ∧ p [0xC000, 0xB000] = none ∧ p [0x0000] = none ∧ p [0xB001] = none ∧ p [0xA001, 0xB000] = none ∧
    p [0x5042, 0xB000] = none ∧ p [0x5041, 0xB000] = some [0x5041, 0xB000] ∧ p [0x7005, 0xB000] = none ∧ p [0x7105, 0xB000] = none ∧
    p [0x7105, 0x6000, 0xB000] = some [0x7105, 0x6000, 0xB000] ∧ p [0x8001, 0xB000] = none ∧ p [0x8041, 0xB000, 0xB000] = some [0x8041, 0xB000, 0xB000] ∧
    p [0x8081, 0x80C1, 0x6000, 0x6000, 0x6000, 0xB000] = none ∧
    patInv [0x4000, 0xB000] 16 16 = false ∧ patInv [0x4000, 0xB000] 12 12 = true ∧ patInv [0x4200, 0xB000] 16 16 = true ∧ patInv [0x6000] 12 12 = false := by
  decide

/-- A generator of the diagonal of four rows and four columns. -/
def diagonal : Gen := { v := true, rend := 4, rows := 4, cols := 4, ops := [0x0000, 0xB000], prog := 0x5000 }

theorem witness_draws :
    let t := { diagonal with t := true, row := 1 }
    let bad := { diagonal with ops := [0x9000, 0xB000] }
    let late := { diagonal with ops := [0x0000, 0x7102, 0x9000, 0xB000], rend := 3 }
    diagonal.draw 3 = some ([(0, 0), (1, 1), (2, 2)], { diagonal with row := 2, done := 1 }) ∧
    (diagonal.draw 9).map (fun x => (x.1.length, x.2.row)) = some (4, 4) ∧ ({ diagonal with v := false }).draw 3 = some ([], { diagonal with v := false }) ∧
    (t.draw 2).map (·.1) = some [(1, 1), (2, 2)] ∧ bad.draw 1 = none ∧ ({ bad with t := true }).draw 1 = none ∧ bad.draw 0 = some ([], bad) ∧
    (late.draw 2).isSome = true ∧ late.draw 3 = none := by decide

/-- The program of the diagonal stands at 0x5000; slot 1 is a pattern of four rows and columns, slot 2 has a broken program. -/
def patterned (g : Gen) (scb : List SbEntry) (l : List (Nat × Byte)) (h : Thread) : State :=
  let p := fun (a : Nat) => ([wordN (0x284), 0, wordN (4 + 16 * 2 ^ 32), 0, wordN (4 + 4 * 2 ^ 20), 0, 0, wordN a] : List Word)
  let s := paged (pair { left with tens := [(1, p 0x5000), (2, p 0x5800), (3, line 4 8 0)], gen0 := g, scb := scb, ls := l } [h])
  { s with xlate := [page (stationUnit 0)], hbm := s.hbm ++ [(0x5003, 0xB0), (0x5801, 0xC0)] }

set_option maxRecDepth 8000 in
theorem witness_generators :
    let h := thread [0x400, wordN (4 * 2 ^ 32), 0x440, 1, 2]
    let s := patterned {} [] [] h
    let g := patterned diagonal [] [] h
    let held := patterned diagonal [⟨0x400, 0x43F, 0, false⟩] [] h
    let took := pair left [{ h with opnd := some { h.operands with gen := some [7] } }]
    let start := after (.pgstart 2 4 1 0) s
    tfind s.me.tens 1 = s.me.slot 1 ∧ Desc.pat ((s.me.slot 1).getD []) = true ∧ Desc.aux ((s.me.slot 1).getD []) = 0x5000 ∧
    (s.startProgram 0 0 0x5000 4 4 true).2.toOption = some [0, 0xB000] ∧ Desc.pat (line 4 8 0) = false ∧
    start.me.gen0 = { diagonal with t := true } ∧ start.th.wait = .reply [] ∧ ((after (.pgstart 2 4 2 0) s).die 0).recs.map (fun r => (r.cause, r.faddr)) = [(.patfault, wordN (2 ^ 61 + 0x5800))] ∧
    ((after (.pgstart 2 4 3 0) s).die 0).recs.map (·.cause) = [.illegal] ∧ ((after (.pginv 6 5 9) s).die 0).recs.map (·.cause) = [.illegal] ∧
    (after (.pginv 6 5 1) s).th.wait = .reply [(6, 1)] ∧ (after (.pgnext 6 1 0) g).readReg 6 = 4 ∧ (after (.pgnext 6 1 0) g).lsByte 0 0x40C = 1 ∧
    (after (.pgnext 6 1 0) held).th.wait = .retry (.pgnext 6 1 0) ∧ ((after (.pgnext 6 1 0) held).me.gen0).row = 4 ∧
    (after (.pgnext 6 1 0) took).readReg 6 = 1 ∧ (after (.pgnext 6 1 0) took).lsByte 0 0x400 = 7 := by decide

set_option maxRecDepth 8000 in
theorem witness_generator_contexts :
    let h := thread [0x400, 0x404, 0x5FC8, 0x440]
    let g := patterned diagonal [⟨0x400, 0x43F, 0, false⟩] [] h
    let at' := fun (l : List (Nat × Byte)) (bad : List Nat) => let s := patterned {} [] l h
                                                             { s with cores := tset s.cores 0 { s.me with lsUe := bad } }
    let v := at' [(0x401, 0x50), (0x406, 2), (0x40C, 4), (0x418, 4), (0x41C, 4)] []
    let cause := fun (i : Instr) (s : State) => ((after i s).die 0).recs.map (·.cause)
    v.lsValue 0x400 8 / 2 ^ 49 = 1 ∧ v.lsValue 0x410 8 = 0 ∧ (after (.pgload 1 0) v).me.gen0 = diagonal ∧
    cause (.pgload 1 0) (at' [(0x406, 2)] []) = [.illegal] ∧ cause (.pgload 1 0) (at' [(0x420, 1)] []) = [.illegal] ∧
    cause (.pgload 1 0) (at' [(0x401, 0x58), (0x406, 2), (0x418, 4), (0x41C, 4)] []) = [.patfault] ∧ cause (.pgload 1 0) (at' [] [0x80]) = [.ue] ∧
    (after (.pgload 1 0) g).th.wait = .retry (.pgload 1 0) ∧ (after (.pgsave 1 0) g).th.wait = .retry (.pgsave 1 0) ∧
    ((after (.pgsave 1 0) g).th.took.map (·.length)) = some 4 ∧ (after (.pgsave 4 0) g).lsByte 0 0x441 = 0x50 ∧ (after (.pgload 4 0) v).me.gen0 = {} ∧
    cause (.pgsave 2 0) g = [.align] ∧ cause (.pgnext 6 3 0) g = [.prot] ∧
    cause (.pgnext 6 1 0) (patterned { diagonal with ops := [0x9000, 0xB000] } [] [] h) = [.patfault] := by decide

/-- Core 0's local store with a tape at 0x400: its header's first three doublewords and its entries, each a word and a value; its
patch block, at 0x800, is empty but for slot 0, which holds p. -/
def taped (header : List Nat) (es : List (Nat × Nat)) (p : Nat := 0) : State :=
  let put := fun (m : Memory) (a : Nat) (l : List Nat) => mwriteBytes m a (l.flatMap (bytesLE · 8))
  pair { left with ls := put (put (put [] 0x400 header) 0x440 (es.flatMap (fun e => [e.1, e.2]))) 0x800 [p] } [thread [0x400, 0x800]]

/-- A tape of one QJOIN of operands 0 and 0 (word 0xB4048700), and of one TLD (0xB0040020) of the descriptor at 0x140, version v. -/
def joinTape : List (Nat × Nat) := [(0x1B4048700, 0), (0x200000000, 0), (0x400200000000, 0)]
def tldTape (v : Nat) : List (Nat × Nat) := [(0x1B0040020, 0), (0x200000000, 0x140), (0x400000000, v)]
def joinItem : TapeItem := { idx := 0, word := 0xB4048700, vals := [0, 0, 0], sq0 := 0, sqr := 0, ver := 0 }

set_option maxRecDepth 16000 in
/-- R262: every check and its code; the CRCs are those of zlib. -/
theorem witness_tape_checks :
    let result := fun (s : State) => (after (.tplay 6 1 2) s).th.wait
    let head := fun (n crc np : Nat) => [0x145504154, n + crc * 2 ^ 32, np]
    let code := fun (n i : Nat) => Wait.reply [(6, wordN (n + 2 ^ 32 * i))]
    let good := taped (head 3 0x6E27B433 0) joinTape
    let held := { good with cores := tset good.cores 0 { good.me with scb := [⟨0x440, 0x447, 0, false⟩] } }
    let bad := { good with cores := tset good.cores 0 { good.me with lsUe := [0x88] } }
    good.readWaits 0 0x400 64 = none ∧ encode (.qjoin 1 2) = 0xB4048700 ∧ encode (.tld 1 2) = 0xB0040020 ∧ result good = .tplay (some 6) [joinItem] ∧
    result (taped [0x155504154, 0, 0] []) = code 5 0 ∧ result (taped [0x245504154, 0, 0] []) = code 5 0 ∧ result (taped [0x145504154, 0x10001, 0] []) = code 5 0 ∧
    result (taped [0x145504154, 0, 33] []) = code 5 0 ∧ result (taped [0x1000145504154, 0, 0] []) = code 3 0 ∧
    result (taped (head 3 0x6E27B432 0) joinTape) = code 3 0 ∧ result (taped (head 2 0xD9A4DF8D 0) (joinTape.take 2)) = code 5 1 ∧
    result (taped (head 1 0xD3C597C1 1) [(0x300000000, 5)]) = code 1 1 ∧ result (taped (head 1 0xD3C597C1 0) [(0x300000000, 5)] 5) = code 1 1 ∧
    result (taped (head 1 0xD3C597C1 1) [(0x300000000, 5)] 5) = .tplay (some 6) [] ∧
    result (taped (head 3 0x00C3DE27 1) [(0x1B4048700, 0), (0x200200000000, 8), (0x400200000000, 0)]) = code 4 2 ∧
    result (taped (head 3 0xDAC25292 0) (tldTape 9)) = code 2 3 ∧ result held = .retry (.tplay 6 1 2) ∧
    ((after (.tplay 6 1 2) bad).die 0).recs.map (fun r => (r.cause, r.faddr)) = [(.ue, 0x440)] := by decide

set_option maxRecDepth 16000 in
theorem witness_tape_versions :
    (after (.tplay 6 1 2) (taped [0x145504154, 3 + 0xC58D49B9 * 2 ^ 32, 0] (tldTape 0))).th.wait =
      .tplay (some 6) [{ idx := 0, word := 0xB0040020, vals := [0x140, 0, 0], sq0 := 0, sqr := 0, ver := 0 }] := by decide

theorem witness_tape_entries :
    let p := fun (l : List (Nat × Nat)) => parseTape (l.map (fun e => (wordN e.1, wordN e.2))) 0 .free []
    let fails := fun (l : List (Nat × Nat)) (i : Nat) => (match p l with | .error j => decide (j = i) | .ok _ => false) = true
    (match p (joinTape ++ tldTape 4) with | .ok l => l.map (fun x => (x.idx, x.ver)) | .error _ => []) = [(0, 0), (3, 4)] ∧
    fails [(0x500000000, 0)] 1 ∧ fails [(0x1300000000, 0)] 1 ∧ fails [(0x300000001, 0)] 1 ∧ fails [(0x400300000000, 0)] 1 ∧
    (match p [(0x10300000000, 0)] with | .ok l => l.length | .error _ => 9) = 0 ∧ fails (joinTape ++ [(0x200000000, 0)]) 4 ∧ fails (joinTape.take 2) 1 ∧ fails (tldTape 0 |>.take 2) 1 ∧
    fails [(0x154000100, 0)] 1 ∧ fails [(0x1B4048700, 0), (0x10200000000, 0), (0x400200000000, 0)] 2 ∧
    tapeCommand (encode (.copyElems 1 2 3 4 1)) = some ([0, 1, 3, 4], false) := by decide

/-- A full-or-empty request of slot 0 of core 0, and core 1 with the word 5 at 0x10, its tags and its queue. -/
def feHome (op v : Nat) (tags : List Nat) (q : List FeOp) : State :=
  let r := ReqKind.fe op (.ls 1 0x10) v
  let s := waits { left with reqs := [{ slot := 0, inc := 0, k := r }] } (.home 3 r 0x99)
  { s with cores := tset s.cores 1 { right with ls := [(0x10, 5)], tags := tags, feq := q } }

theorem witness_full_empty_probes :
    let p := after (.feAtHome 0 0) (feHome 4 7 [2] [])
    let n := after (.feAtHome 0 0) (feHome 4 7 [] [])
    let u := feHome 5 1 [9] []
    let c := after (.feAtHome 0 0) (feHome 5 7 [2, 9] [])
    u.locate 1 ≠ 0 ∧ (u.core 1).field ≠ none ∧ (u.core 1).placing = false ∧ (u.core 1).ls.wf = true ∧ (u.core 1).feq = [] ∧
    u.swept (.ls 1 0x10) 3 = false ∧ (u.thr 0 0).inc = 0 ∧ (p.core 0).replies = [⟨0, 0, .val 1⟩] ∧ (p.core 1).tags = [2] ∧
    (n.core 0).replies = [⟨0, 0, .val 0⟩] ∧ ((after (.feAtHome 0 0) u).core 1).tags.contains 2 = true ∧
    ((after (.feAtHome 0 0) u).core 1).tags.contains 9 = true ∧ (c.core 1).tags = [9] ∧ (c.core 0).replies = [⟨0, 0, .val 0⟩] := by decide

theorem witness_queue_served :
    let q : FeOp := ⟨0x10, 2, 0x77, 4, 1, 0, 3⟩
    let s := feHome 0 0 [2] [q]
    let u := after (.feAtHome 0 0) s
    s.locate 1 = 1 ∧ q.core ≠ 0 ∧ q.core ≠ 1 ∧ (s.core 1).feq = [q] ∧ s.swept (.ls 1 0x10) 3 = false ∧ (s.core 1).lsBad 0x10 8 = false ∧
    (s.core 1).tags.contains (0x10 / 8) = true ∧ q.op = 2 ∧ q.off = 0x10 ∧ (u.core 1).feq = [] ∧ (u.core 1).tags.contains 2 = true ∧
    u.lsByte 1 0x10 = 0x77 ∧ (u.core 0).replies = [⟨0, 0, .val 5⟩] ∧ (u.core 4).replies = [⟨1, 0, .val 0⟩] := by decide

theorem witness_home_replies :
    let e : Entry := { id := 6, dst := .ls 1 0, r := true, copy := 5 }
    let at' := fun (b : RBody) (q : ReqKind) => after (.remoteReply 0 0) (waits { left with replies := [⟨0, 0, b⟩], pbuf := [e] } (.home 3 q 0))
    let r := at' .ok (.strel (.ls 1 8) 4 9)
    let w := at' (.val 5) (.waitge (.ls 1 8) 5)
    let l := at' (.val 5) (.fe 1 (.ls 1 8) 7)
    let f := at' (.val 0) (.fe 2 (.ls 1 8) 7)
    (r.thr 0 0).st = .ready ∧ (r.core 0).pbuf = [e] ∧ (r.core 0).replies = [] ∧ (w.thr 0 0).st = .ready ∧ (w.core 0).pbuf = [] ∧
    (w.thr 0 0).reg 3 = 0 ∧ (l.thr 0 0).reg 3 = 5 ∧ (l.core 0).pbuf = [] ∧ (f.thr 0 0).reg 3 = 0 ∧ (f.thr 0 0).st = .ready := by decide

/-- The last token of a BAR 1 of scope 3 of core 0, with the episodes given. -/
def barToken (es : List (Nat × Episode)) : State :=
  let s := waits left (.token [3] (.bar 1 3))
  { s with serial := tset s.serial (s.serialiser 0 3) [(0, 0, 0)], episodes := es }

theorem witness_barrier_tokens :
    let x : Episode := ⟨0, 1, 3, 0⟩
    let at' := fun (es : List (Nat × Episode)) => after (.orderTokenGrant 0 0) (barToken es)
    (barToken [(5, x)]).episodeOf 0 1 = some (5, x) ∧ (barToken []).episodeOf 0 1 = none ∧
    (barToken [(5, { x with scope := 2 })]).episodeOf 0 1 = some (5, { x with scope := 2 }) ∧
    ((at' [(5, x)]).thr 0 0).wait = .bar 1 3 ∧ (at' [(5, x)]).episodes = [(5, x)] ∧ ((at' []).thr 0 0).wait = .bar 1 3 ∧
    (at' []).episodes.map (fun e => (e.2.k, e.2.scope)) = [(1, 3)] ∧ ((at' [(5, { x with scope := 2 })]).thr 0 0).st = .parked ∧
    (((at' [(5, { x with scope := 2 })]).die 0).recs.map (·.cause)) = [.prot] := by decide

/-- A copy of two elements with its counter at the address, at the head of its queue, core 1 as given. -/
def counting (a : Word) (o : Core := right) (add : Bool := false) : State :=
  let s := pair { tensors with ls := [(0x100, 7)], copyQ := [{ copying 2 with ra := a, addOnly := add }] } []
  { s with cores := tset s.cores 1 o, parts := [(0, { part with imports := [(5, ⟨3, 0, 64⟩)] })] }

theorem witness_counter_homes :
    let q := fun (a : Word) => { copying 2 with ra := a }
    let adds := fun (a : Word) (o : Core) => (counting a o).counterAdd 0 (q a)
    (adds 0 right).2 = none ∧ (adds (wordN (2 ^ 62)) right).2.map (·.1) = some .window ∧ (adds 0x6000 right).2 = none ∧
    ((adds 0x6000 right).1.core 0).spoil ≠ 0 ∧ (adds (far 8) { right with ls := [(8, 4)] }).2 = none ∧
    (adds (far 8) { right with ls := [(8, 4)] }).1.lsByte 1 8 = 5 ∧ (adds (far 8) { right with lsUe := [1] }).2 = some (.ue, far 8) ∧
    (match ((counting 0).placeNow 0 (stationUnit 0) (wordN (3 * 2 ^ 60 + 5 * 2 ^ 48 + 56)) 8 3).2 with | .far (.imp _ _ _ _) => true | _ => false) = true ∧
    (adds (wordN (3 * 2 ^ 60 + 5 * 2 ^ 48 + 56)) right).2 = some (.prot, wordN (3 * 2 ^ 60 + 5 * 2 ^ 48 + 56)) := by decide

set_option maxRecDepth 4000 in
theorem witness_counted_commands :
    let run := fun (s : State) => after (.engineCommandComplete 0 0) s
    let own := run (counting 0x408)
    let held := run (counting (far 8) { right with placing := true })
    let bad := run (counting (far 8) { right with lsUe := [1] })
    let again := run (counting (far 8) { right with ls := [(8, 4)] } true)
    let x := { copying 2 with ra := 0x408 }
    (counting 0x408).addHeld 0 x = false ∧ (counting (far 8) { right with placing := true }).addHeld 0 { x with ra := far 8 } = true ∧
    own.lsByte 0 0x408 = 1 ∧ (own.core 0).copyQ = [] ∧ (held.core 0).copyQ.map (·.addOnly) = [true] ∧ held.lsByte 0 0x200 = 7 ∧
    (bad.core 0).copyQ.map (·.fault) = [some (.ue, far 8, true)] ∧ (bad.core 0).copyQ.map (·.addOnly) = [true] ∧
    again.lsByte 1 8 = 5 ∧ again.lsByte 0 0x200 = 0 ∧ (again.core 0).copyQ = [] := by decide

/-- A QJOIN of both queues with a counter, a copy, and a core in which the counter's word is bad. -/
def fence : Cmd := { word := encode (.qjoin 1 2), rb := 3, ra := 0x400 }
def behind : Cmd := { copying 1 with id := 9 }
def badCount : Core := { left with lsUe := [0x80] }

theorem witness_joins_gather :
    let joined := fun (k : Core) => after (.qjoinFenceComplete 0) (pair k [])
    let one := joined { left with gatQ := [{ fence with rb := 2 }] }
    let two := joined { left with copyQ := [fence, behind], gatQ := [fence] }
    let three := joined { left with copyQ := [behind], gatQ := [fence] }
    let four := joined { left with copyQ := [fence], gatQ := [behind] }
    behind.op ≠ .join ∧ behind.id ≠ fence.id ∧ wbits fence.rb 1 0 = 3 ∧ (pair { left with gatQ := [fence] } []).addHeld 0 fence = false ∧
    (one.core 0).gatQ = [] ∧ one.lsByte 0 0x400 = 1 ∧ (two.core 0).gatQ = [] ∧ (two.core 0).copyQ.map (·.id) = [9] ∧ two.lsByte 0 0x400 = 1 ∧
    (three.core 0).gatQ.length = 1 ∧ three.lsByte 0 0x400 = 0 ∧ (four.core 0).copyQ.length = 1 := by decide

theorem witness_joins_fault :
    let joined := fun (k : Core) => after (.qjoinFenceComplete 0) (pair k [])
    let one := joined { badCount with gatQ := [{ fence with rb := 2 }] }
    let both := joined { badCount with copyQ := [fence], gatQ := [fence] }
    let free := joined { badCount with joins := [{ fence with rb := 0 }, { fence with rb := 0, id := 4 }] }
    let flt := fun (l : List Cmd) => l.map (·.fault)
    flt (one.core 0).gatQ = [some (.ue, 0x400, true)] ∧ flt (both.core 0).copyQ = [some (.ue, 0x400, true)] ∧
    flt (both.core 0).gatQ = [some (.ue, 0x400, true)] ∧ both.inflight.map (·.2) = [.ev (.engineFault 0 0)] ∧
    flt (free.core 0).joins = [some (.ue, 0x400, true), none] ∧ free.inflight.map (·.2) = [.ev (.engineFault 0 3)] := by decide

/-- A k-step of one column in core 0, operands of the format at 0x400 and 0x800 with the strides, their scales at 0x8000 of the
partition, the generator source and generator 0 as given; scales of 1 for four lines. -/
def tiling (fmt strides q : Nat) (g : Gen) (mem : List (Nat × Byte)) (bad : List Nat := []) : State :=
  let d := fun (b : Nat) => [wordN (0x80 + fmt), wordN b, wordN strides, 0, wordN (16 + 16 * 2 ^ 20), 0, 0, 0x8000]
  let m : MTile := ⟨0, 0, d 0x400, d 0x800, 0, 0, 1, q, true⟩
  let s := paged (pair { cells with mtile := some m, ls := mem, gen0 := g } [{ thread [] with st := .waiting, wait := .mtile }])
  { s with hbm := s.hbm ++ [(0x8001, 0x3C), (0x8003, 0x3C), (0x8005, 0x3C), (0x8007, 0x3C)], hbmUe := bad,
           xlate := [page (microUnit 0 0), page (microUnit 0 1)] }
/-- Bytes of a column of A and a row of B. -/
def ints : List (Nat × Byte) := [(0x400, 3), (0x401, 2), (0x800, 5), (0x810, 7)]

set_option maxRecDepth 8000 in
theorem witness_tile_formats :
    let run := fun (s : State) => (after (.kStep 0) s)
    let f := tiling 10 (4 + 64 * 2 ^ 32) 0 {} [(0x402, 0x80), (0x403, 0x3F), (0x482, 0x80), (0x483, 0x3F), (0x803, 0x40)]
    let g := tiling (13 + 2 ^ 5) (1 + 16 * 2 ^ 32) 0 {} ints
    let bad := tiling (13 + 2 ^ 5) (1 + 16 * 2 ^ 32) 0 {} ints [0x1000]
    let fp := fun (b : Nat) => [0x8A, wordN b, wordN (4 + 64 * 2 ^ 32), 0, wordN (16 + 16 * 2 ^ 20), 0, 0, 0x8000]
    let ds := [wordN 0xAD, wordN 0x400, wordN (1 + 16 * 2 ^ 32), 0, wordN (16 + 16 * 2 ^ 20), 0, 0, 0x8000]
    (f.readElems 0 0 (microUnit 0 0) (fp 0x400) [(0, 0), (0, 1)]).2.toOption = some [0x3F800000, 0] ∧
    (g.linesParams 0 0 (microUnit 0 0) ds 0 0 [0, 1, 2, 3]).1 = g ∧
    (g.linesParams 0 0 (microUnit 0 0) ds 0 0 [0, 1, 2, 3]).2.toOption = some (List.replicate 4 (0x3C00, 0)) ∧
    ((run f).core 0).ac.get (lane16 0 0) = 0x40000000 ∧ ((run f).core 0).ac.get (lane16 2 0) = 0 ∧ ((run f).thr 0 0).st = .ready ∧
    ((run g).core 0).fa.get (lane16 0 0) = 0x41700000 ∧ ((run g).core 0).ac.get (lane16 0 0) = 0 ∧ ((run g).core 0).gcount = 0 ∧
    ((run bad).thr 0 0).st = .parked ∧ ((run bad).core 0).ac.get (lane16 0 0) = 0 := by decide

set_option maxRecDepth 8000 in
theorem witness_tile_generators :
    let run := fun (s : State) => (after (.kStep 0) s)
    let at' := fun (f : Nat) (g : Gen) (bad : List Nat) => tiling f (1 + 16 * 2 ^ 32) 1 g ints bad
    let s := at' 0 { diagonal with row := 1 } []
    let out := at' 0 { diagonal with v := false } []
    let shut := at' (13 + 2 ^ 5) { diagonal with v := false } []
    let bad := at' (13 + 2 ^ 5) { diagonal with v := false } [0x1000]
    let odd := at' 0 { diagonal with ops := [0x9000, 0xB000] } []
    ((s.core 0).gen 0).draw 1 = some ([(1, 1)], { diagonal with row := 1, done := 1 }) ∧ ((out.core 0).gen 0).draw 1 = some ([], { diagonal with v := false }) ∧
    ((odd.core 0).gen 0).draw 1 = none ∧ ((run s).core 0).ac.get (lane16 0 0) = 14 ∧ ((run s).core 0).gen0.done = 1 ∧
    ((run out).core 0).ac.get (lane16 0 0) = 0 ∧ ((run out).thr 0 0).st = .ready ∧ ((run shut).thr 0 0).st = .ready ∧
    ((run shut).core 0).fa.get (lane16 0 0) = 0 ∧ ((run bad).thr 0 0).st = .parked ∧ ((run odd).thr 0 0).st = .parked ∧
    ((run odd).die 0).recs.map (·.cause) = [.patfault] := by decide

theorem witness_remote_tiles :
    let at' := fun (l : List Entry) => pair { cells with tens := [(3, [0x84, far 0x100, wordN (4 + 32 * 2 ^ 32), 0, wordN (8 + 4 * 2 ^ 20), 0, 0, 0])], pbuf := l, nextId := 100, ac := Vector.ofFn (fun i => BitVec.ofNat 32 (i.val + 1)) } [thread [3, 0x12]]
    let full := (List.range 64).map (fun i => ({ id := i, dst := .ls 1 (32 * (i + 1)), mask := 1, d := true } : Entry))
    let s := after (.mst 1 2 3) (at' [])
    let w := after (.mst 1 2 3) (at' full)
    tileElems 3 0x12 = [(0, 3, 0), (4, 4, 0)] ∧ s.th.wait = .reply [] ∧ s.me.pbuf.map (fun e => (e.dst, e.mask)) = [(.ls 1 0x160, 0xF)] ∧
    s.me.drop = 1 ∧ s.me.replies = [⟨0, 0, .ok⟩] ∧ w.me.pbuf.length = 64 ∧ (match w.th.wait with | .room _ _ _ _ => true | _ => false) = true := by decide

/-! ### A checkpoint that is saved -/

/-- Partition 0 maps its first GiB, with checkpoint areas of CKSTRIDE bytes at 0x100000; below 0x8000 its memory holds the tables alone. -/
def ckPart : Part := { part with ptroot := 0x1000, ckbase := 0x100000, ckstride := 0x40000 }
def Mapped (s : State) : Prop :=
  s.parts = [(0, ckPart)] ∧ s.keys = [(0, .loaded 0)] ∧ s.watches = [] ∧ s.hbmUe = [] ∧
    (∀ a < 0x8000, mget s.hbm a = mget [(0x1000, 1), (0x1001, 0x20), (0x2000, 0xF)] a) ∧ ∀ k < 0x400, tfind s.hbmKey k = none

theorem mget_mwriteBytes_low : ∀ (l : List Byte) (m : Memory) (a c : Nat), c < a → mget (mwriteBytes m a l) c = mget m c
  | [], _, _, _, _ => rfl
  | b :: l, m, a, c, h => by
    rw [mwriteBytes, mget_mwriteBytes_low l _ _ _ (by omega), mget_mset_ne _ _ (by omega)]

theorem Mapped.rekey {s : State} (h : Mapped s) (key : BitVec 512) {sec : Nat} (ha : 0x400 ≤ sec) : Mapped (s.rekey key sec) := by
  obtain ⟨h1, h2, h3, h4, h5, h6⟩ := h
  have hk : ∀ k < 0x400, ∀ e, tfind (tset s.hbmKey sec e) k = none := fun k hk e => by rw [tfind_tset_ne _ _ (by omega), h6 k hk]
  unfold State.rekey
  simp only []
  split
  · exact ⟨h1, h2, h3, h4, h5, h6⟩
  · split
    · exact ⟨h1, h2, h3, h4, h5, fun k hk' => hk k hk' _⟩
    · refine ⟨h1, h2, h3, h4, fun a hl => ?_, fun k hk' => hk k hk' _⟩
      have hs : a < sec * 32 := by omega
      rw [← h5 a hl]
      generalize s.sectorBytes key sec = l
      exact mget_mwriteBytes_low l s.hbm (sec * 32) a hs

theorem Mapped.hbmPut (key : BitVec 512) (n : Nat) : ∀ {s : State} (pa v mask : Nat), Mapped s → 0x8000 ≤ pa →
    Mapped (s.hbmPut key pa v mask n) := by
  induction n with
  | zero => exact fun _ _ _ h _ => h
  | succ n ih =>
    intro s pa v mask h hp
    rw [State.hbmPut]
    refine ih _ _ _ ?_ (by omega)
    split
    · obtain ⟨h1, h2, h3, h4, h5, h6⟩ := h.rekey key (show 0x400 ≤ pa / 32 by omega)
      exact ⟨h1, h2, h3, h4, fun a hl => (mget_mset_ne _ _ (by omega)).trans (h5 a hl), h6⟩
    · exact h

theorem Mapped.place {s : State} (h : Mapped s) {va : Nat} (hv : va < 2 ^ 30) : s.schedPlace 0 va 2 = .ok (.hbm va 0) := by
  obtain ⟨h1, h2, h3, h4, h5, h6⟩ := h
  have hp : s.part 0 = ckPart := by simp [State.part, h1, tget]
  have hg : ∀ a < 0x8000, ∀ key, s.hbmGet key a = mget [(0x1000, 1), (0x1001, 0x20), (0x2000, 0xF)] a := fun a ha key => by
    have : a / 2 ^ 40 = 0 := by omega
    rw [State.hbmGet, h6 _ (by omega), this, hp, ← h5 a ha]; rfl
  have hr : ∀ key, s.hbmRead key 0x1000 8 = 0x2001 ∧ s.hbmRead key 0x2000 8 = 0xF := fun key => by
    simp only [State.hbmRead]
    constructor <;> simp +decide only [hg]
  have hk : s.keyFault 0 0 = none := by simp [State.keyFault, hp, h2]; decide
  have hb : ∀ a, s.hbmBad a 8 = false := fun a => by rw [State.hbmBad, h4]; rfl
  have e0 : wbits ckPart.ptroot 5 0 = 0 := by decide
  have e1 : wbits ckPart.ptroot 39 12 * 2 ^ 12 = 0x1000 := by decide
  have e2 : ckPart.ppaOk 0x1000 = true := by decide
  have v0 : va / 2 ^ 39 = 0 := Nat.div_eq_of_lt (Nat.lt_trans hv (by decide))
  have v1 : va / 2 ^ 30 = 0 := Nat.div_eq_of_lt hv
  have t0 : 0 * 2 ^ 40 + pteAddr 0x1000 0 va = 0x1000 := by simp only [pteAddr, levelShift, v0]; decide
  have t1 : 0 * 2 ^ 40 + pteAddr 0x2000 1 va = 0x2000 := by simp only [pteAddr, levelShift, v1]; decide
  have f0 : bits 0x2001 39 8 * 256 = 0x2000 := by decide
  have hw : s.walk 0 va = .leaf { page 0 with unit' := 0 } := by
    simp only [State.walk, hp, e0, e1, e2, hk, Bool.not_true, Bool.false_eq_true, if_false]
    rw [State.walkFrom]
    simp only [hp, t0, hb, (hr _).1, f0]
    rw [if_neg (by decide), if_neg (by decide), if_neg (by decide), if_neg (by decide), State.walkFrom]
    simp only [hp, t1, hb, (hr _).2, e0]
    rw [if_neg (by decide), if_neg (by decide), if_pos (by decide), leafEnd, if_neg (by decide)]
    simp only [levelShift, page]
    rw [v1]
    rfl
  have hd : s.walkDenies { page 0 with unit' := 0 } 2 = none := by
    rw [State.walkDenies, show s.keyFault (page 0).part (page 0).key = none from hk]
    simp [State.denies, Xlate.denies, page, State.collapsing, hp, ckPart, part]
  rw [State.schedPlace, if_neg (by omega), hw]
  have ha : s.physical { page 0 with unit' := 0 } 0 va = va := by
    show 0 * 2 ^ 40 + (0 + va % 2 ^ 30) = va
    rw [Nat.mod_eq_of_lt hv, Nat.zero_mul, Nat.zero_add, Nat.zero_add]
  simp only [WalkEnd.found, hd, ha]
  rfl

theorem Mapped.hbmWrite {s : State} (h : Mapped s) (key : BitVec 512) {pa : Nat} (v mask n : Nat) (hp : 0x8000 ≤ pa) :
    Mapped (s.hbmWrite key pa v mask n) := by
  have hu := h.2.2.2.1
  obtain ⟨h1, h2, h3, h4, h5, h6⟩ := Mapped.hbmPut key n pa v mask h hp
  exact ⟨h1, h2, h3, by rw [State.hbmWrite, hu]; rfl, h5, h6⟩

theorem Mapped.ckWrite : ∀ {s : State}, Mapped s → ∀ (n va v : Nat), 0x8000 ≤ va → va + 32 * n ≤ 2 ^ 30 →
    (s.ckWrite 0 va v n).2 = true ∧ Mapped (s.ckWrite 0 va v n).1
  | _, h, 0, _, _, _, _ => ⟨rfl, h⟩
  | s, h, n + 1, va, v, hl, hu => by
    rw [State.ckWrite, h.place (show va < 2 ^ 30 by omega)]
    have hm := h.hbmWrite (s.keyPair 0) v (2 ^ 32 - 1) 32 hl
    revert hm
    simp only
    generalize s.hbmWrite (s.keyPair 0) va v (2 ^ 32 - 1) 32 = u
    intro hm
    rw [show u.notify (.hbm va 0) 32 = u by rw [State.notify, hm.2.2.1]; rfl]
    exact hm.ckWrite n (va + 32) (v / 2 ^ 256) (by omega) (by omega)

theorem Mapped.ckCore {s : State} (h : Mapped s) {p va : Nat} (hp : p = 0) (k : Core) (hl : 0x8000 ≤ va)
    (hu : va + 0x10000 ≤ 2 ^ 30) : (s.ckCore p va k).2 = true ∧ Mapped (s.ckCore p va k).1 := by
  subst hp
  obtain ⟨i, hi⟩ : ∃ i, i = 768 := ⟨_, rfl⟩
  obtain ⟨j, hj⟩ : ∃ j, j = 12 := ⟨_, rfl⟩
  obtain ⟨l, hl'⟩ : ∃ l, l = 1264 := ⟨_, rfl⟩
  rw [State.ckCore, ← hi, ← hj, ← hl']
  have a := h.ckWrite i va (mread k.ls 0 0x6000) hl (by omega)
  revert a
  generalize s.ckWrite 0 va (mread k.ls 0 0x6000) i = x
  rintro ⟨a, b⟩
  obtain ⟨s1, _ | _⟩ := x
  · exact absurd a (by simp)
  have c := b.ckWrite j (va + 0x6000) k.tagImage (by omega) (by omega)
  revert c
  simp only
  generalize s1.ckWrite 0 (va + 0x6000) k.tagImage j = y
  rintro ⟨c, d⟩
  obtain ⟨s2, _ | _⟩ := y
  · exact absurd c (by simp)
  exact Mapped.ckWrite (s := { s2 with free := s2.free + 1 }) d l (va + 0x6200) _ (by omega) (by omega)

theorem Mapped.ckCores {s : State} (h : Mapped s) (f : Field) (hf : f.part = 0) {base : Nat} (hl : 0x8000 ≤ base)
    (hu : base + 0x10000 ≤ 2 ^ 30) : (s.ckCores f base [0]).2 = true ∧ Mapped (s.ckCores f base [0]).1 := by
  have a := h.ckCore (va := base + 0 * 0x10000) hf (s.core (s.lcnPos f 0)) (by omega) (by omega)
  simp only [State.ckCores]
  split
  next u hu => rw [hu] at a; exact absurd a.1 Bool.false_ne_true
  next u hu => rw [hu] at a; exact ⟨rfl, a.2⟩

/-- A core that waits in CKPT in a mapped partition: one core, nothing under way. -/
def saving : State :=
  { alone { thread [] with st := .waiting, wait := .ckpt 6 } with parts := [(0, ckPart)], hbm := [(0x1000, 1), (0x1001, 0x20), (0x2000, 0xF)] }

theorem saving_mapped {s : State} (h : { s with cores := saving.cores } = saving) : Mapped s := by
  have e : s.parts = saving.parts ∧ s.keys = saving.keys ∧ s.watches = saving.watches ∧ s.hbmUe = saving.hbmUe ∧ s.hbm = saving.hbm ∧
      s.hbmKey = saving.hbmKey := by rw [← h]; exact ⟨rfl, rfl, rfl, rfl, rfl, rfl⟩
  exact ⟨e.1, e.2.1, e.2.2.1, e.2.2.2.1, fun a _ => by rw [e.2.2.2.2.1]; rfl, fun k _ => by rw [e.2.2.2.2.2]; rfl⟩

theorem witness_saved (s1 : State) (h : { s1 with cores := saving.cores } = saving) (x : Nat) :
    let f := { field with fw := 1, ckb := 0x100000, cks := 0x40000 }
    let u := s1.ckCores f (0x1C0000 + 0x1000) [0]
    u.2 = true ∧ (u.1.ckWrite 0 0x1C0000 x 128).2 = true := by
  have a := (saving_mapped h).ckCores { field with fw := 1, ckb := 0x100000, cks := 0x40000 } rfl (base := 0x1C0000 + 0x1000) (by decide) (by decide)
  exact ⟨a.1, (a.2.ckWrite 128 0x1C0000 x (by decide) (by decide)).1⟩

set_option maxRecDepth 8000 in
theorem witness_checkpoint_saves :
    let f := { field with fw := 1 }
    let lost := { saving with parts := [(0, { ckPart with ptroot := 0 })] }
    let late := { saving with cores := tset saving.cores 0 { saving.core 0 with pbuf := [dirty] } }
    let u := after (.ckptCollective 0) lost
    let w := after (.ckptCollective 0) late
    tfind saving.fields 0 = some f ∧ (saving.fieldCores f) = [0] ∧ f.stage = .running ∧ (saving.core 0).ckptArrived = true ∧
    (saving.thr 0 0).wait = .ckpt 6 ∧ (saving.core 0).ckReady = true ∧ (saving.core 0).writeSet (fun _ => true) = [] ∧
    (late.core 0).writeSet (fun _ => true) ≠ [] ∧ ckPart.ckbase + f.ctx * ckPart.ckstride = 0x1C0000 ∧
    0x1000 + 2 * 1 * 0x10000 + 0x10000 ≤ ckPart.ckstride ∧ (u.thr 0 0).st = .ready ∧ (u.thr 0 0).reg 6 = 0 ∧
    u.fields.map (fun e => e.2.valid) = [none] ∧ (u.core 0).phase = 1 ∧ (w.core 0).pbuf.map (·.d) = [true] ∧
    (w.thr 0 0).st = .waiting ∧ w.inflight.map (·.1) = [0, 1] := by decide

set_option maxRecDepth 8000 in
theorem witness_images :
    let s := saving
    let u := s.ckWrite 0 0x10000 0x0907 1
    let n := s.ckWrite 0 (2 ^ 40) 5 1
    (s.schedPlace 0 0x10000 2).toOption = some (.hbm 0x10000 0) ∧ (s.schedPlace 0 (2 ^ 40) 2).toOption = none ∧
    u.2 = true ∧ u.1.hbmByte 0x10000 = 7 ∧ u.1.hbmByte 0x10001 = 9 ∧ n.2 = false ∧ [2, 5].Nodup ∧ (∀ i ∈ [2, 5], i < 3072) ∧
    Nat.testBit 0x24 2 = true ∧ Nat.testBit 0x24 5 = true ∧ ({ left with tags := [5, 2] } : Core).tagImage = 0x24 := by decide

/-! ### Records, pages and host commands -/

/-- A trap record of slot 0 of core 0 of each kind, ready to be settled, its action as given. -/
def settled (c : Cause) (a : Nat) (f : Field) (l : List TrapRec) : State :=
  { pair left [{ thread [] with st := .parked, recs := 1 }] with
    fields := [(0, { f with actions := acted c a })], dieTab := [(0, { recs := record c :: l })] }

set_option maxRecDepth 8000 in
theorem witness_record_turns :
    let older := { record .illegal with seq := 9 }
    let t := after (.trapService 0 9) (settled .illegal 1 field [older])
    let k := after (.trapService 0 6) (settled .illegal 0 field [])
    let r := after (.trapService 0 6) (settled .illegal 4 { field with ckb := 0x1000, cks := 0x100000 } [])
    let n := after (.trapService 0 6) (settled .illegal 4 field [])
    let w := after (.trapService 0 6) (settled .illegal (3 + 2 ^ 8) field [])
    ({ field with actions := acted .illegal 0 }).action .illegal = (0, 0) ∧ ({ field with actions := acted .illegal 4 }).action .illegal = (4, 0) ∧
    ({ field with ckb := 0x1000, cks := 0x100000 }).ckArea ≠ none ∧ (t.die 0).recs.map (·.seq) = [9] ∧ (t.thr 0 0).st = .ready ∧
    t.inflight.length = 1 ∧ k.fields.map (fun e => e.2.stage) = [.killing] ∧ r.fields.map (fun e => e.2.stage) = [.rolling] ∧
    n.fields.map (fun e => e.2.stage) = [.killing] ∧ w.lsByte 1 0x5FC0 = 6 ∧ (w.thr 0 0).st = .parked ∧ (w.core 1).ls.wf = true := by decide

/-- A page fault at an address of window 2, its action replay, the partition's tables and POOL as given; stacks in groups 0 and 1. -/
def faulted (c : Cause) (va : Nat) (mem : List (Nat × Byte)) (pool : Nat) (modes : Nat := 0) : State :=
  let s := settled c 1 field []
  { s with parts := [(0, { part with ptroot := 0x1000, pool := wordN pool, stackSet := 0x11 })], hbm := mem,
           dieTab := [(0, { recs := [{ record c with faddr := wordN (2 ^ 61 + va), modes := modes }] })] }
/-- The first 64 KiB are demand-zero by an entry at 0x4000; the second GiB is mapped, and its list at 0x5000 names frame 0x50000. -/
def zeroPage : List (Nat × Byte) :=
  [(0x1000, 1), (0x1001, 0x20), (0x2000, 1), (0x2001, 0x30), (0x2008, 0xF), (0x3000, 1), (0x3001, 0x40), (0x4000, 0x4E), (0x5002, 5)]

set_option maxRecDepth 8000 in
theorem witness_demand_zero :
    let s := faulted .page 0x100 zeroPage (0x40005000 * 2 ^ 16 + 1)
    let r := { record .page with faddr := wordN (2 ^ 61 + 0x100) }
    let f := { field with actions := acted .page 1 }
    Replays s 0 r f [] ∧ s.hbm.wf = true ∧ s.leaderUp = true ∧ s.recordWaits 0 f r = false ∧ inMode r.modes 2 = false ∧ wbits r.faddr 63 60 = 2 ∧
    (s.part 0).serving = [] ∧ s.walk 0 0x100 = .stop .page none ∧ s.entryOf 0 0x100 = some (3, 0x4000, 0x4E) ∧ s.keyFault 0 0 = none ∧
    wbits (s.part 0).pool 63 16 = 0x40005000 ∧ wbits (s.part 0).pool 15 0 = 1 ∧
    (s.schedRead 0 0x40005000 8).toOption = some 0x50000 ∧ (s.part 0).ppaOk 0x50000 = true ∧ bits 0x50000 39 16 * 2 ^ 16 = 0x50000 := by
  simp only [Replays]; decide

set_option maxRecDepth 8000 in
theorem witness_pages :
    let run := fun (s : State) => after (.trapService 0 6) s
    let one := fun (e : Byte) => [(0x1000, 1), (0x1001, 0x20), (0x2000, e)]
    let hosted := fun (s : State) => ((run s).part 0).tpend.map (·.held) = [true] ∧ ((run s).thr 0 0).st = .parked
    let fold := faulted .collapse 0x123 (one 0x2F) 0
    let x := { page 0 with unit' := 0, rep := true }
    let busy := { fold with parts := [(0, { fold.part 0 with changes := [{ changing with then' := 3 }] })] }
    let u := run fold
    hosted (faulted .page 0x100 zeroPage 0) ∧ hosted (faulted .prot 0x100 zeroPage 0) ∧ hosted (faulted .page 0x100 zeroPage 0 4) ∧
    hosted (faulted .page 0x123 (one 0x1F) 0) ∧ ((run (faulted .page 0x123 (one 0xF) 0)).thr 0 0).st = .ready ∧
    hosted (faulted .collapse 0x123 [] 0) ∧ ((run (faulted .collapse 0x123 (one 0xF) 0)).thr 0 0).st = .ready ∧
    fold.walk 0 0x123 = .leaf x ∧ fold.collapsing x = false ∧ busy.collapsing x = true ∧ fold.entryOf 0 0x123 = some (1, 0x2000, 0x2F) ∧
    (u.part 0).serving.map (·.seq) = [6] ∧ (u.part 0).changes.map (fun q => (q.base, q.len, q.then')) = [(0, 2 ^ 30, 3)] ∧
    u.hbmByte 0x2000 = 0xF ∧ (u.thr 0 0).st = .parked ∧ ((run busy).part 0).serving.map (·.seq) = [6] := by decide

set_option maxRecDepth 8000 in
theorem witness_pages_wait :
    let run := fun (s : State) => after (.trapService 0 6) s
    let s := faulted .page 0x100 zeroPage 0
    let behind := { s with parts := [(0, { s.part 0 with serving := [record .page] })] }
    let down := { s with fwStopped := [s.leaseHolder] }
    (behind.part 0).serving.any (fun x => x.field = 0) = true ∧ down.leaderUp = false ∧ ((run behind).die 0).recs.length = 1 ∧
    (run behind).inflight.map (·.1) = [1] ∧ ((run down).die 0).recs.length = 1 ∧ (run down).inflight.map (·.1) = [1] := by decide

theorem witness_swept :
    let e : Core := { right with sweeps := [(3, 100)] }
    let swept := fun (s : State) => { s with cores := tset s.cores 1 e }
    let gone := fun (i : Instr) (q : ReqKind) => let s := swept (waits { left with reqs := [{ slot := 0, inc := 0, k := q }] } (.home 3 q 0x99))
                                                ((after i s).core 0).reqs = [] ∧ (after i s).inflight = [] ∧ ((after i s).thr 0 0).st = .waiting
    let p := swept (pair { left with portOut := [(1, [7])] } [])
    let v := swept (pair { left with evOut := [⟨0, 1, 3, 2⟩] } [])
    let x : Fetch := { id := 0, dst := .ls 1 0, slot := 0, inc := 0 }
    let f := swept (pair { left with fetches := [x] } [])
    (∃ w ∈ (p.core (p.locate 1)).sweeps, w.1 = (p.core 0).ctx ∧ p.cyc < w.2) ∧ p.neighbour 0 1 = some 1 ∧ v.lcnPos field 1 = 1 ∧
    (f.core 0).fetch 0 = some x ∧ gone (.ldaAtHome 0 0) (.lda (.ls 1 0) 4 false 0) ∧ gone (.strelAtHome 0 0) (.strel (.ls 1 0) 4 7) ∧
    gone (.feAtHome 0 0) (.fe 0 (.ls 1 0) 0) ∧ gone (.stealRequest 0 0) (.steal 1) ∧ ((after (.portEntryArrival 0 1) p).core 1).portIn = [] ∧
    tget [] ((after (.portEntryArrival 0 1) p).core 0).portOut 1 = [] ∧ ((after (.eventArrival 0 0) v).core 0).evOut = [] ∧
    (after (.sectorFetch 0 0) f).inflight = [] := by decide

/-- A partition with the tables given, in groups 0 and 1. -/
def tabled (mem : List (Nat × Byte)) (bad : List Nat := []) (root : Nat := 0x1000) : State :=
  { pair left [] with parts := [(0, { part with ptroot := wordN root, stackSet := 0x11 })], hbm := mem, hbmUe := bad }

set_option maxRecDepth 8000 in
theorem witness_page_walks :
    let two := fun (a b : Byte) => tabled [(0x1000, a), (0x1001, 0x20), (0x2000, b)]
    let at' := fun (s : State) (i : Nat) => s.hbmRead (s.keyPair 0) ([0x1000, 0x2000, 0x3000, 0x4000].getD i 0) 8
    let z := tabled zeroPage
    let deep := tabled (zeroPage.map (fun e => if e.1 = 0x4000 then (e.1, 0xD) else e))
    let e := { two 1 0xF with keys := [] }
    let l := { page 0 with unit' := 0 }
    (two 1 0xF).keyFault 0 0 = none ∧ e.keyFault 0 0 = some .prot ∧ e.walk 0 0 = .stop .prot none ∧
    ({ e with keys := [(0, .revoked)] }).keyFault 0 0 = some .keyrev ∧ (tabled [] [] (2 ^ 38 - 2 ^ 12)).walk 0 0 = .stop .prot (some 0) ∧
    at' z 0 = 0x2001 ∧ at' z 1 = 0x3001 ∧ at' z 2 = 0x4001 ∧ at' z 3 = 0x4E ∧ z.walk 0 0x100 = .stop .page none ∧
    deep.walk 0 0x100 = .stop .prot (some 3) ∧ (tabled zeroPage [0x800]).walk 0 0x100 = .bad 0x4000 0 ∧
    (two 0 0).walk 0 5 = .stop .page none ∧ (two 5 0xF).walk 0 5 = .stop .prot (some 0) ∧ (two 3 0xF).walk 0 5 = .stop .prot (some 0) ∧
    (two 1 0x1F).walk 0 5 = .stop .prot (some 1) ∧ (two 1 0xF).walk 0 (2 ^ 30 - 1) = .leaf l := by decide

theorem witness_page_permissions :
    let s := tabled []
    let l := { page 0 with unit' := 0 }
    let v := { s with keys := [(0, .revoked)] }
    s.walkDenies l 3 = none ∧ s.walkDenies { l with w := false } 2 = some .prot ∧ s.walkDenies { l with key := 9 } 1 = some .prot ∧
    v.walkDenies l 1 = some .keyrev ∧ v.walkDenies { l with r := false } 1 = some .prot ∧ s.walkDenies { l with rep := true } 2 = some .collapse ∧
    (s.part 0).groupStacks 1 = 1 ∧ (s.part 0).groupStacks 2 = 0 ∧ s.physical l 1 5 = 5 ∧ s.physical { l with rep := true } 1 5 = 2 ^ 38 + 5 ∧
    s.physical { l with rep := true } 2 5 = 2 ^ 38 + 5 ∧ s.physical { l with rep := true } 0 5 = 5 := by decide

theorem witness_changes_begun :
    let q0 := { changing with todo := [] }
    let s := { pair left [] with parts := [(0, { part with changes := [changing] })], xlate := [page (stationUnit 0), page (stationUnit 500)] }
    let room := { waits left (.room [.far (.hbm 0x3000 0) 9 8] 0 1 none) with parts := [(0, { part with changes := [changing] })], xlate := [page (stationUnit 0)] }
    let u := s.beginChange 0 q0
    let j := s.joinChanges 7
    (room.core 0).writeSet (room.inChange 0 changing) = [] ∧ room.inChange 0 changing (.hbm 0x3000 0) = true ∧
    (after (.invalidation 0 0) room).inflight.map (·.1) = [1] ∧ ((after (.invalidation 0 0) room).part 0).changes = [changing] ∧
    u.xlate = [page (stationUnit 0)] ∧ ((u.part 0).changes.map (·.todo)) = [[0, 1], [0, 1]] ∧ ((j.part 0).changes.map (·.todo)) = [[0, 1, 7]] ∧
    (s.core 7).part = 0 ∧ j.inflight.length = 1 := by decide

theorem witness_command_targets :
    let at' := fun (a0 a1 : Word) (m : Nat) =>
      let s := commanded [(0x0B08, a0), (0x0B10, a1)] { pair left [] with dieTab := [(0, { gated := 0 })] }
      { s with parts := s.parts.map (fun e => (e.1, { e.2 with modes := m, w := 2, h := 1 })), fields := [(0, { field with roles := [(2, {})] })] }
    let code := fun (i : Instr) (s : State) => tget 0 ((after i s).part 0).regs 0x0B18 &&& 0xFF
    let ctx : Word := wordN (3 * 2 ^ 48)
    let none' : Word := wordN (4 * 2 ^ 48)
    let any : Word := wordN (2 ^ 63)
    (at' none' 5 0).liveField 0 4 = none ∧ field.fw * field.fh ≤ 2 ∧ (at' ctx any 1).assisted 0 0 = true ∧ (at' ctx any 0).assisted 0 0 = false ∧
    (at' ctx any 0).firstFit 0 1 1 = none ∧ code (.migrateCore 0) (at' none' 5 0) = 1 ∧ code (.recastCmd 0) (at' none' 2 0) = 1 ∧
    code (.migrateCore 0) (at' (ctx + 2) 5 0) = 1 ∧ code (.recastCmd 0) (at' (ctx + 2) 2 0) = 1 ∧ code (.migrateCore 0) (at' ctx any 1) = 3 ∧
    code (.migrateCore 0) (at' ctx any 0) = 2 := by decide

theorem witness_kill_refused :
    let s := { pair left [] with parg := wordN (4 * 2 ^ 16) }
    s.liveField 0 4 = none ∧ (after .killCtx s).pstat &&& 0xFF = 3 ∧ (after .killCtx s).fields.map (fun e => e.2.stage) = [.running] := by decide

/-! ## Witnesses: every state -/

theorem witness_canonical : State.reset.Canonical ∧ (paged (pair store [thread []])).Canonical := by
  have h : ∀ p ∈ (paged (pair store [thread []])).parts, p.2.queues = [] := by decide
  exact ⟨⟨by decide, by decide, by decide, by decide, by decide⟩, ⟨by decide, by decide, by decide, by decide,
    fun p hp q hq => by rw [h p hp] at hq; cases hq⟩⟩

theorem witness_svn : (after .svnset { hostMem := [(0x1000, 5)], fwarg := 0x1000, active := some (List.replicate 1000 9) }).svnMin ≠ 0 := by decide

end Sys2Proof.Tests
end

section
/-! Rounding into a format and to an integer (02 R56, R57, R62): the encodings of a format, read as numbers, count its
values on a grid whose spacing doubles from binade to binade; ROUND takes the grid value at or below the exact magnitude
and goes up by one encoding or not. -/

namespace Sys2Proof.Machine

open Claims

/-! ## The grid of a format's values -/

/-- The exponent of the least subnormal value (R48). -/
def Fmt.bottom (f : Fmt) : Int := 1 - f.bias - f.f

/-- How many times the spacing of the values has doubled at an encoding. -/
def Fmt.binade (f : Fmt) (z : Nat) : Nat := z / 2 ^ f.f - 1

/-- The significand of an encoding, with its hidden bit. -/
def Fmt.sig (f : Fmt) (z : Nat) : Nat := z - f.binade z * 2 ^ f.f

/-- The value of an encoding in units of the least subnormal, the exponent range unbounded above. -/
def Fmt.grid (f : Fmt) (z : Nat) : Nat := f.sig z * 2 ^ f.binade z

/-- The value of an encoding in half units of 2^q. -/
def Fmt.mag (f : Fmt) (q : Int) (z : Nat) : Nat := 2 * f.grid z * 2 ^ (f.bottom - q).toNat

theorem binade_code (f : Fmt) {s m : Nat} (hm : m < 2 * 2 ^ f.f) (hs : s = 0 ∨ 2 ^ f.f ≤ m) :
    f.binade (s * 2 ^ f.f + m) = s := by
  have hp : 0 < 2 ^ f.f := Nat.two_pow_pos _
  have hdiv : (s * 2 ^ f.f + m) / 2 ^ f.f = s + m / 2 ^ f.f := by
    rw [Nat.add_comm, Nat.add_mul_div_right _ _ hp, Nat.add_comm]
  have hlt : m / 2 ^ f.f < 2 := (Nat.div_lt_iff_lt_mul hp).2 hm
  have hge : 2 ^ f.f ≤ m → 1 ≤ m / 2 ^ f.f := (Nat.one_le_div_iff hp).2
  rw [Fmt.binade, hdiv]
  omega

theorem grid_code (f : Fmt) {s m : Nat} (hm : m < 2 * 2 ^ f.f) (hs : s = 0 ∨ 2 ^ f.f ≤ m) :
    f.grid (s * 2 ^ f.f + m) = m * 2 ^ s := by
  rw [Fmt.grid, Fmt.sig, binade_code f hm hs, Nat.add_sub_cancel_left]

/-- Every encoding is a binade and a significand. -/
theorem exists_code (f : Fmt) (z : Nat) :
    ∃ s m, z = s * 2 ^ f.f + m ∧ m < 2 * 2 ^ f.f ∧ (s = 0 ∨ 2 ^ f.f ≤ m) := by
  have hp : 0 < 2 ^ f.f := Nat.two_pow_pos _
  have hz : 2 ^ f.f * (z / 2 ^ f.f) + z % 2 ^ f.f = z := Nat.div_add_mod ..
  have hr : z % 2 ^ f.f < 2 ^ f.f := Nat.mod_lt _ hp
  cases hk : z / 2 ^ f.f with
  | zero => exact ⟨0, z, by simp, by rw [hk] at hz; omega, .inl rfl⟩
  | succ k =>
    refine ⟨k, 2 ^ f.f + z % 2 ^ f.f, ?_, by omega, .inr (by omega)⟩
    rw [hk, Nat.mul_succ, Nat.mul_comm] at hz
    omega

/-- Adjacent encodings differ by the spacing of their binade, across binades too. -/
theorem grid_succ (f : Fmt) (z : Nat) : f.grid (z + 1) = f.grid z + 2 ^ f.binade z := by
  obtain ⟨s, m, rfl, hm, hs⟩ := exists_code f z
  rw [binade_code f hm hs, grid_code f hm hs, Nat.add_assoc]
  by_cases hlast : m + 1 < 2 * 2 ^ f.f
  · rw [grid_code f hlast (by omega), Nat.succ_mul]
  · have hnext : s * 2 ^ f.f + (m + 1) = (s + 1) * 2 ^ f.f + 2 ^ f.f := by rw [Nat.succ_mul]; omega
    have hp : 0 < 2 ^ f.f := Nat.two_pow_pos _
    rw [hnext, grid_code f (by omega) (.inr (Nat.le_refl _)), ← Nat.succ_mul, show m.succ = 2 ^ f.f * 2 by omega,
      Nat.pow_succ', Nat.mul_assoc]

theorem mag_succ (f : Fmt) (q : Int) (z : Nat) :
    f.mag q (z + 1) = f.mag q z + 2 * 2 ^ f.binade z * 2 ^ (f.bottom - q).toNat := by
  rw [Fmt.mag, Fmt.mag, grid_succ, Nat.mul_add, Nat.add_mul]

theorem mag_lt_mag_succ (f : Fmt) (q : Int) (z : Nat) : f.mag q z < f.mag q (z + 1) := by
  rw [mag_succ]
  exact Nat.lt_add_of_pos_right (Nat.mul_pos (Nat.mul_pos Nat.two_pos (Nat.two_pow_pos _)) (Nat.two_pow_pos _))

/-- A greater encoding has a greater value. -/
theorem mag_lt_mag (f : Fmt) (q : Int) {a b : Nat} (h : a < b) : f.mag q a < f.mag q b := by
  induction h with
  | refl => exact mag_lt_mag_succ f q a
  | step _ ih => exact Nat.lt_trans ih (mag_lt_mag_succ f q _)

theorem mag_le_mag (f : Fmt) (q : Int) {a b : Nat} (h : a ≤ b) : f.mag q a ≤ f.mag q b := by
  obtain hlt | rfl := Nat.lt_or_eq_of_le h
  · exact Nat.le_of_lt (mag_lt_mag f q hlt)
  · exact Nat.le_refl _

theorem le_of_mag_le (f : Fmt) {q : Int} {a b : Nat} (h : f.mag q a ≤ f.mag q b) : a ≤ b :=
  Nat.le_of_not_lt fun hlt => Nat.not_lt_of_le h (mag_lt_mag f q hlt)

theorem lt_of_mag_lt (f : Fmt) {q : Int} {a b : Nat} (h : f.mag q a < f.mag q b) : a < b :=
  Nat.lt_of_not_le fun hle => Nat.not_lt_of_le (mag_le_mag f q hle) h

@[simp] theorem mag_zero (f : Fmt) (q : Int) : f.mag q 0 = 0 := by
  simp [Fmt.mag, Fmt.grid, Fmt.sig]

theorem mag_even (f : Fmt) (q : Int) (z : Nat) : f.mag q z % 2 = 0 := by
  rw [Fmt.mag, Nat.mul_assoc, Nat.mul_mod_right]

/-! ## The formats of the machine -/

theorem fmtOf_cases {c : Nat} {f : Fmt} (h : fmtOf c = some f) :
    f = e4m3 ∨ f = e5m2 ∨ f = fp16 ∨ f = bf16 ∨ f = fp32 := by
  unfold fmtOf at h
  split at h <;> simp_all

theorem frac_pos {c : Nat} {f : Fmt} (h : fmtOf c = some f) : 0 < f.f := by
  rcases fmtOf_cases h with rfl | rfl | rfl | rfl | rfl <;> decide

/-- The largest finite value is normal, and shares its binade with the value before it. -/
theorem maxFin_spec {c : Nat} {f : Fmt} (h : fmtOf c = some f) :
    0 < f.maxFin ∧ f.binade (f.maxFin - 1) = f.binade f.maxFin ∧ 2 ^ f.f ≤ f.maxFin := by
  rcases fmtOf_cases h with rfl | rfl | rfl | rfl | rfl <;> decide

/-- The value of a positive encoding that is not special (R48). -/
theorem val_of_finite (f : Fmt) {z : Nat} (hz : z < f.signBit)
    (hs : ¬(if f.e4m3 then z / 2 ^ f.f = f.maxExp ∧ z % 2 ^ f.f = 7 else z / 2 ^ f.f = f.maxExp)) :
    f.val z = .fin false (f.sig z) (f.binade z + f.bottom) := by
  have hexp : z / 2 ^ f.f % 2 ^ f.e = z / 2 ^ f.f := by
    refine Nat.mod_eq_of_lt ((Nat.div_lt_iff_lt_mul (Nat.two_pow_pos _)).2 ?_)
    rwa [← Nat.pow_add]
  have hdm : z / 2 ^ f.f * 2 ^ f.f + z % 2 ^ f.f = z := Nat.div_add_mod' ..
  unfold Fmt.val Fmt.sig Fmt.binade Fmt.bottom
  simp only [hexp, Nat.div_eq_of_lt hz]
  rw [if_neg (by cases h4 : f.e4m3 <;> simp_all), if_neg (by cases h4 : f.e4m3 <;> simp_all)]
  by_cases hk : z / 2 ^ f.f = 0
  · rw [hk, Nat.zero_mul, Nat.zero_add] at hdm
    rw [if_pos hk, hk, hdm]
    simp
  · have hsig : 2 ^ f.f + z % 2 ^ f.f = z - (z / 2 ^ f.f - 1) * 2 ^ f.f := by
      obtain ⟨k, hk⟩ := Nat.exists_eq_succ_of_ne_zero hk
      rw [hk, Nat.succ_mul] at hdm
      rw [hk, Nat.succ_sub_one]
      omega
    rw [if_neg hk, hsig]
    congr 1
    omega

theorem val_of_le_maxFin {c : Nat} {f : Fmt} (h : fmtOf c = some f) {z : Nat} (hz : z ≤ f.maxFin) :
    f.val z = .fin false (f.sig z) (f.binade z + f.bottom) := by
  refine val_of_finite f ?_ ?_
  all_goals
    rcases fmtOf_cases h with rfl | rfl | rfl | rfl | rfl <;>
      simp [Fmt.maxFin, Fmt.maxExp, Fmt.signBit, e4m3, e5m2, fp16, bf16, fp32] at hz ⊢ <;> omega

/-! ## Where ROUND cuts -/

@[simp] theorem b2n_false : b2n false = 0 := rfl
@[simp] theorem b2n_true : b2n true = 1 := rfl

/-- The exponent of the last place kept of a magnitude mant × 2^exp. -/
def Fmt.place (f : Fmt) (mant : Nat) (exp : Int) : Int :=
  (if (Nat.log2 mant : Nat) + exp < 1 - f.bias then 1 - (f.bias : Int) else (Nat.log2 mant : Nat) + exp) - f.f

/-- How many bits of mant lie below that place. -/
def Fmt.cut (f : Fmt) (mant : Nat) (exp : Int) : Nat := (f.place mant exp - exp).toNat

/-- The magnitude rounded toward zero, in units of the last place. -/
def Fmt.kept (f : Fmt) (mant : Nat) (exp : Int) : Nat :=
  if exp < f.place mant exp then mant / 2 ^ f.cut mant exp else mant * 2 ^ (exp - f.place mant exp).toNat

/-- The bits of mant below the last place. -/
def Fmt.rest (f : Fmt) (mant : Nat) (exp : Int) : Nat :=
  if exp < f.place mant exp then mant % 2 ^ f.cut mant exp else 0

/-- The encoding of the magnitude rounded toward zero. -/
def Fmt.floorCode (f : Fmt) (mant : Nat) (exp : Int) : Nat :=
  (f.place mant exp - f.bottom).toNat * 2 ^ f.f + f.kept mant exp

/-- What ROUND gives of a magnitude past the largest finite value (R51, R56). -/
def Fmt.overflow (f : Fmt) (mode : Nat) (neg : Bool) : Nat × Flags5 :=
  let toInf : Bool := match mode with | 1 => false | 2 => !neg | 3 => neg | _ => true
  (b2n neg * f.signBit + (if toInf || f.e4m3 then f.inf false else f.maxFin), fOF ||| fNX)

/-- Whether ROUND goes up from the encoding below. -/
def Fmt.up (f : Fmt) (mode u : Nat) (neg : Bool) (mant : Nat) (exp : Int) (st : Bool) : Bool :=
  roundsUp mode u neg (f.kept mant exp) (f.rest mant exp) (f.cut mant exp) st

/-- ROUND takes the encoding below the magnitude or the one after it. -/
theorem round_eq (f : Fmt) (mode u : Nat) (neg : Bool) (mant : Nat) (exp : Int) (st : Bool) (h : mant ≠ 0 ∨ st = true) :
    f.round mode u neg mant exp st =
      (let code := f.floorCode mant exp + b2n (f.up mode u neg mant exp st)
       let inex : Bool := f.rest mant exp ≠ 0 || st
       if code ≤ f.maxFin then
         (b2n neg * f.signBit + code, (if inex then fNX else 0) |||
           if inex && decide ((Nat.log2 mant : Nat) + exp < 1 - f.bias) then fUF else 0)
       else f.overflow mode neg) := by
  have hcode : ∀ b : Bool, (if b then f.kept mant exp + 1 else f.kept mant exp) = f.kept mant exp + b2n b := by
    intro b; cases b <;> rfl
  have hzero : (mant = 0 && !st) = false := by rcases h with h | h <;> simp [h]
  simp only [Fmt.floorCode, Nat.add_assoc, ← hcode]
  unfold Fmt.round
  rw [hzero]
  rfl

theorem two_pow_toNat_mul {a b c : Int} (hcb : c ≤ b) (hba : b ≤ a) :
    2 ^ (a - b).toNat * 2 ^ (b - c).toNat = 2 ^ (a - c).toNat := by
  rw [← Nat.pow_add, show (a - b).toNat + (b - c).toNat = (a - c).toNat by omega]

theorem bottom_le_place (f : Fmt) (mant : Nat) (exp : Int) : f.bottom ≤ f.place mant exp := by
  unfold Fmt.place Fmt.bottom
  split <;> omega

/-- The magnitude is what is kept and the rest, in units of 2^q. -/
theorem kept_add_rest (f : Fmt) (mant : Nat) {exp q : Int} (hq : q ≤ exp) (hp : q ≤ f.place mant exp) :
    mant * 2 ^ (exp - q).toNat =
      f.kept mant exp * 2 ^ (f.place mant exp - q).toNat + f.rest mant exp * 2 ^ (exp - q).toNat := by
  unfold Fmt.kept Fmt.rest Fmt.cut
  split
  next hlt =>
    rw [← two_pow_toNat_mul hq (Int.le_of_lt hlt), ← Nat.mul_assoc, ← Nat.add_mul, Nat.div_add_mod']
  next hge =>
    rw [Nat.mul_assoc, two_pow_toNat_mul hp (by omega), Nat.zero_mul, Nat.add_zero]

theorem rest_lt (f : Fmt) (mant : Nat) (exp : Int) : f.rest mant exp < 2 ^ f.cut mant exp := by
  unfold Fmt.rest
  split
  · exact Nat.mod_lt _ (Nat.two_pow_pos _)
  · exact Nat.two_pow_pos _

theorem kept_lt (f : Fmt) {mant k : Nat} {exp : Int} (h : (Nat.log2 mant : Nat) + 1 + exp ≤ k + f.place mant exp) :
    f.kept mant exp < 2 ^ k := by
  have hmant : mant < 2 ^ (Nat.log2 mant + 1) := Nat.lt_log2_self
  unfold Fmt.kept Fmt.cut
  split
  · rw [Nat.div_lt_iff_lt_mul (Nat.two_pow_pos _), ← Nat.pow_add]
    exact Nat.lt_of_lt_of_le hmant (Nat.pow_le_pow_right Nat.two_pos (by omega))
  · refine Nat.lt_of_lt_of_le (Nat.mul_lt_mul_of_pos_right hmant (Nat.two_pow_pos _)) ?_
    rw [← Nat.pow_add]
    exact Nat.pow_le_pow_right Nat.two_pos (by omega)

theorem le_kept (f : Fmt) {mant k : Nat} {exp : Int} (h0 : mant ≠ 0) (h : k + f.place mant exp ≤ (Nat.log2 mant : Nat) + exp) :
    2 ^ k ≤ f.kept mant exp := by
  have hmant : 2 ^ Nat.log2 mant ≤ mant := Nat.log2_self_le h0
  unfold Fmt.kept Fmt.cut
  split
  · rw [Nat.le_div_iff_mul_le (Nat.two_pow_pos _), ← Nat.pow_add]
    exact Nat.le_trans (Nat.pow_le_pow_right Nat.two_pos (by omega)) hmant
  · refine Nat.le_trans ?_ (Nat.mul_le_mul_right _ hmant)
    rw [← Nat.pow_add]
    exact Nat.pow_le_pow_right Nat.two_pos (by omega)

theorem place_of_subnormal (f : Fmt) {mant : Nat} {exp : Int} (h : (Nat.log2 mant : Nat) + exp < 1 - f.bias) :
    f.place mant exp = f.bottom := by
  rw [Fmt.place, if_pos h, Fmt.bottom]

theorem place_of_normal (f : Fmt) {mant : Nat} {exp : Int} (h : ¬(Nat.log2 mant : Nat) + exp < 1 - f.bias) :
    f.place mant exp = (Nat.log2 mant : Nat) + exp - f.f := by
  rw [Fmt.place, if_neg h]

/-- What is kept of a magnitude below the least normal value is less than a normal significand. -/
theorem kept_of_subnormal (f : Fmt) {mant : Nat} {exp : Int} (h : (Nat.log2 mant : Nat) + exp < 1 - f.bias) :
    f.kept mant exp < 2 ^ f.f := by
  refine kept_lt f ?_
  rw [place_of_subnormal f h, Fmt.bottom]
  omega

/-- What is kept of any other magnitude is a normal significand. -/
theorem kept_of_normal (f : Fmt) {mant : Nat} {exp : Int} (h0 : mant ≠ 0) (h : ¬(Nat.log2 mant : Nat) + exp < 1 - f.bias) :
    2 ^ f.f ≤ f.kept mant exp ∧ f.kept mant exp < 2 * 2 ^ f.f := by
  rw [← Nat.pow_succ']
  constructor
  · refine le_kept f h0 ?_
    rw [place_of_normal f h]
    omega
  · refine kept_lt f ?_
    rw [place_of_normal f h]
    omega

/-- `place` is where a magnitude is cut: mant has a leading bit, or its unit lies below the least normal value. -/
def Fmt.Known (f : Fmt) (mant : Nat) (exp : Int) : Prop := mant ≠ 0 ∨ exp < 1 - f.bias

theorem Fmt.Known.ne_zero {f : Fmt} {mant : Nat} {exp : Int} (h : f.Known mant exp)
    (hn : ¬(Nat.log2 mant : Nat) + exp < 1 - f.bias) : mant ≠ 0 := by
  rintro rfl
  have hlog : Nat.log2 0 = 0 := by decide
  have hexp : exp < 1 - f.bias := h.resolve_left (by simp)
  rw [hlog] at hn
  omega

/-- What is kept stands in the binade of the last place. -/
theorem kept_fits (f : Fmt) {mant : Nat} {exp : Int} (h : f.Known mant exp) :
    f.kept mant exp < 2 * 2 ^ f.f ∧ ((f.place mant exp - f.bottom).toNat = 0 ∨ 2 ^ f.f ≤ f.kept mant exp) := by
  by_cases hn : (Nat.log2 mant : Nat) + exp < 1 - f.bias
  · have hlt := kept_of_subnormal f hn
    exact ⟨by omega, .inl (by rw [place_of_subnormal f hn]; omega)⟩
  · obtain ⟨hle, hlt⟩ := kept_of_normal f (h.ne_zero hn) hn
    exact ⟨hlt, .inr hle⟩

theorem floorCode_lt_iff (f : Fmt) {mant : Nat} {exp : Int} (h : f.Known mant exp) :
    f.floorCode mant exp < 2 ^ f.f ↔ (Nat.log2 mant : Nat) + exp < 1 - f.bias := by
  unfold Fmt.floorCode
  by_cases hn : (Nat.log2 mant : Nat) + exp < 1 - f.bias
  · have hlt := kept_of_subnormal f hn
    simp [place_of_subnormal f hn, hn, hlt]
  · have hle := (kept_of_normal f (h.ne_zero hn) hn).1
    exact iff_of_false (by omega) hn

section
variable (f : Fmt) {mant : Nat} {exp q : Int} (h : f.Known mant exp) (hqe : q ≤ exp) (hqb : q ≤ f.bottom)
include h hqb

theorem mag_floorCode : f.mag q (f.floorCode mant exp) = 2 * f.kept mant exp * 2 ^ (f.place mant exp - q).toNat := by
  obtain ⟨hm, hs⟩ := kept_fits f h
  rw [Fmt.mag, Fmt.floorCode, grid_code f hm hs, ← two_pow_toNat_mul hqb (bottom_le_place f mant exp),
    ← Nat.mul_assoc, ← Nat.mul_assoc]

theorem mag_floorCode_succ :
    f.mag q (f.floorCode mant exp + 1) = f.mag q (f.floorCode mant exp) + 2 * 2 ^ (f.place mant exp - q).toNat := by
  obtain ⟨hm, hs⟩ := kept_fits f h
  rw [mag_succ, Fmt.floorCode, binade_code f hm hs, Nat.mul_assoc, two_pow_toNat_mul hqb (bottom_le_place f mant exp)]

include hqe

/-- The magnitude lies above the encoding below it by the rest. -/
theorem mag_floorCode_add_rest : 2 * mant * 2 ^ (exp - q).toNat =
    f.mag q (f.floorCode mant exp) + f.rest mant exp * (2 * 2 ^ (exp - q).toNat) := by
  rw [mag_floorCode f h hqb, Nat.mul_assoc, kept_add_rest f mant hqe (Int.le_trans hqb (bottom_le_place f mant exp)),
    Nat.mul_add, Nat.mul_assoc, Nat.mul_left_comm 2 (f.rest mant exp)]

/-- Where bits are cut off, the next encoding lies above by a unit of the last place. -/
theorem mag_floorCode_succ_of_cut (hcut : exp < f.place mant exp) : f.mag q (f.floorCode mant exp + 1) =
    f.mag q (f.floorCode mant exp) + 2 ^ f.cut mant exp * (2 * 2 ^ (exp - q).toNat) := by
  rw [mag_floorCode_succ f h hqb, Fmt.cut, ← two_pow_toNat_mul hqe (Int.le_of_lt hcut), Nat.mul_left_comm]

theorem lt_mag_floorCode_succ : 2 * mant * 2 ^ (exp - q).toNat < f.mag q (f.floorCode mant exp + 1) := by
  rw [mag_floorCode_add_rest f h hqe hqb]
  by_cases hcut : exp < f.place mant exp
  · rw [mag_floorCode_succ_of_cut f h hqe hqb hcut]
    exact Nat.add_lt_add_left (Nat.mul_lt_mul_of_pos_right (rest_lt f mant exp)
      (Nat.mul_pos Nat.two_pos (Nat.two_pow_pos _))) _
  · rw [Fmt.rest, if_neg hcut, Nat.zero_mul, Nat.add_zero]
    exact mag_lt_mag_succ f q _

/-- The encoding below a magnitude is the one whose value is at or below it, and the next above. -/
theorem floorCode_lt_iff_lt_mag (z : Nat) : f.floorCode mant exp < z ↔ 2 * mant * 2 ^ (exp - q).toNat < f.mag q z := by
  constructor
  · exact fun hz => Nat.lt_of_lt_of_le (lt_mag_floorCode_succ f h hqe hqb) (mag_le_mag f q hz)
  · intro hz
    refine lt_of_mag_lt f (Nat.lt_of_le_of_lt ?_ hz)
    rw [mag_floorCode_add_rest f h hqe hqb]
    exact Nat.le_add_right _ _

end

/-! ## The choice between neighbours -/

/-- Nothing below the last place: no mode goes up. -/
theorem roundsUp_exact (mode u : Nat) (neg : Bool) (m d : Nat) : roundsUp mode u neg m 0 d false = false := by
  have hpos : 0 ≠ 2 ^ d := Nat.ne_of_lt (Nat.two_pow_pos d)
  unfold roundsUp
  split <;> simp [hpos]

/-- Of a value that is not exact, by rem of 2^d parts of the gap and less than one part more when st, `roundsUp` goes up
exactly where the mode picks the upper neighbour (R56, R57). -/
theorem roundsUp_iff (mode u : Nat) (neg : Bool) {m rem d c : Nat} {st : Bool} {odd : Prop} {x x0 lo hi : Int} (hc : 0 < c)
    (hrem : rem < 2 ^ d) (hx0 : x0 = lo + (rem * c : Nat)) (hhi : hi = lo + (2 ^ d * c : Nat)) (hx : x = x0 + b2n st)
    (hlt : lo < x) (hst : st = true → d ≠ 0 ∧ c % 2 = 0) (hodd : odd ↔ m % 2 = 1) :
    roundsUp mode u neg m rem d st = true ↔ PicksUpper mode u neg odd x x0 lo hi := by
  have hlt' : 2 ^ d < 2 * rem ↔ 2 ^ d * c < 2 * (rem * c) := by
    rw [← Nat.mul_assoc, Nat.mul_lt_mul_right hc]
  have heq : 2 * rem = 2 ^ d ↔ 2 * (rem * c) = 2 ^ d * c := by
    rw [← Nat.mul_assoc, Nat.mul_left_inj (Nat.ne_of_gt hc)]
  have hd : 2 ^ d ≤ 2 * rem → d ≠ 0 := by rintro h rfl; omega
  have hparity : st = false ∧ b2n st = 0 ∨ st = true ∧ b2n st = 1 ∧ 2 ^ d * c % 4 = 0 ∧ rem * c % 2 = 0 := by
    cases st with
    | false => exact .inl ⟨rfl, rfl⟩
    | true =>
      obtain ⟨hd0, hc2⟩ := hst rfl
      obtain ⟨k, rfl⟩ := Nat.exists_eq_succ_of_ne_zero hd0
      obtain ⟨j, rfl⟩ := Nat.dvd_of_mod_eq_zero hc2
      refine .inr ⟨rfl, rfl, ?_⟩
      rw [Nat.pow_succ, Nat.mul_assoc, ← Nat.mul_assoc 2 2 j, Nat.mul_left_comm _ 4 j, Nat.mul_left_comm rem]
      exact ⟨Nat.mul_mod_right .., Nat.mul_mod_right ..⟩
  have hinex : rem ≠ 0 ∨ st = true := by
    cases st with
    | true => exact .inr rfl
    | false =>
      refine .inl ?_
      rintro rfl
      rw [hx, hx0, Nat.zero_mul, b2n_false] at hlt
      omega
  have hsr : (x0 - lo) * 65536 / (hi - lo) = (rem * 65536 / 2 ^ d : Nat) := by
    rw [← Nat.mul_div_mul_right _ _ hc, Nat.mul_right_comm]
    rw [show x0 - lo = (rem * c : Nat) by omega, show hi - lo = (2 ^ d * c : Nat) by omega]
    rfl
  unfold roundsUp PicksUpper
  rw [hsr]
  subst hx hx0 hhi
  generalize 2 ^ d * c = gap at *
  generalize rem * c = part at *
  generalize rem * 65536 / 2 ^ d = place
  generalize 2 ^ d = parts at *
  split
  case h_1 => rcases hparity with ⟨rfl, hb⟩ | ⟨rfl, hb, hgap, hpart⟩ <;> simp [hb, hodd] <;> omega
  case h_2 => simp
  case h_3 => cases neg <;> simp [hinex]
  case h_4 => cases neg <;> simp [hinex]
  case h_5 => rcases hparity with ⟨rfl, hb⟩ | ⟨rfl, hb, hgap, hpart⟩ <;> simp [hb] <;> omega
  case h_6 => simp

/-! ## Rounding into a format -/

/-- A magnitude in half units of 2^q, one more where it is more than mant × 2^exp. -/
def halfUnits (q : Int) (mant : Nat) (exp : Int) (st : Bool) : Nat := 2 * mant * 2 ^ (exp - q).toNat + b2n st

section
variable (f : Fmt) {mant : Nat} {exp q : Int} {st : Bool} (h : f.Known mant exp) (hqe : q ≤ exp) (hqb : q ≤ f.bottom)
include h hqe hqb

theorem floorCode_lt_iff_halfUnits (z : Nat) : f.floorCode mant exp < z ↔ halfUnits q mant exp st < f.mag q z := by
  rw [floorCode_lt_iff_lt_mag f h hqe hqb, halfUnits]
  have hz := mag_even f q z
  have hx : 2 * mant * 2 ^ (exp - q).toNat % 2 = 0 := by rw [Nat.mul_assoc, Nat.mul_mod_right]
  have hb : b2n st ≤ 1 := by cases st <;> decide
  omega

theorem halfUnits_eq : halfUnits q mant exp st =
    f.mag q (f.floorCode mant exp) + f.rest mant exp * (2 * 2 ^ (exp - q).toNat) + b2n st := by
  rw [halfUnits, mag_floorCode_add_rest f h hqe hqb]

theorem floorCode_eq {lo : Nat} (hle : f.mag q lo ≤ halfUnits q mant exp st) (hlt : halfUnits q mant exp st < f.mag q (lo + 1)) :
    f.floorCode mant exp = lo := by
  have hup := (floorCode_lt_iff_halfUnits f h hqe hqb (st := st) (lo + 1)).2 hlt
  have hdown := mt (floorCode_lt_iff_halfUnits f h hqe hqb (st := st) lo).1 (by omega)
  omega

/-- A magnitude past the place after the largest finite value overflows in every mode (R51, R56, R57). -/
theorem round_of_past (mode u : Nat) (neg : Bool) (hx : mant ≠ 0 ∨ st = true)
    (hpast : f.mag q (f.maxFin + 1) ≤ halfUnits q mant exp st) : f.round mode u neg mant exp st = f.overflow mode neg := by
  have hcode := mt (floorCode_lt_iff_halfUnits f h hqe hqb (st := st) (f.maxFin + 1)).1 (by omega)
  rw [round_eq f mode u neg mant exp st hx]
  exact if_neg (by omega)

/-- A value of the format is taken as it is. -/
theorem round_of_value (mode u : Nat) (neg : Bool) (hx : mant ≠ 0 ∨ st = true) {lo : Nat} (hfin : lo ≤ f.maxFin)
    (heq : halfUnits q mant exp st = f.mag q lo) :
    f.round mode u neg mant exp st = (b2n neg * f.signBit + lo, 0) := by
  have hcode : f.floorCode mant exp = lo :=
    floorCode_eq f h hqe hqb (Nat.le_of_eq heq.symm) (heq ▸ mag_lt_mag_succ f q lo)
  have hparts := halfUnits_eq f h hqe hqb (st := st)
  rw [hcode, heq, Nat.add_assoc, Nat.left_eq_add, Nat.add_eq_zero_iff] at hparts
  obtain ⟨hrest, hst⟩ := hparts
  have hst : st = false := by
    cases st with
    | false => rfl
    | true => exact absurd hst Nat.one_ne_zero
  have hrest : f.rest mant exp = 0 :=
    (Nat.mul_eq_zero.1 hrest).resolve_right (Nat.ne_of_gt (Nat.mul_pos Nat.two_pos (Nat.two_pow_pos _)))
  subst hst
  have hup : f.up mode u neg mant exp false = false := by rw [Fmt.up, hrest, roundsUp_exact]
  rw [round_eq f mode u neg mant exp false hx, hcode, hup, hrest]
  have hexact : (decide ((0 : Nat) ≠ 0) || false) = false := rfl
  simp only [hexact, Bool.false_and, Bool.false_eq_true, if_false, b2n_false, Nat.add_zero, if_pos hfin]
  rfl

/-- A magnitude above the encoding below it has bits past the last place, or more. -/
theorem rest_ne_zero_of_lt {lo : Nat} (hcode : f.floorCode mant exp = lo) (hlo : f.mag q lo < halfUnits q mant exp st) :
    f.rest mant exp ≠ 0 ∨ st = true := by
  have hparts := halfUnits_eq f h hqe hqb (st := st)
  cases st with
  | true => exact .inr rfl
  | false =>
    refine .inl fun hrest => ?_
    rw [hrest, hcode, Nat.zero_mul, b2n_false] at hparts
    omega

/-- A magnitude between two values of the format becomes one of them. -/
theorem round_of_between (mode u : Nat) (neg : Bool) (hx : mant ≠ 0 ∨ st = true) {lo : Nat}
    (hlo : f.mag q lo < halfUnits q mant exp st) (hhi : halfUnits q mant exp st < f.mag q (lo + 1)) :
    f.round mode u neg mant exp st =
      if lo + b2n (f.up mode u neg mant exp st) ≤ f.maxFin then
        (b2n neg * f.signBit + (lo + b2n (f.up mode u neg mant exp st)),
          fNX ||| if halfUnits q mant exp st < f.mag q (2 ^ f.f) then fUF else 0)
      else f.overflow mode neg := by
  have hcode : f.floorCode mant exp = lo := floorCode_eq f h hqe hqb (Nat.le_of_lt hlo) hhi
  have hinex : (decide (f.rest mant exp ≠ 0) || st) = true := by
    rw [Bool.or_eq_true, decide_eq_true_eq]
    exact rest_ne_zero_of_lt f h hqe hqb hcode hlo
  have hsub : (Nat.log2 mant : Nat) + exp < 1 - f.bias ↔ halfUnits q mant exp st < f.mag q (2 ^ f.f) := by
    rw [← floorCode_lt_iff f h, floorCode_lt_iff_halfUnits f h hqe hqb]
  simp only [round_eq f mode u neg mant exp st hx, hcode, hinex, hsub, Bool.true_and, decide_eq_true_eq, if_true]

/-- Between two values the mode picks (R56, R57). -/
theorem up_iff (mode u : Nat) (neg : Bool) (hfrac : 0 < f.f) {lo : Nat}
    (hlo : f.mag q lo < halfUnits q mant exp st) (hhi : halfUnits q mant exp st < f.mag q (lo + 1))
    (hst : st = true → exp < f.place mant exp) :
    f.up mode u neg mant exp st = true ↔
      PicksUpper mode u neg (lo % 2 = 1) (halfUnits q mant exp st) (halfUnits q mant exp false) (f.mag q lo) (f.mag q (lo + 1)) := by
  have hcode : f.floorCode mant exp = lo := floorCode_eq f h hqe hqb (Nat.le_of_lt hlo) hhi
  have hfloor := halfUnits_eq f h hqe hqb (st := false)
  rw [hcode] at hfloor
  have hcut : exp < f.place mant exp := by
    refine (rest_ne_zero_of_lt f h hqe hqb hcode hlo).elim (fun hrest => ?_) hst
    exact Decidable.byContradiction fun hno => hrest (if_neg hno)
  have hgap := mag_floorCode_succ_of_cut f h hqe hqb hcut
  rw [hcode] at hgap
  have hodd : lo % 2 = 1 ↔ f.kept mant exp % 2 = 1 := by
    obtain ⟨k, hk⟩ := Nat.exists_eq_succ_of_ne_zero (Nat.ne_of_gt hfrac)
    rw [← hcode, Fmt.floorCode, hk, Nat.pow_succ, ← Nat.mul_assoc, Nat.mul_add_mod_self_right]
  refine roundsUp_iff mode u neg (c := 2 * 2 ^ (exp - q).toNat) (Nat.mul_pos Nat.two_pos (Nat.two_pow_pos _)) (rest_lt f mant exp) ?_ ?_ ?_ ?_ ?_ hodd
  · rw [hfloor, b2n_false]
    rfl
  · rw [hgap]
    rfl
  · rw [halfUnits, halfUnits, b2n_false]
    rfl
  · exact Int.ofNat_lt.2 hlo
  · intro _
    refine ⟨?_, by omega⟩
    rw [Fmt.cut]
    omega

end

/-- A gap of two units of mant or more around a magnitude that is not exact: its last place lies above the unit. -/
theorem lt_place_of_gap (f : Fmt) {mant lo : Nat} {exp q : Int} {st : Bool} (h : f.Known mant exp) (hqe : q ≤ exp)
    (hqb : q ≤ f.bottom) (hlo : f.mag q lo ≤ halfUnits q mant exp st) (hhi : halfUnits q mant exp st < f.mag q (lo + 1))
    (hgap : f.mag q lo + 4 * 2 ^ (exp - q).toNat ≤ f.mag q (lo + 1)) : exp < f.place mant exp := by
  rw [← floorCode_eq f h hqe hqb hlo hhi, mag_floorCode_succ f h hqb] at hgap
  have hpos := Nat.two_pow_pos (exp - q).toNat
  have hlt : (exp - q).toNat < (f.place mant exp - q).toNat := (Nat.pow_lt_pow_iff_right Nat.one_lt_two).1 (by omega)
  omega

/-- Such a gap makes a magnitude known even where mant is zero: it stands at encoding 0, in the subnormal range. -/
theorem known_of_gap (f : Fmt) {mant lo : Nat} {exp q : Int} {st : Bool} (hx : mant ≠ 0 ∨ st = true) (hqe : q ≤ exp)
    (hlo : f.mag q lo ≤ halfUnits q mant exp st)
    (hgap : st = false ∨ f.mag q lo + 4 * 2 ^ (exp - q).toNat ≤ f.mag q (lo + 1)) : f.Known mant exp := by
  by_cases h0 : mant = 0
  case neg => exact .inl h0
  subst h0
  have hst : st = true := hx.resolve_left fun h => h rfl
  subst hst
  have hzero : lo = 0 := by
    have heven := mag_even f q lo
    rw [halfUnits, Nat.mul_zero, Nat.zero_mul, b2n_true] at hlo
    refine Nat.le_zero.1 (le_of_mag_le f (q := q) ?_)
    rw [mag_zero]
    omega
  subst hzero
  have hbinade : f.binade 0 = 0 := by rw [Fmt.binade, Nat.zero_div]
  have hgap := hgap.resolve_left Bool.noConfusion
  rw [mag_succ, mag_zero, hbinade] at hgap
  have hpos := Nat.two_pow_pos (exp - q).toNat
  have hlt : (exp - q).toNat < (f.bottom - q).toNat := (Nat.pow_lt_pow_iff_right Nat.one_lt_two).1 (by omega)
  unfold Fmt.bottom at hlt
  exact .inr (by omega)

/-- The finite values' magnitudes as their encodings have them (R48). -/
theorem mag_eq_of_val {c : Nat} {f : Fmt} (hf : fmtOf c = some f) {q : Int} (hqb : q ≤ f.bottom) {z : Nat} (hz : z ≤ f.maxFin) :
    ∃ m e, f.val z = .fin false m e ∧ 2 * m * 2 ^ (e - q).toNat = f.mag q z := by
  refine ⟨_, _, val_of_le_maxFin hf hz, ?_⟩
  have hexp : ((f.binade z : Int) + f.bottom - q).toNat = f.binade z + (f.bottom - q).toNat := by omega
  rw [hexp, Fmt.mag, Fmt.grid, Nat.pow_add, ← Nat.mul_assoc, ← Nat.mul_assoc]

/-- The place past the largest finite value lies as far above it as the value before lies below. -/
theorem mag_past {c : Nat} {f : Fmt} (hf : fmtOf c = some f) (q : Int) :
    (f.mag q f.maxFin + (f.mag q f.maxFin - f.mag q (f.maxFin - 1)) : Int) = f.mag q (f.maxFin + 1) := by
  obtain ⟨hpos, hbin, -⟩ := maxFin_spec hf
  have hpred := mag_succ f q (f.maxFin - 1)
  rw [Nat.sub_add_cancel hpos, hbin] at hpred
  rw [mag_succ]
  omega

/-- An overflow is infinity, or the largest finite value in E4M3 and in the modes that do not round away (R51, R56). -/
theorem overflow_spec (f : Fmt) (mode : Nat) (neg : Bool) :
    let finite := f.e4m3 = true ∨ mode = 1 ∨ (mode = 2 ∧ neg = true) ∨ (mode = 3 ∧ neg = false)
    (f.overflow mode neg).2 = fOF ||| fNX ∧ (finite → (f.overflow mode neg).1 = b2n neg * f.signBit + f.maxFin) ∧
      (¬finite → (f.overflow mode neg).1 = b2n neg * f.signBit + (2 ^ f.e - 1) * 2 ^ f.f) := by
  unfold Fmt.overflow Fmt.inf Fmt.maxFin Fmt.maxExp
  cases h4 : f.e4m3
  · split <;> cases neg <;> simp_all [b2n]
  · simp [b2n]

theorem cast_two_pow (n : Nat) : ((2 ^ n : Nat) : Int) = 2 ^ n := Int.natCast_pow 2 n

theorem cast_two_mul_pow (m n : Nat) : ((2 * m * 2 ^ n : Nat) : Int) = 2 * m * 2 ^ n := by
  rw [Int.natCast_mul, Int.natCast_mul, cast_two_pow]
  rfl

theorem round_zero (f : Fmt) (mode u : Nat) (neg : Bool) (exp : Int) :
    f.round mode u neg 0 exp false = (b2n neg * f.signBit, 0) := rfl

/-- ROUND of a magnitude whose neighbours are lo and the encoding after it. -/
theorem round_spec {c : Nat} {f : Fmt} (hf : fmtOf c = some f) (mode u : Nat) (neg : Bool) {mant lo : Nat} {exp q : Int} {st : Bool}
    (hqe : q ≤ exp) (hqb : q ≤ f.bottom) (hfin : lo ≤ f.maxFin) (hle : f.mag q lo ≤ halfUnits q mant exp st)
    (hhi : halfUnits q mant exp st < f.mag q (lo + 1))
    (hgap : st = false ∨ f.mag q lo + 4 * 2 ^ (exp - q).toNat ≤ f.mag q (lo + 1)) :
    let uf : Flags5 := if halfUnits q mant exp st < f.mag q (2 ^ f.f) then fUF else 0
    let up := PicksUpper mode u neg (lo % 2 = 1) (halfUnits q mant exp st) (halfUnits q mant exp false) (f.mag q lo)
      (f.mag q (lo + 1))
    let r := f.round mode u neg mant exp st
    (halfUnits q mant exp st = f.mag q lo → r = (b2n neg * f.signBit + lo, 0)) ∧
    (f.mag q lo < halfUnits q mant exp st → (¬up → r = (b2n neg * f.signBit + lo, fNX ||| uf)) ∧
      (up → (lo < f.maxFin → r = (b2n neg * f.signBit + lo + 1, fNX ||| uf)) ∧ (lo = f.maxFin → r = f.overflow mode neg))) := by
  intro uf up r
  by_cases hx : mant ≠ 0 ∨ st = true
  · have hknown := known_of_gap f hx hqe hle hgap
    refine ⟨round_of_value f hknown hqe hqb mode u neg hx hfin, fun hlo => ?_⟩
    have hup : f.up mode u neg mant exp st = true ↔ up := up_iff f hknown hqe hqb mode u neg (frac_pos hf) hlo hhi fun hst =>
      lt_place_of_gap f hknown hqe hqb hle hhi (hgap.resolve_left (by simp [hst]))
    have hr := round_of_between f hknown hqe hqb mode u neg hx hlo hhi
    refine ⟨fun hno => ?_, fun hyes => ⟨fun hlt => ?_, fun heq => ?_⟩⟩
    · rw [← hup, Bool.not_eq_true] at hno
      exact hr.trans (by rw [hno]; exact if_pos hfin)
    · exact hr.trans (by rw [hup.2 hyes]; exact if_pos hlt)
    · exact hr.trans (by rw [hup.2 hyes, heq]; exact if_neg (Nat.not_succ_le_self _))
  · obtain ⟨rfl, rfl⟩ : mant = 0 ∧ st = false := by simpa using hx
    have hzero : halfUnits q 0 exp false = 0 := by simp [halfUnits, b2n]
    refine ⟨fun heq => ?_, fun hlo => absurd hlo (by omega)⟩
    have hlo : lo = 0 := Nat.le_zero.1 (le_of_mag_le f (q := q) (by omega))
    rw [hlo]
    exact round_zero ..

theorem roundToFormat : RoundToFormat := by
  intro c mode u mant exp neg st f hf _ q mag sign x0 x uf top finite past r
  have hqe : q ≤ exp := Int.min_le_left _ _
  have hqb : q ≤ f.bottom := Int.min_le_right _ _
  have hmag : ∀ z ≤ f.maxFin, mag z = f.mag q z := by
    intro z hz
    obtain ⟨m, e, hval, hm⟩ := mag_eq_of_val hf hqb hz
    simp only [mag, hval]
    rw [← hm]
    exact (cast_two_mul_pow m _).symm
  obtain ⟨hpos, -, hnormal⟩ := maxFin_spec hf
  have hsign : sign = b2n neg * f.signBit := by cases neg <;> simp [sign, b2n, Fmt.signBit]
  have htop : top = f.mag q (f.maxFin + 1) := by
    rw [← mag_past hf q, ← hmag _ (Nat.le_refl _), ← hmag _ (Nat.sub_le _ _)]
  have hx0 : x0 = halfUnits q mant exp false := (cast_two_mul_pow mant _).symm
  have hx : x = halfUnits q mant exp st := by
    cases st with
    | false => exact hx0
    | true => exact congrArg (· + 1) hx0
  have huf : uf = if halfUnits q mant exp st < f.mag q (2 ^ f.f) then fUF else 0 := by
    simp only [uf, hx, hmag _ hnormal, Int.ofNat_lt]
  have hpast : past (f.overflow mode neg) := by
    simp only [past, hsign]
    exact overflow_spec f mode neg
  clear_value mag sign x0 x uf top past
  subst hx hx0 huf hsign htop
  refine ⟨?_, fun hle => ?_, ?_⟩
  · rintro rfl rfl
    exact round_zero ..
  · replace hle := Int.ofNat_le.1 hle
    have hmant : mant ≠ 0 := by
      rintro rfl
      have hlt := mag_lt_mag f q (Nat.succ_pos f.maxFin)
      have heven := mag_even f q (f.maxFin + 1)
      have hb : b2n st ≤ 1 := by cases st <;> decide
      rw [halfUnits, Nat.mul_zero, Nat.zero_mul] at hle
      rw [Nat.succ_eq_add_one] at hlt
      omega
    have hr : r = f.overflow mode neg := round_of_past f (.inl hmant) hqe hqb mode u neg (.inl hmant) hle
    rw [hr]
    exact hpast
  · intro lo hfin hi
    have hhi : hi = f.mag q (lo + 1) := by
      simp only [hi]
      split
      next h => rw [h]
      next h => exact hmag _ (by omega)
    clear_value hi
    subst hhi
    rw [hmag lo hfin]
    intro hle hlt hgap
    obtain ⟨hvalue, hbetween⟩ := round_spec hf mode u neg (st := st) (mant := mant) hqe hqb hfin (by omega) (by omega)
      (hgap.imp_right fun hg => by rw [← cast_two_pow] at hg; omega)
    refine ⟨fun h => hvalue (by omega), fun h => ?_⟩
    obtain ⟨hdown, hup⟩ := hbetween (by omega)
    refine ⟨hdown, fun hyes => ⟨(hup hyes).1, fun h => ?_⟩⟩
    rw [show r = f.overflow mode neg from (hup hyes).2 h]
    exact hpast

/-! ## Rounding to an integer -/

/-- The integer ROUND gives of a magnitude, and whether it is inexact, in terms of the magnitude over a power of two. -/
theorem roundInt_eq (mode u : Nat) (neg : Bool) (m : Nat) (e : Int) :
    let unit := 2 ^ (-e).toNat
    let x := m * 2 ^ e.toNat
    let r := x / unit + b2n (roundsUp mode u neg (x / unit) (x % unit) (-e).toNat false)
    roundInt mode u neg m e = (if neg then -(r : Int) else r, decide (x % unit ≠ 0)) := by
  have hadd : ∀ (b : Bool) (k : Nat), (if b then k + 1 else k) = k + b2n b := by intro b k; cases b <;> rfl
  intro unit x r
  by_cases he : e < 0
  · have hx : x = m := by
      rw [show x = m * 2 ^ e.toNat from rfl, Int.toNat_of_nonpos (Int.le_of_lt he), Nat.pow_zero, Nat.mul_one]
    simp only [r, hx, roundInt, hadd, if_pos he, unit]
  · have hd : (-e).toNat = 0 := by omega
    simp only [r, x, roundInt, hadd, if_neg he, unit, hd, Nat.pow_zero, Nat.div_one, Nat.mod_one]

/-- A finite value converted to an integer is its rounding, clamped (R62). -/
theorem toInt_fin (n mode u : Nat) (neg : Bool) (m : Nat) (e : Int) :
    toInt n mode u (.fin neg m e) =
      (let t := (roundInt mode u neg m e).1
       if t < -(2 ^ (n - 1) : Int) then (-(2 ^ (n - 1) : Int), fNV)
       else if (2 ^ (n - 1) : Int) - 1 < t then ((2 ^ (n - 1) : Int) - 1, fNV)
       else (t, if (roundInt mode u neg m e).2 then fNX else 0)) := by
  simp only [toInt, cast_two_pow]

theorem roundToInteger : RoundToInteger := by
  intro n mode u m neg e _ _ unit x k
  have hdm : k * unit + x % unit = x := Nat.div_add_mod' x unit
  have hexact : x = k * unit ↔ x % unit = 0 := by omega
  refine ⟨⟨k + b2n (roundsUp mode u neg k (x % unit) (-e).toNat false), fun hx => ?_, fun hx => ?_, ?_⟩, fun _ => rfl, ?_, ?_⟩
  · rw [hexact.1 hx, roundsUp_exact]
    rfl
  · have hup : roundsUp mode u neg k (x % unit) (-e).toNat false = true ↔
        PicksUpper mode u neg (k % 2 = 1) x x (k * unit : Nat) ((k + 1) * unit : Nat) := by
      refine roundsUp_iff mode u neg Nat.one_pos (Nat.mod_lt x (Nat.two_pow_pos _)) ?_ ?_ ?_ ?_ (by simp) Iff.rfl
      · rw [Nat.mul_one]
        omega
      · rw [Nat.mul_one, Nat.succ_mul]
        exact Int.natCast_add ..
      · simp [b2n]
      · omega
    refine ⟨fun h => ?_, fun h => ?_⟩
    · rw [hup.2 h]
      rfl
    · rw [← hup, Bool.not_eq_true] at h
      rw [h]
      rfl
  · rw [toInt_fin, roundInt_eq]
    simp only [hexact, decide_eq_true_eq, ne_eq, ite_not]
    rfl
  · simp [toInt]
  · simp [toInt]

/-! ## The floating-point instructions -/

/-- One rounded element: its value, its flags, and the step it takes in mode SR (R60). -/
theorem elem_eq (r : Rc) (op : (mode u : Nat) → Nat × Flags5) :
    r.elem op =
      (let v := if r.mode = 5 then op 5 (seedU (seedNext r.seed)) else op r.mode 0
       ({ r with seed := if r.mode = 5 then seedNext r.seed else r.seed, fl := r.fl ||| v.2 }, v.1)) := by
  unfold Rc.elem
  split <;> rfl

/-- An instruction starts with no flag raised. -/
theorem rc_fl_or (s : State) (v : Flags5) : s.rc.fl ||| v = v := BitVec.zero_or

theorem rounds_of_float {i : Instr} {s : State} {d : Reg} {op : (mode u : Nat) → Nat × Flags5}
    (h : exec i s = s.float d op) : Rounds i s d op := by
  have hc := givesF_of_commit (r := ((s.rc.elem op).1, wordN (s.rc.elem op).2)) h
  simp only [elem_eq, rc_fl_or] at hc
  exact hc

theorem givesF_of_floatFixed {i : Instr} {s : State} {d : Reg} {v : Nat × Flags5} (h : exec i s = s.floatFixed d v) :
    GivesF i s d (wordN v.1) (s.th.fxf ||| v.2) s.th.seed := by
  have hc := givesF_of_commit h
  simp only [Rc.flag, rc_fl_or] at hc
  exact hc

theorem b2n_eq_one {k : Nat} (h : k < 2) : b2n (decide (k = 1)) = k := by
  obtain rfl | rfl : k = 0 ∨ k = 1 := by omega
  all_goals rfl

theorem b2n_eq_zero {k : Nat} (h : k < 2) : b2n (decide (k = 0)) = 1 - k := by
  obtain rfl | rfl : k = 0 ∨ k = 1 := by omega
  all_goals rfl

/-- A sign operation on an FP32 encoding: NaN gives the canonical NaN, any other its magnitude with the sign (R127). -/
theorem givesF_of_signOp {i : Instr} {s : State} {d : Reg} {x w : Nat} {sign also : Bool}
    (h : exec i s = s.floatFixed d (fp32.signOp x sign also)) (hw : w = x % 2 ^ 31 + b2n sign * 2 ^ 31) :
    GivesF i s d (if (fp32.val x).isNan then 0x7FC00000 else wordN w) (s.th.fxf ||| nvIf ((fp32.val x).isSnan || also))
      s.th.seed := by
  have hv : wordN (fp32.signOp x sign also).1 = if (fp32.val x).isNan then 0x7FC00000 else wordN w := by
    rw [hw]
    exact apply_ite wordN _ _ _
  rw [← hv]
  exact givesF_of_floatFixed h

/-- What an encoding stands for, by its fields, in a format without E4M3's rules (R48 to R50). -/
theorem val_cases_of_ieee (f : Fmt) (h4 : f.e4m3 = false) (x : Nat) :
    let e := x / 2 ^ f.f % 2 ^ f.e
    (e = f.maxExp ∧ ((∃ n, f.val x = .inf n) ∨ ∃ sig, f.val x = .nan sig)) ∨
    (e = 0 ∧ ∃ n k, f.val x = .fin n (x % 2 ^ f.f) k) ∨ (e ≠ 0 ∧ ∃ n m k, f.val x = .fin n (2 ^ f.f + m) k) := by
  intro e
  unfold Fmt.val
  simp only [h4, Bool.false_and, Bool.false_eq_true, if_false, Bool.not_false, Bool.true_and, decide_eq_true_eq]
  by_cases hmax : e = f.maxExp
  · refine .inl ⟨hmax, ?_⟩
    rw [if_pos hmax]
    by_cases hfrac : x % 2 ^ f.f = 0
    · exact .inl ⟨_, if_pos hfrac⟩
    · exact .inr ⟨_, if_neg hfrac⟩
  · rw [if_neg hmax]
    by_cases hmin : e = 0
    · exact .inr (.inl ⟨hmin, _, _, if_pos hmin⟩)
    · exact .inr (.inr ⟨hmin, _, _, _, if_neg hmin⟩)

/-- A magnitude field is subnormal where the exponent field is zero and the fraction is not. -/
theorem subnormal_iff (x : Nat) :
    x % 2 ^ 31 ≠ 0 ∧ x % 2 ^ 31 < 2 ^ 23 ↔ x / 2 ^ 23 % 256 = 0 ∧ x % 2 ^ 23 ≠ 0 := by omega

/-- The class of an FP32 encoding (R128). -/
theorem classBit_spec (x : Nat) :
    let v := fp32.val x
    classBit x < 10 ∧ (classBit x = 8 ↔ v.isSnan = true) ∧ (classBit x = 9 ↔ v.isNan = true ∧ v.isSnan = false) ∧
      (classBit x < 4 ↔ v.isNan = false ∧ v.neg = true) ∧ ((classBit x = 3 ∨ classBit x = 4) ↔ v.isZero = true) ∧
      ((classBit x = 0 ∨ classBit x = 7) ↔ ∃ n, v = .inf n) ∧
      ((classBit x = 2 ∨ classBit x = 5) ↔ x % 2 ^ 31 ≠ 0 ∧ x % 2 ^ 31 < 2 ^ 23) := by
  have hcases : (x / 2 ^ 23 % 256 = 255 ∧ ((∃ n, fp32.val x = .inf n) ∨ ∃ sig, fp32.val x = .nan sig)) ∨
      (x / 2 ^ 23 % 256 = 0 ∧ ∃ n k, fp32.val x = .fin n (x % 2 ^ 23) k) ∨
      (x / 2 ^ 23 % 256 ≠ 0 ∧ ∃ n m k, fp32.val x = .fin n (2 ^ 23 + m) k) := val_cases_of_ieee fp32 rfl x
  rw [subnormal_iff]
  unfold classBit
  generalize x / 2 ^ 23 % 256 = e at hcases
  generalize x % 2 ^ 23 = frac at hcases
  obtain ⟨rfl, ⟨n, hv⟩ | ⟨sig, hv⟩⟩ | ⟨rfl, n, k, hv⟩ | ⟨he, n, m, k, hv⟩ := hcases <;> rw [hv]
  · cases n <;> simp [Val.isSnan, Val.isNan, Val.neg, Val.isZero]
  · cases sig <;> simp [Val.isSnan, Val.isNan, Val.neg, Val.isZero]
  · cases frac <;> cases n <;> simp [Val.isSnan, Val.isNan, Val.neg, Val.isZero]
  · cases n <;> simp [he, Val.isSnan, Val.isNan, Val.neg, Val.isZero]

theorem floatInstructions : FloatInstructions := by
  intro s d a b c g f
  have hp : lo32 (s.readReg a) < 2 ^ 32 := Nat.mod_lt _ (by decide)
  have hq : lo32 (s.readReg b) < 2 ^ 32 := Nat.mod_lt _ (by decide)
  refine ⟨rounds_of_float rfl, rounds_of_float rfl, rounds_of_float rfl, rounds_of_float rfl, rounds_of_float rfl,
    rounds_of_float rfl, rounds_of_float rfl, rounds_of_float rfl, givesF_of_floatFixed rfl, givesF_of_floatFixed rfl,
    ?_, ?_, ?_, ?_, rounds_of_float rfl, rounds_of_float rfl, ?_⟩
  · have habs := givesF_of_signOp (i := .fabs d a) (d := d) (s := s) rfl rfl
    rwa [Bool.or_false] at habs
  · have hneg := givesF_of_signOp (i := .fneg d a) (d := d) (s := s) rfl
      (w := (lo32 (s.readReg a) + 2 ^ 31) % 2 ^ 32) (by rw [b2n_eq_zero] <;> omega)
    rwa [Bool.or_false] at hneg
  · have hsign : lo32 (s.readReg b) / 2 ^ 31 < 2 := by omega
    exact givesF_of_signOp rfl (by rw [b2n_eq_one hsign]; rfl)
  · obtain ⟨hlt, hspec⟩ := classBit_spec (lo32 (s.readReg a))
    exact ⟨_, hlt, gives_of_retireWith rfl, hspec⟩
  · intro m hm
    have hexec : ∀ x, exec (.fcvth d a x f) s = if x = 0 then s.float d (fun md u => m.conv md u (f32 (s.readReg a)))
        else s.floatFixed d (fp32.conv 0 0 (m.val ((s.readReg a).toNat % 2 ^ m.width))) := by
      intro x
      show execFcvth d a x f s = _
      rw [execFcvth, hm]
    exact ⟨rounds_of_float ((hexec 0).trans (if_pos rfl)), givesF_of_floatFixed ((hexec 1).trans (if_neg (by decide)))⟩

/-- Settles O3: the encoding below a magnitude is found by its place on the format's grid, and the choice to go up from it
is the mode's; to an integer likewise; each instruction commits its one result. -/
theorem floatResults : Obligations.FloatResults := ⟨roundToFormat, roundToInteger, floatInstructions⟩

end Sys2Proof.Machine
end
